-- ==== Sys2Proof/Word.lean ====
section
/-! DEFINITION. The plain word types of the part: bytes, 32-bit register words (R8), 64-byte rows. -/
namespace Sys2Proof

/-- One byte of a packet, frame or memory row. -/
abbrev Byte := BitVec 8
/-- One 32-bit register (R8). -/
abbrev Word := BitVec 32
/-- A byte sequence: a packet, a parameter block, a frame or a payload. -/
abbrev Bytes := List Byte

end Sys2Proof
end

