-- ==== Sys2Proof/Machine/Tab.lean ====
section
/-! DEFINITION. Finite tables keyed by a number, kept sorted with no repeats: registers, objects, queues by index. -/
namespace Sys2Proof.Machine

/-- A table from numbers to values: keys strictly rising. -/
abbrev Tab (α : Type) := List (Nat × α)

/-- The value at `k`, if the table lists it. -/
def tget {α : Type} : Tab α → Nat → Option α
  | [], _ => none
  | (j, v) :: t, k => if j = k then some v else if k < j then none else tget t k

/-- The value at `k`, or `d` where the table lists none. -/
def tgetD {α : Type} (t : Tab α) (k : Nat) (d : α) : α := (tget t k).getD d

/-- `t` with `v` at `k`. -/
def tput {α : Type} : Tab α → Nat → α → Tab α
  | [], k, v => [(k, v)]
  | (j, w) :: t, k, v =>
    if k < j then (k, v) :: (j, w) :: t else if j = k then (k, v) :: t else (j, w) :: tput t k v

/-- `t` without an entry at `k`. -/
def tdel {α : Type} : Tab α → Nat → Tab α
  | [], _ => []
  | (j, w) :: t, k => if j = k then t else if k < j then (j, w) :: t else (j, w) :: tdel t k

/-- `t` with the value at `k` changed by `f`, and unchanged where it lists none. -/
def tmod {α : Type} (t : Tab α) (k : Nat) (f : α → α) : Tab α :=
  match tget t k with
  | some v => tput t k (f v)
  | none => t

/-- `t` with every value changed by `f` (which also sees its key). -/
def tmap {α β : Type} (f : Nat → α → β) (t : Tab α) : Tab β := t.map fun p => (p.1, f p.1 p.2)

/-- The entries of `t` that `f` keeps. -/
def tfilter {α : Type} (f : Nat → α → Bool) (t : Tab α) : Tab α := t.filter fun p => f p.1 p.2

/-- The table lists `k`. -/
def thas {α : Type} (t : Tab α) (k : Nat) : Bool := (tget t k).isSome

/-- The keys are strictly rising and none lies below `lo`. -/
def tsorted {α : Type} : Nat → Tab α → Bool
  | _, [] => true
  | lo, (j, _) :: t => decide (lo ≤ j) && tsorted (j + 1) t

end Sys2Proof.Machine
end

