-- ==== Sys2Proof/Machine/Objects.lean ====
section
/-! DEFINITION. The data that commands and the state share: a command as it takes effect, a ledger entry, the world (maps, streams, models, sets, agents), the
queries, the polders' values, waiting frames, and the snapshot of all of these. -/
namespace Sys2Proof

/-- Where a command came from: a submission queue of a polder, a field port's request for an agent, the part itself, or the fabric. -/
inductive Origin where
  | host (polder queue : Nat)
  | field (port agent : Nat)
  | internal (unit : Nat)
  | fabric (id : Nat)
  deriving DecidableEq, Repr, Inhabited

/-- A command as it takes effect in its ledger turn (R360): where it came from, its polder, opcode, header fields and parameter
block (inline or indirect, without the packet), and the running count of its packet at its queue (R62). -/
structure Cmd where
  origin : Origin
  polder : Nat
  op : Nat
  tag : Nat
  cls : Nat
  deadline : Nat
  budget : Nat
  noIrq : Bool
  block : Bytes
  seq : Nat := 0
  deriving DecidableEq, Repr, Inhabited

/-- A ledger entry (R62); its index is its place in the ledger. -/
structure Entry where
  kind : Nat
  internal : Bool
  more : Bool
  source : Nat
  ctr : Nat
  ts : Nat
  polder : Nat
  cls : Nat
  payload : Bytes
  deriving DecidableEq, Repr, Inhabited

end Sys2Proof
namespace Sys2Proof.Machine

/-! ### Geometry and the world model (R90 to R144) -/

/-- A point or vector, per axis (SC32 unless said otherwise, R90). -/
structure V3 where
  x : Int
  y : Int
  z : Int
  deriving DecidableEq, Repr, Inhabited

/-- A static object of a map (R96): the record's fields and, for a mesh, its triangles in the object frame. -/
structure Obj where
  kind : Nat
  cls : Nat
  id : Nat
  centre : V3
  size : V3
  quat : List Int
  tris : List (V3 × V3 × V3)
  deriving DecidableEq, Repr, Inhabited

/-- A leaf primitive (R98); `obj` is the object index. -/
inductive Prim where
  | sphere (c : V3) (r : Int) (obj : Nat)
  | box (c h : V3) (rot : List Int) (obj : Nat)
  | tri (v0 v1 v2 : V3) (obj : Nat)
  deriving DecidableEq, Repr, Inhabited

/-- A used slot of a BVH node (R100): the quantised bounds, whether the child is a leaf, its kind and number. -/
structure BvhSlot where
  qlo : V3
  qhi : V3
  leaf : Bool
  kind : Nat
  index : Nat
  deriving DecidableEq, Repr, Inhabited

/-- A BVH node (R100): its box and its used slots, at most four. -/
structure BvhNode where
  lo : V3
  hi : V3
  slots : List BvhSlot
  deriving DecidableEq, Repr, Inhabited

/-- A present brick (R105): its base slice and its words that are not 0, by voxel number. -/
structure Brick where
  base : Nat
  words : Tab (BitVec 64)
  deriving DecidableEq, Repr, Inhabited

/-- A reservation footprint (R245): slice masks with base `base`, by global voxel key. -/
structure Foot where
  base : Nat
  cells : Tab (BitVec 64)
  deriving DecidableEq, Repr, Inhabited

/-- The delta of a version (R117): the changed tiles per plane, and for static geometry. -/
structure Delta where
  ver : Nat
  hard : List Nat
  risk : List Nat
  resv : List Nat
  stat : List Nat
  deriving DecidableEq, Repr, Inhabited

/-- Where a version lies in the world store (R105, R157): the bulk-memory addresses of its root table, of BVH node 0, of primitive record 0 and of object
record 0, of its tile nodes by tile and of the words of its present bricks by plane, tile and brick. -/
structure VerPlace where
  root : Nat
  node : Nat
  prim : Nat
  obj : Nat
  tiles : Tab Nat
  bricks : Tab Nat
  deriving DecidableEq, Repr, Inhabited

/-- One map version (R105, R113): bricks of the three planes by plane, tile and brick; objects; primitives; BVH; the
footprints of the agents' current plans that its reservation plane is made of; where it lies. -/
structure MapVer where
  ver : Nat
  bricks : Tab Brick
  objs : Tab Obj
  prims : List Prim
  bvh : List BvhNode
  foots : Tab Foot
  place : VerPlace
  deriving DecidableEq, Repr, Inhabited

/-- A host VOX record staged for a map (R108): operation 4, 5 or 6, plane, box and slice mask. -/
structure VoxRec where
  op : Nat
  plane : Nat
  lo : V3
  hi : V3
  mask : BitVec 64
  deriving DecidableEq, Repr, Inhabited

/-- One occupancy write of a predictor pass: plane, voxel indices and slice word. -/
structure PredWord where
  plane : Nat
  vox : V3
  word : BitVec 64
  deriving DecidableEq, Repr, Inhabited

/-- The staged set of a map (R109, R110): the static objects as they would be, the ids that its records touch, the VOX records, the
bytes of bodies, and whether there are static changes. -/
structure Staged where
  bytes : Nat
  statics : Bool
  objs : Tab Obj
  touched : List Nat
  vox : List VoxRec
  deriving DecidableEq, Repr, Inhabited

/-- One change of R111 waiting to form. -/
inductive Change where
  /-- A predictor pass's writes over the region of the coverage boxes. -/
  | pred (boxes : List (V3 × V3)) (words : List PredWord)
  /-- A committed staged set, with the ids that a static change added, removed or replaced, its objects, primitives and BVH. -/
  | commit (vox : List VoxRec) (stat : Option (List Nat × Tab Obj × List Prim × List BvhNode))
  /-- Blind fill of a coverage box (R128). -/
  | blind (plane : Nat) (lo hi : V3)
  /-- The new footprint of an agent, or its removal. -/
  | foot (agent : Nat) (f : Option Foot)
  /-- A mirror block (R522): whether it replaces the whole box, its base slice, its bricks by plane, tile and brick (none: absent). -/
  | mirror (full : Bool) (base : Nat) (recs : List (Nat × Option (Tab (BitVec 64))))
  deriving DecidableEq, Repr, Inhabited

/-- The changes of one turn end with the slice their bit 0 stands for (R114). -/
structure PendTurn where
  sigma : Nat
  changes : List (Nat × Change)
  deriving DecidableEq, Repr, Inhabited

/-- The BVH build of a map (R102): idle, waiting for its first turn, running, or ended and not yet committed. -/
inductive Build where
  | idle
  | start (turn : Nat)
  | ready (prims : List Prim) (bvh : List BvhNode)
  deriving DecidableEq, Repr, Inhabited

/-- The predictor slot of a map and the pass that runs in it (R112, R211 to R216): start turn, end turn (0: none runs), slot, the coverage boxes of its region,
the words it writes, whether a layer had a fault, whether a readout saturated; the work it has left: tiles by slot, the turn from which that is counted, and
what one tile costs. -/
structure PredPass where
  start : Nat
  ends : Nat
  slot : Nat
  boxes : List (V3 × V3)
  words : Option (List PredWord)
  fault : Bool
  sat : Bool
  left : List (Nat × Nat)
  since : Nat
  cost : Nat
  deriving DecidableEq, Repr, Inhabited

/-- One map (R92 to R120). `grants` and `grantNext` are polders now and from the next turn; `born` is none until version
0 forms; `removed` is set from the position of an accepted MAP_DESTROY to the turn end (R119). `hist` is the predictor
history by region tile: frames, newest first, each with the four channels of the cells that are covered (R213, R214); `unfill` the boxes whose
blind fill the next formation removes (R120). -/
structure MapRec where
  owner : Nat
  boxMin : V3
  boxMax : V3
  k : Nat
  sliceMs : Nat
  model : Option Nat
  predPeriod : Nat
  pinHoldMax : Nat
  grants : List Nat
  grantNext : List Nat
  vers : List MapVer
  deltas : List Delta
  staged : Staged
  build : Build
  events : List (Nat × Change)
  pend : List PendTurn
  deferTurns : Nat
  expiryCnt : Nat
  predSkip : Nat
  pass : Option PredPass
  hist : Tab (List (Tab Bytes))
  unfill : List VoxRec
  born : Bool
  removed : Bool
  deriving DecidableEq, Repr, Inhabited

/-- One stream (R122 to R128). Counters as in the status record of R129. `bucket` holds tokens in units of
10^-9 frames (R127 check 3); `offs` is the time offset in force in ns, `offsNext` the one that
an outcome in the ledger of this turn gives the ledgers that follow (R442). -/
structure StreamRec where
  kind : Nat
  polder : Nat
  target : Nat
  port : Nat
  srcMac : Nat
  rate : Nat
  timeoutMs : Nat
  coverMin : V3
  coverMax : V3
  blindPlane : Nat
  openTurn : Nat
  closeTurn : Option Nat
  lastCtr : Option Nat
  lastArr : Nat
  bucket : Nat
  bucketAt : Nat
  timedOut : Bool
  timeoutSince : Bool
  resumeTurn : Nat
  accepted : Nat
  crcErr : Nat
  rateDrop : Nat
  orderDrop : Nat
  timeDrop : Nat
  rangeDrop : Nat
  gapCnt : Nat
  timeoutCnt : Nat
  offs : Int
  offsNext : Option Int := none
  deriving DecidableEq, Repr, Inhabited

/-- One live version of a model (R133): the definition's bytes. -/
structure ModelVer where
  ver : Nat
  raw : Bytes
  deriving DecidableEq, Repr, Inhabited

/-- One model (R130 to R134): its versions, oldest first; the definition that forms at this turn's end; the waiting
pending definition. -/
structure ModelRec where
  owner : Nat
  kind : Nat
  vers : List ModelVer
  due : Option Bytes
  pend : Option Bytes
  removed : Bool
  deriving DecidableEq, Repr, Inhabited

/-- One live version of a primitive set (R139 to R142): the load's bytes and, for a lattice set, the build model version
that its swept-sphere table was made from, with its model's handle. -/
structure SetVer where
  ver : Nat
  raw : Bytes
  buildOf : Nat
  buildVer : Nat
  buildModel : Bytes
  deriving DecidableEq, Repr, Inhabited

/-- A build of a lattice set (R140): the turn it starts in, the load it builds, the build model version. -/
structure SetBuild where
  start : Nat
  raw : Bytes
  modelVer : Option (Nat × Bytes)
  deriving DecidableEq, Repr, Inhabited

/-- One primitive set (R135 to R143). -/
structure SetRec where
  owner : Nat
  model : Nat
  kind : Nat
  loaded : Bytes
  vers : List SetVer
  due : Option SetVer
  build : Option SetBuild
  pend : Option SetVer
  removed : Bool
  deriving DecidableEq, Repr, Inhabited

/-! ### Queries, searches and motions (R218 to R252) -/

/-- A velocity: base x and y in SC32 LSB/s, yaw in Q2.29 rad/s, joints in their own format per s. -/
structure Vel where
  vx : Int
  vy : Int
  w : Int
  qd : List Int
  deriving DecidableEq, Repr, Inhabited

/-- One sample of a motion: its time and its sphere centres. -/
structure MotionSample where
  tau : Nat
  centres : List V3
  deriving DecidableEq, Repr, Inhabited

/-- One step of a plan (R247) with its start and end times and its samples. -/
structure StepRec where
  set : Nat
  heading : Nat
  prim : Nat
  x : Int
  y : Int
  yaw : Int
  q : List Int
  tOff : Nat
  g : Nat
  seq : Nat
  tau0 : Nat
  tau1 : Nat
  vel : Vel
  rest : Bool
  samples : List MotionSample
  deriving DecidableEq, Repr, Inhabited

/-- A stop: the closing stop of a plan (R233) or the committed stop of an agent (R236), with what its verification read (R251). Times in ns. -/
structure StopRec where
  rung : Nat
  atRest : Bool
  tb : Nat
  ts : Nat
  x : Int
  y : Int
  yaw : Int
  q : List Int
  brake : List MotionSample
  rest : List V3
  mapVer : Nat
  modelVer : Nat
  turn : Nat
  deriving DecidableEq, Repr, Inhabited

/-- A search node (R221): its record's fields, `tOff` held in ns (the record shows whole µs), with the number of headings that its heading
index counts, its velocity and whether it is at rest (R233, R234), and the clearance of its edge (R176). -/
structure Node where
  parent : Option (Nat × Nat)
  prim : Nat
  set : Nat
  depth : Nat
  heading : Nat
  hs : Nat
  x : Int
  y : Int
  yaw : Int
  tOff : Nat
  g : Nat
  h : Nat
  seq : Nat
  key : Nat
  residual : Nat
  q : List Int
  vel : Vel
  rest : Bool
  clearance : Nat
  deriving DecidableEq, Repr, Inhabited

/-- A released motion that is an agent's current plan: a plan from its start node with its closing stop, or a stop alone (no steps).
`rho` are the radii of its spheres (R139). -/
structure Motion where
  isStop : Bool
  startTau : Nat
  node0 : Node
  rho : List Int
  steps : List StepRec
  stop : StopRec
  deriving DecidableEq, Repr, Inhabited

/-- One tile's part of a search (R221, R227, R228): nodes by index, the frontier as (cost, seq, node) in key order, and the
visited table of state key and least g. -/
structure TileStore where
  nodes : List Node
  queue : List (Nat × Nat × Nat)
  visited : List (Nat × Nat)
  deriving DecidableEq, Repr, Inhabited

/-- What a query is (R63, R14). -/
inductive QKind where
  | plan
  | stopVerify
  | solve
  | select
  deriving DecidableEq, Repr, Inhabited

/-- What a lead forwards to a joining twin at a turn's end: the maps, models and sets with their versions (R500 item 3). -/
structure Formed where
  maps : Tab MapRec
  models : Tab ModelRec
  sets : Tab SetRec
  deriving DecidableEq, Repr, Inhabited

/-! ### Polders, agents, queries, the snapshot of R86 -/

/-- A polder (R380 to R407): state 0 absent, 1 active, 2 resetting, 3 being destroyed; its values, and those of the next turn;
deficit, rate bucket (in 10^-9 requests) and the time of its last refill; violation counters. -/
structure PolderRec where
  state : Nat
  weight : Nat
  rate : Nat
  slice : Nat
  quotaQ : Nat
  quotaMap : Nat
  quotaStream : Nat
  quotaAgent : Nat
  quotaStore : Nat
  next : Option (List Nat)
  creating : Bool
  deficit : Nat
  bucket : Nat
  bucketAt : Nat
  violDike : Nat
  violRate : Nat
  violStream : Nat
  resetCnt : Nat
  c0Refuse : Nat
  deriving DecidableEq, Repr, Inhabited

/-- A binding (R146). -/
structure Bind where
  model : Nat
  homeMap : Nat
  stream : Nat
  sets : List Nat
  ctrlPort : Nat
  ctrlMac : Nat
  ctrlVlan : Nat
  rungs : Nat
  baseDecel : List Nat
  jointDecel : List Nat
  deriving DecidableEq, Repr, Inhabited

/-- A state of an agent as entered in a ledger (R149, R151): the record, the frame's timestamp, the ledger turn. -/
structure AgentSnap where
  raw : Bytes
  ts : Nat
  turn : Nat
  deriving DecidableEq, Repr, Inhabited

/-- An agent (R145 to R154): state 0 NO_STATE, 1 ACTIVE, 2 STALE, 3 STOP_UNSAFE. `snap` is the last accepted state; `rung`
and `stop` are committed; `cur` is the current plan; `tile` the class-0 tile; `charge` its ladder charge; `frames` counts
result frames; `stopDue` is the turn whose release phase releases the committed stop (R153, R492). -/
structure AgentRec where
  polder : Nat
  bind : Bind
  next : Option Bind
  leaving : Bool
  fresh : Bool
  state : Nat
  marked : Bool
  snap : Option AgentSnap
  rung : Nat
  stop : Option StopRec
  stopDue : Option Nat
  cur : Option Motion
  tile : Nat
  charge : Nat
  chargeNext : Nat
  frames : Nat
  reqCtr : Option Nat
  staleCnt : Nat
  released : Nat
  stopsReleased : Nat
  invalidated : Nat
  rungFalls : Nat
  lastTurn : Nat
  deriving DecidableEq, Repr, Inhabited

/-- A reply that is due or will be (R361, R364): where it goes, its fields, the turn after whose end it is due (0: at once), the
ledger index that orders it, the result bytes, and whether it was made in replay (R87). -/
structure Reply where
  tag : Nat
  status : Nat
  admitted : Nat
  released : Nat
  detail : Nat
  result : Option Bytes
  noIrq : Bool
  due : Nat
  idx : Nat
  replayed : Bool := false
  deriving DecidableEq, Repr, Inhabited

/-- A frame waiting for egress (R82, R83, R249, R377): its release turn, agent, order class (0 class-0 request results, 1 other
stops, 2 class 1 to 3 results, 3 request statuses, 4 others), destination, whether it waits for the twin's digest and has found it equal, the polder,
tag and digest of its content (R492), the reply to its command that waits with it, the bytes (none for a result that sends no frame). -/
structure EgFrame where
  turn : Nat
  agent : Nat
  order : Nat
  port : Nat
  mac : Nat
  vlan : Nat
  pcp : Nat
  waits : Bool
  equal : Bool
  id : Nat
  polder : Nat
  tag : Nat
  digest : Nat
  rep : Option (Cmd × Reply)
  body : Bytes
  deriving DecidableEq, Repr, Inhabited

/-- The world: maps, streams, models, sets, agents, each by handle, and predictor frames by stream (R92 to R154, R214). -/
structure World where
  maps : Tab MapRec
  streams : Tab StreamRec
  models : Tab ModelRec
  sets : Tab SetRec
  agents : Tab AgentRec
  frames : Tab (List Bytes)
  deriving DecidableEq, Repr, Inhabited

/-- The stage of a query (R14): promised a place and not active yet, admitted and spilled, the stages 2 to 7, ready for release
(stage 8 and 9), ended. -/
inductive QStage where
  | entered
  | spilled
  | goal
  | search
  | closing
  | finish
  | cover
  | ready
  | compute
  | ended
  deriving DecidableEq, Repr, Inhabited

/-- A query in the part: its command, its stamp, its pins, its progress and its result; whether its release goes by an internal entry because a twin was joining
when it was admitted (`viaEntry`), and whether it is then the twin that computes it (`foreign`, R500). -/
structure QueryRec where
  kind : QKind
  cmd : Cmd
  places : Nat
  agent : Nat
  admTurn : Nat
  admIndex : Nat
  actTurn : Nat
  stage : QStage
  die : Nat
  pinMaps : List (Nat × Nat)
  pinModel : Option (Nat × Nat)
  pinSets : List (Nat × Nat × Nat)
  pinHeur : Option (Nat × Nat)
  content : Nat
  snap : Option AgentSnap
  bind : Bind
  ctrl : Nat × Nat × Nat
  homeMap : Nat
  start : Option Node
  startTau : Nat
  latOk : Bool
  goalQ : Option (List Int)
  tiles : Tab TileStore
  expansions : Nat
  endNode : Option Node
  goalReached : Bool
  partialEnd : Bool
  timeLimited : Bool
  accSat : Bool
  pivot : Bool
  nodeFull : Bool
  ikDegraded : Bool
  stop : Option StopRec
  cut : Bool
  foots : Tab Foot
  replanned : Bool
  stopInstead : Bool
  tlPlaced : Bool
  endTurn : Nat
  relTurn : Nat
  status : Nat
  detail : Nat
  result : Bytes
  viaEntry : Bool := false
  foreign : Bool := false
  deriving DecidableEq, Repr, Inhabited

/-- Queries by running number, the next number, the round-robin start polder (R398); the turn whose release phase has been made, and the
footprints released in it by map and agent, in order (R241). -/
structure QDev where
  recs : Tab QueryRec
  next : Nat
  rr : Nat
  relTurn : Nat
  phase : List (Nat × Nat × Foot)
  deriving DecidableEq, Repr, Inhabited

/-- The state of R86 at the start of a turn, as SNAPSHOT writes it to host memory and REPLAY_PREPARE loads it: the world, the queries, the
polders' counters, the frames that wait, the tile generation, the digest of the turn's predecessor. Log entry 53 DESIGN CHOICE. -/
structure Snap where
  turn : Nat
  world : World
  q : QDev
  pld : Tab PolderRec
  egress : List EgFrame
  tileGen : Nat
  digest : Nat
  deriving DecidableEq, Repr, Inhabited

end Sys2Proof.Machine
end

