-- ==== Sys2Proof/Syntax.lean ====
section
/-! DEFINITION. The commands and events of the part, with their operands, as data. -/
namespace Sys2Proof

/-- A coded message (R450). -/
structure WMsg where
  src : Nat
  die : Nat
  kind : Nat
  origin : Nat
  detail : Nat
  ts : Nat
  deriving DecidableEq, Repr, Inhabited

/-- A message on the twin link above its frames: one constructor per use in R484 to R504. -/
inductive TwinMsg where
  | idle
  | entry (turn : Nat) (e : Entry)
  | seal (turn : Nat) (entries bytes digest : Nat)
  | digests (turn : Nat) (items : List (Nat × Nat × Nat))
  | leave
  | handover
  | attachCheck (serial variant content fw cfgDigest m : Nat)
  | attachOk (serial : Nat)
  | attachFail (why : Nat)
  | snapshot (x : Machine.Snap)
  | versions (turn : Nat) (x : Machine.Formed)
  | caughtUp
  | join (turn : Nat)
  | stateDigest (digest : Nat)
  | mirrorHeld (fabric mirror block : Nat)
  deriving DecidableEq, Repr, Inhabited

/-- Who writes or reads a register (R9, R10, R566, R569): a function of the host (0 the PF, p the VF of polder p), a control core of a
die, the serial monitor; or the host through BAR 2 of the PF, whose words are bulk memory and banks (R349). -/
inductive Who where
  | host (fn : Nat)
  | core (die : Nat)
  | monitor
  | bar2
  deriving DecidableEq, Repr, Inhabited

/-- What the descriptors of unit operations hold where the spec gives no layout (log entry 7). Frontier unit (R253): entries (cost, sequence
number, node index), `pops` is pop_b, `bank` and `row` name the row that receives popped entries. SLV_ROWS (R267): the model version, and per
candidate the node's joint values and base x, y and yaw. -/
structure UnitDesc where
  entries : List (Nat × Nat × Nat)
  pops : Nat
  bank : Nat
  row : Nat
  model : Bytes
  nodes : List (List Int × Int × Int × Int)
  deriving DecidableEq, Repr, Inhabited

/-- A fabric frame as it arrives (R509): port, source MAC, the frame from its byte 0. -/
structure FabFrame where
  port : Nat
  mac : Nat
  body : Bytes
  deriving DecidableEq, Repr, Inhabited

/-- The commands and events of the part: one constructor per row of the opcode table. -/
inductive Instr where
  /-- NOP (R366): Host command that does nothing and completes OK in its ledger turn. -/
  | nop (c : Cmd)
  /-- QUERY_STATUS (R375): Host command returning the status record of a map, stream, agent, query, model or set as at the end of its ledger turn. -/
  | queryStatus (c : Cmd)
  /-- LOAD_IMAGE (R340): Host command writing a program image to the standby slot, verifying its signature and copying bundles to every live die. -/
  | loadImage (c : Cmd)
  /-- ACTIVATE_IMAGE (R341): Host command naming an activation turn for the standby image and scheduling an ACTIVATE entry. -/
  | activateImage (c : Cmd)
  /-- MODEL_DEFINE (R130): Host command defining or redefining a kinematic or network model, forming a version at the end of its ledger turn. -/
  | modelDefine (c : Cmd)
  /-- PRIMSET_LOAD (R135): Host command defining or replacing a primitive set, starting a build for a lattice set. -/
  | primsetLoad (c : Cmd)
  /-- MODEL_FREE (R368): Host command removing a model handle at the end of its ledger turn. -/
  | modelFree (c : Cmd)
  /-- PRIMSET_FREE (R368): Host command removing a primitive set handle at the end of its ledger turn. -/
  | primsetFree (c : Cmd)
  /-- MAP_CREATE (R93): Host command creating a map with its site box and forming version 0 at the end of its ledger turn. -/
  | mapCreate (c : Cmd)
  /-- MAP_UPDATE (R109): Host command checking and staging object and voxel update records for a map. -/
  | mapUpdate (c : Cmd)
  /-- MAP_COMMIT (R111): Host command applying a map's staged set in the version formed at the end of its ledger turn. -/
  | mapCommit (c : Cmd)
  /-- MAP_GRANT (R118): Host command granting read-only use of a map to another polder from the next turn. -/
  | mapGrant (c : Cmd)
  /-- MAP_GRANT_REVOKE (R118): MAP_GRANT with the revoke flag, withdrawing a grant from the next turn. -/
  | mapGrantRevoke (c : Cmd)
  /-- MAP_DESTROY (R119): Host command removing a map and its versions at the end of its ledger turn. -/
  | mapDestroy (c : Cmd)
  /-- STREAM_OPEN (R124): Host command opening a field stream with the lowest free number. -/
  | streamOpen (c : Cmd)
  /-- STREAM_CLOSE (R123): Host command closing a stream after the frames of its ledger turn. -/
  | streamClose (c : Cmd)
  /-- AGENT_BIND (R146): Host command creating an agent or changing its binding, with its class-0 ladder charge. -/
  | agentBind (c : Cmd)
  /-- AGENT_UNBIND (R148): AGENT_BIND with unbind set, removing the agent and cancelling its queries at the end of its ledger turn. -/
  | agentUnbind (c : Cmd)
  /-- PLAN (R218): Query searching a motion plan for an agent, released in flow order after recheck. -/
  | plan (c : Cmd)
  /-- STOP_VERIFY (R236): Class-0 query reporting the ladder verification of an agent and optionally engaging its committed stop. -/
  | stopVerify (c : Cmd)
  /-- PLAN_CANCEL (R244): Command ending the named admitted query as CANCELLED before the release phase. -/
  | planCancel (c : Cmd)
  /-- SOLVE (R278): Query running a batch of kinematics or dynamics problems on the solver engine. -/
  | solve (c : Cmd)
  /-- SELECT (R297): Query running a sort, top-k, unique or merge over supplied elements. -/
  | select (c : Cmd)
  /-- SNAPSHOT (R86): LEDGER_CTL operation writing the state at the start of a named turn to host memory. -/
  | snapshot (c : Cmd)
  /-- REPLAY_PREPARE (R374): LEDGER_CTL operation loading a snapshot and entering replay. -/
  | replayPrepare (c : Cmd)
  /-- REPLAY_RUN (R87): LEDGER_CTL operation executing supplied recorded ledgers under virtual turn numbers. -/
  | replayRun (c : Cmd)
  /-- REPLAY_END (R374): LEDGER_CTL operation ending replay. -/
  | replayEnd (c : Cmd)
  /-- CALIB_KIN (R437): Command starting a kinematic calibration estimate that is reported or staged. -/
  | calibKin (c : Cmd)
  /-- CALIB_KIN_ABORT (R439): CALIB_KIN mode 2, aborting a running kinematic estimate with outcome 9. -/
  | calibKinAbort (c : Cmd)
  /-- CALIB_TIME (R444): Command starting a stream time-offset estimate, optionally applying it. -/
  | calibTime (c : Cmd)
  /-- CALIB_TIME_CLEAR (R444): CALIB_TIME mode 2, setting the stream offset to 0 and ending a running estimate. -/
  | calibTimeClear (c : Cmd)
  /-- CALIB_LANE_RUN (R445): CALIB_LANE mode 1, running spare-lane rotation on the named links. -/
  | calibLaneRun (c : Cmd)
  /-- CALIB_LANE_STOP (R445): CALIB_LANE mode 0, stopping rotation at the end of the step in progress. -/
  | calibLaneStop (c : Cmd)
  /-- CALIB_LANE_REPORT (R445): CALIB_LANE mode 2, returning the lane record without change. -/
  | calibLaneReport (c : Cmd)
  /-- POLDER_CREATE (R382): PF command creating a polder from the next turn. -/
  | polderCreate (c : Cmd)
  /-- POLDER_MODIFY (R385): PF command setting new weight, rate, slice and quotas of a polder from the next turn. -/
  | polderModify (c : Cmd)
  /-- POLDER_RESET (R387): Command resetting a polder: its queries cancelled, agents unbound and queue pairs disabled. -/
  | polderReset (c : Cmd)
  /-- POLDER_DESTROY (R389): PF command resetting a polder and removing it with its objects at the end of its ledger turn. -/
  | polderDestroy (c : Cmd)
  /-- TWIN_ATTACH (R500): PF command joining the package to its twin through check, snapshot, tail, join and agreement. -/
  | twinAttach (c : Cmd)
  /-- TWIN_DETACH (R501): PF command leaving the twin pair and going to DETACHED. -/
  | twinDetach (c : Cmd)
  /-- TWIN_CONFIG (R370): PF command setting witness, preferred role and mismatch limits of the pair. -/
  | twinConfig (c : Cmd)
  /-- FABRIC_JOIN (R515): PF command starting fabric discovery, optionally as coordinator. -/
  | fabricJoin (c : Cmd)
  /-- FABRIC_ASSIGN (R515): PF command on the coordinator assigning a fabric id to a seen serial. -/
  | fabricAssign (c : Cmd)
  /-- FABRIC_LEAVE (R515): PF command sending LEAVE and returning to UNJOINED. -/
  | fabricLeave (c : Cmd)
  /-- CFG_STAGE (R529): PF command verifying and staging a configuration bundle. -/
  | cfgStage (c : Cmd)
  /-- CFG_COMMIT (R530): PF command naming a commit turn for a staged bundle. -/
  | cfgCommit (c : Cmd)
  /-- DIE_READMIT (R504): PF command returning a READY fenced die to the tile map. -/
  | dieReadmit (c : Cmd)
  /-- HIF_SQ_TAIL (R352): Doorbell write of a new submission queue tail. -/
  | hifSqTail (p : Nat) (q : Nat) (v : Nat)
  /-- HIF_CQ_HEAD (R354): Doorbell write releasing completion queue entries. -/
  | hifCqHead (p : Nat) (q : Nat) (v : Nat)
  /-- QUEUE_PAIR_ENABLE (R351): Write setting HIF_Q_CFG_q.enable, resetting heads and locking the pair's configuration. -/
  | queuePairEnable (p : Nat) (q : Nat) (v : Nat)
  /-- QUEUE_PAIR_DISABLE (R357): Write clearing HIF_Q_CFG_q.enable, stopping fetch and starting the drain. -/
  | queuePairDisable (p : Nat) (q : Nat) (v : Nat)
  /-- QUEUE_PAIR_DRAINED (R357): Last outstanding reply of a draining pair written; the pair becomes disabled. -/
  | queuePairDrained (p : Nat) (q : Nat)
  /-- COMMAND_FETCH (R362): Completion of a command packet fetch, checked in order and placed in a ledger or refused. -/
  | commandFetch (p : Nat) (q : Nat) (t : Nat) (packet : Bytes) (block : Bytes)
  /-- STATUS_REPLY_WRITE (R364): A due status reply and its result are written once CQ and result ring have room. -/
  | statusReplyWrite (p : Nat) (q : Nat)
  /-- CQ_COAL_TIMEOUT (R359): Coalescing time expires after the first unsignalled reply and the CQ vector is signalled. -/
  | cqCoalTimeout (p : Nat) (q : Nat)
  /-- MSIX_UNMASK (R359): Unmasking a vector with its PBA bit set delivers the pending signal. -/
  | msixUnmask (fn : Nat) (vec : Nat)
  /-- HIF_DMA_ERROR (R357): PCIe error on a fetch or write stops the pair and discards its due replies. -/
  | hifDmaError (p : Nat) (q : Nat) (write : Bool)
  /-- FLR_VF (R386): Function-level reset of a VF, placed as an internal POLDER_RESET entry. -/
  | flrVf (p : Nat) (t : Nat)
  /-- FLR_PF (R350): Function-level reset of the PF disabling polder 0's queue pairs and withdrawing its interrupts. -/
  | flrPf
  /-- HOST_LINK_RESET (R554): PERST_N, hot reset or link down resets the host interface and disables every queue pair. -/
  | hostLinkReset
  /-- STREAM_FRAME_INGRESS (R127): Object-track or occupancy frame checked at ingress and entered in a ledger or dropped. -/
  | streamFrameIngress (port : Nat) (src : Nat) (t : Nat) (frame : Bytes)
  /-- AGENT_STATE_INGRESS (R150): AGENT_STATE frame checked against the agent's model and entered in a ledger or dropped. -/
  | agentStateIngress (port : Nat) (src : Nat) (t : Nat) (frame : Bytes)
  /-- REQUEST_INGRESS (R376): Field REQUEST frame checked and handled as a command of the agent's polder. -/
  | requestIngress (port : Nat) (src : Nat) (t : Nat) (frame : Bytes)
  /-- PTP_FRAME (R543): PTP frame received, disciplining TCLK by step before run and by slew after. -/
  | ptpFrame (port : Nat) (t : Nat) (announce : Bool) (offset : Option Int)
  /-- UNMATCHED_FRAME (R542): Field-port frame of another kind, or with a bad FCS, dropped and counted. -/
  | unmatchedFrame (port : Nat) (fcs : Bool)
  /-- PTP_ANNOUNCE_TIMEOUT (R543): Three Announce intervals without Announce move PTP to the backup port or lose the reference. -/
  | ptpAnnounceTimeout
  /-- PPS_IN_EDGE (R540): Rising PPS_IN edge disciplines TCLK when time_src is PPS_IN. -/
  | ppsInEdge (t : Nat)
  /-- HOLDOVER_EXPIRY (R48): Holdover longer than TRN_HOLD_MAX raises TIME_HOLDOVER. -/
  | holdoverExpiry
  /-- CLOCK_MONITOR_WINDOW (R40): End of each 1,000 µs TCLK window records the CCLK count and goes to safe state if out of range. -/
  | clockMonitorWindow (cclk : Nat) (ctclkOk : Bool) (tclkOk : Bool)
  /-- TRN_RUN (R49): Write of TRN_CTL.run starting turns at the first cutoff after the write, locking configuration. -/
  | trnRun (t : Nat)
  /-- TRN_TAI_SET (R47): Commit of the TRN_TAI pair before run, stepping TCLK time. -/
  | trnTaiSet (v : Nat)
  /-- LEDGER_CUTOFF (R65): At the cutoff the ledger builder forms internal entries and seals the next turn's ledger. -/
  | ledgerCutoff
  /-- STREAM_TIMEOUT (R67): A stream's timeout elapses at a cutoff, adding a TIMEOUT entry whose blind fill or stale actions follow. -/
  | streamTimeout (n : Nat)
  /-- TILE_MAP_CHANGE (R32): Tile map recomputed at the first boundary after a core or die change, restarting moved queries. -/
  | tileMapChange
  /-- TURN_BOUNDARY (R39): A turn ends and the next starts: versions form, the ledger takes effect, activation and berm work begin. -/
  | turnBoundary
  /-- PIN_HOLD_EXPIRY (R114): Deferral reaches pin_hold_max; queries pinned to the oldest version end TIME_LIMITED and the version retires. -/
  | pinHoldExpiry (map : Nat)
  /-- IMAGE_ACTIVATE (R342): ACTIVATE entry switches the lathe to the new image at the boundary, restarting queries if content differs. -/
  | imageActivate
  /-- CONFIG_ACTIVATE (R531): ACTIVATE entry of a commit turn applies or abandons the staged configuration bundle. -/
  | configActivate
  /-- RELEASE_PHASE (R240): Release phase rechecks and releases stops and ready plans in order and writes reservation footprints. -/
  | releasePhase
  /-- QUIET_TAIL_CHECK (R328): At the quiet tail the lathe checks plan, queues, tokens and barriers are idle. -/
  | quietTailCheck (die : Nat)
  /-- BERM_OVERRUN (R316): Berm operation still running at cycle B raises BERM_OVERRUN. -/
  | bermOverrun (die : Nat) (unit : Nat) (cyc : Nat)
  /-- RESULT_EGRESS (R18): Result frame leaves after the twin's digest is received and equal, within the egress window. -/
  | resultEgress
  /-- DEADLINE_EXPIRY (R69): A query reaching the end of its deadline turn without finishing ends TIME_LIMITED. -/
  | deadlineExpiry (q : Nat)
  /-- BUDGET_END (R68): A query's expansion or iteration count reaches its budget and it ends on budget. -/
  | budgetEnd (q : Nat)
  /-- PREDICTOR_PASS_START (R112): Predictor pass starts in a turn that is a multiple of pred_period, or is skipped. -/
  | predictorPassStart (map : Nat)
  /-- PREDICTOR_PASS_END (R215): Predictor pass ends in turn s + Lp and is applied at formation, or dropped. -/
  | predictorPassEnd (map : Nat)
  /-- BVH_BUILD_END (R102): BVH build of staged static changes ends and becomes ready for commit. -/
  | bvhBuildEnd (map : Nat)
  /-- SET_BUILD_END (R140): Lattice set swept-sphere table build ends and forms a set version. -/
  | setBuildEnd (set : Nat)
  /-- GOAL_SOLVE_END (R272): Stage 2 IK goal solve of a PLAN ends and the search starts. -/
  | goalSolveEnd (q : Nat)
  /-- SEARCH_STEP (R228): One search step: pop, generate, score, select, check and push successors. -/
  | searchStep (q : Nat)
  /-- CLOSING_STOP (R233): Closing stop built and checked from the end node, cutting the plan back until a rung passes. -/
  | closingStop (q : Nat)
  /-- STAGE_FINISH (R275): Stage 6 smoothing and torque check of a plan, cutting it back on failure. -/
  | stageFinish (q : Nat)
  /-- FOOTPRINT_COVER (R245): Stage 7 footprint and cover list of a plan formed. -/
  | footprintCover (q : Nat)
  /-- CALIB_ESTIMATE_END (R434): Calibration computation ends and its outcome entry is scheduled two ledgers later. -/
  | calibEstimateEnd (key : Nat)
  /-- CALIB_OUTCOME (R440): Internal CALIB outcome entry applies a staged model redefinition or time offset. -/
  | calibOutcome
  /-- CALIB_SPAN_EXPIRY (R437): CAL_SPAN turns pass without enough samples; the estimate ends with outcome 3. -/
  | calibSpanExpiry (key : Nat)
  /-- LANE_STEP (R446): Spare-lane rotation step measures one lane and moves the spare, retiring a lane that fails twice. -/
  | laneStep (link : Nat) (side : Nat) (width : Nat) (height : Nat)
  /-- REPLAY_TURN (R87): One supplied ledger is checked and executed per turn length during replay. -/
  | replayTurn
  /-- PLAN_SEAL (R309): Control-core write of LTH_PLAN_CTL.seal sealing the standby turn plan. -/
  | planSeal (die : Nat) (v : Nat)
  /-- BUNDLE_ISSUE (R314): The lathe issues a bundle once its start cycle is reached and unit queues have room. -/
  | bundleIssue (die : Nat) (cyc : Nat)
  /-- OPERATION_START (R315): A unit starts its head operation once its cycle, tokens, credits and window allow. -/
  | operationStart (die : Nat) (unit : Nat) (cyc : Nat) (ue : Option Nat) (bankCe : Option Nat) (bankUe : Option Nat) (desc : UnitDesc)
  /-- TOKEN_ARRIVAL (R320): A data or credit token is counted into a receiving unit's queue after its fixed delay. -/
  | tokenArrival (die : Nat) (unit : Nat) (cyc : Nat)
  /-- SWP_STAGE (R164): Sweep unit operation staging a window half from a stage descriptor. -/
  | swpStage (die : Nat) (core : Nat) (operand : Nat)
  /-- SWP_CHECK (R168): Sweep unit operation checking a batch of candidates against a staged half. -/
  | swpCheck (die : Nat) (core : Nat) (operand : Nat) (ecc : Option Nat)
  /-- SWP_INVAL (R183): Sweep unit operation marking a half not staged. -/
  | swpInval (die : Nat) (core : Nat) (operand : Nat)
  /-- TNS_LOAD (R203): Tensor unit operation loading weights into staging rows. -/
  | tnsLoad (die : Nat) (core : Nat) (operand : Nat)
  /-- TNS_TABLE (R203): Tensor unit operation loading an activation table. -/
  | tnsTable (die : Nat) (core : Nat) (operand : Nat)
  /-- TNS_LAYER (R198): Tensor unit operation running one network layer and writing its status record. -/
  | tnsLayer (die : Nat) (core : Nat) (operand : Nat)
  /-- SLV_BATCH (R282): Solver unit operation running a batch of problems. -/
  | slvBatch (die : Nat) (core : Nat) (operand : Nat)
  /-- SLV_ROWS (R267): Solver unit operation forming sphere rows and limit samples for joint-space candidates. -/
  | slvRows (die : Nat) (core : Nat) (operand : Nat) (desc : UnitDesc)
  /-- SEL_SORT (R288): Select unit operation sorting a row. -/
  | selSort (die : Nat) (core : Nat) (operand : Nat)
  /-- SEL_TOPK (R289): Select unit operation keeping the first k elements in order. -/
  | selTopk (die : Nat) (core : Nat) (operand : Nat)
  /-- SEL_UNIQ (R288): Select unit operation emitting distinct keys with counts. -/
  | selUniq (die : Nat) (core : Nat) (operand : Nat)
  /-- SEL_MERGE (R290): Select unit operation merging sorted lists, ending on unsorted input. -/
  | selMerge (die : Nat) (core : Nat) (operand : Nat)
  /-- FRN_OPEN (R253): Frontier unit operation opening a queue. -/
  | frnOpen (die : Nat) (core : Nat) (operand : Nat)
  /-- FRN_PUSHB (R253): Frontier unit operation pushing a batch of entries. -/
  | frnPushb (die : Nat) (core : Nat) (operand : Nat) (desc : UnitDesc)
  /-- FRN_POPB (R253): Frontier unit operation popping pop_b entries in key order. -/
  | frnPopb (die : Nat) (core : Nat) (operand : Nat) (desc : UnitDesc)
  /-- FRN_CLOSE (R253): Frontier unit operation closing a queue and discarding its entries. -/
  | frnClose (die : Nat) (core : Nat) (operand : Nat)
  /-- FRONTIER_REFILL (R222): Queue with fewer than 64 entries is refilled from its tile store. -/
  | frontierRefill (die : Nat) (core : Nat) (queue : Nat)
  /-- DMA_IN (R330): DMA operation from bulk memory to a bank. -/
  | dmaIn (die : Nat) (operand : Nat)
  /-- DMA_OUT (R330): DMA operation from a bank to bulk memory. -/
  | dmaOut (die : Nat) (operand : Nat)
  /-- DMA_CTRL (R330): DMA operation from control SRAM to a bank. -/
  | dmaCtrl (die : Nat) (operand : Nat)
  /-- DMA_LINK (R330): DMA operation from a bank to a bank of another die. -/
  | dmaLink (die : Nat) (operand : Nat)
  /-- BAR_ARM (R324): Lathe operation arming a barrier context with its masks. -/
  | barArm (die : Nat) (operand : Nat) (cyc : Nat)
  /-- ROUTE (R323): Common operation setting a unit's route register. -/
  | route (die : Nat) (unit : Nat) (operand : Nat)
  /-- SIGNAL (R323): Common operation sending a data token to each route destination after earlier operations complete. -/
  | signal (die : Nat) (unit : Nat) (operand : Nat) (cyc : Nat)
  /-- GRANT (R323): Common operation sending credit tokens to a destination. -/
  | grant (die : Nat) (unit : Nat) (operand : Nat) (cyc : Nat)
  /-- BAR_WAIT (R325): Common operation arriving at a barrier context. -/
  | barWait (die : Nat) (unit : Nat) (operand : Nat) (cyc : Nat)
  /-- UNIT_NOP (R323): Common NOP operation consuming its tokens. -/
  | unitNop (die : Nat) (unit : Nat) (operand : Nat)
  /-- BARRIER_RELEASE (R326): All participants of an armed barrier have arrived and are released at the computed cycle. -/
  | barrierRelease (die : Nat) (ctx : Nat) (cyc : Nat)
  /-- BANK_OWNER_STAGE (R333): Control-core write of BNK_OWNER_b.next staging an owner taken at the next idle boundary. -/
  | bankOwnerStage (die : Nat) (bank : Nat) (v : Nat)
  /-- BANK_TEST_REGION (R339): Background test of a bank region runs save, March C− and restore after its period. -/
  | bankTestRegion (die : Nat) (bank : Nat) (fail : Bool)
  /-- MCOPY (R414): Resumable control-core block copy. -/
  | mcopy (die : Nat) (core : Nat) (gd : Nat) (gs : Nat) (gn : Nat) (stop : Option Nat) (ce : Nat) (ue : Option Nat)
  /-- MFILL (R414): Resumable control-core block fill. -/
  | mfill (die : Nat) (core : Nat) (gd : Nat) (gv : Nat) (gn : Nat) (stop : Option Nat) (ce : Nat) (ue : Option Nat)
  /-- QDRAIN (R414): Resumable drain of a hardware queue into memory. -/
  | qdrain (die : Nat) (core : Nat) (gd : Nat) (gq : Nat) (gn : Nat) (stop : Option Nat) (ce : Nat) (ue : Option Nat)
  /-- CRCB_32 (R414): Resumable CRC-32C over a block. -/
  | crcb32 (die : Nat) (core : Nat) (gc : Nat) (gs : Nat) (gn : Nat) (stop : Option Nat) (ce : Nat) (ue : Option Nat)
  /-- CRCB_64 (R414): Resumable CRC-64 over a block. -/
  | crcb64 (die : Nat) (core : Nat) (gc : Nat) (gs : Nat) (gn : Nat) (stop : Option Nat) (ce : Nat) (ue : Option Nat)
  /-- INTERRUPT_TAKE (R415): A control core takes an interrupt or NMI at the next element boundary. -/
  | interruptTake (die : Nat) (core : Nat) (nmi : Bool) (latency : Nat)
  /-- TSPAWN (R419): Creates a thread in the lowest free slot or fails with THREAD_LIMIT. -/
  | tspawn (die : Nat) (core : Nat) (rd : Nat) (level : Nat) (entry : Nat) (arg : Nat) (t : Nat)
  /-- TWAIT (R423): Thread waits on an event-flag mask, optionally timed. -/
  | twait (die : Nat) (core : Nat) (rd : Nat) (mask : Nat) (modeAnd : Bool) (expiry : Option Nat)
  /-- TDELAY (R425): Thread sleeps until an expiry in the delay list. -/
  | tdelay (die : Nat) (core : Nat) (expiry : Nat)
  /-- TYIELD (R418): Running thread returns to READY. -/
  | tyield (die : Nat) (core : Nat) (t : Nat)
  /-- TEXIT (R418): Thread ends, freeing its slot and skipping outstanding flow tickets. -/
  | texit (die : Nat) (core : Nat)
  /-- TSIGNAL (R423): Sets an event flag of another thread, possibly waking and preempting. -/
  | tsignal (die : Nat) (core : Nat) (slot : Nat) (flag : Nat) (t : Nat)
  /-- HARDWARE_EVENT_FLAG (R423): A bound hardware event sets a thread's event flag. -/
  | hardwareEventFlag (die : Nat) (slot : Nat) (flag : Nat) (t : Nat) (queued : Option (Nat × Bytes))
  /-- CORE_TAKE (R420): A control core asking for work takes the chosen READY thread. -/
  | coreTake (die : Nat) (core : Nat) (t : Nat)
  /-- DELAY_EXPIRY (R425): At a µs tick, expired delay-list entries fire and their threads become READY. -/
  | delayExpiry (die : Nat) (tick : Nat)
  /-- FLOW_ENTER (R426): Takes the next ticket of an ordered flow, or fails FLOW_FULL. -/
  | flowEnter (die : Nat) (core : Nat) (rd : Nat) (flow : Nat)
  /-- FLOW_DONE (R426): Hands an item back for a ticket, releasing items in ticket order. -/
  | flowDone (die : Nat) (core : Nat) (flow : Nat) (ticket : Nat) (item : Nat)
  /-- FLOW_SKIP (R426): Hands back a ticket without an item. -/
  | flowSkip (die : Nat) (core : Nat) (flow : Nat) (ticket : Nat)
  /-- STWT (R430): Write-through store completing when the home SRAM holds the data. -/
  | stwt (die : Nat) (core : Nat) (addr : Nat) (v : Nat)
  /-- COHERENCE_REQUEST (R427): Cache request for a line shared or owned, answered by the home directory. -/
  | coherenceRequest (die : Nat) (core : Nat) (addr : Nat) (own : Bool) (victim : Option Nat)
  /-- SNOOP (R427): Directory snoop to a holder to invalidate or fetch a modified line. -/
  | snoop (addr : Nat)
  /-- EVICT_CLEAN (R428): Eviction notice without data received by the home. -/
  | evictClean (die : Nat) (core : Nat) (addr : Nat)
  /-- EVICT_DIRTY (R428): Eviction notice with modified data received by the home. -/
  | evictDirty (die : Nat) (core : Nat) (addr : Nat)
  /-- EVICT_PENDING (R429): Snoop answer from a cache whose eviction of the line is in flight. -/
  | evictPending (die : Nat) (core : Nat) (addr : Nat)
  /-- EVICT_ACK (R428): Home acknowledgement freeing a write-back buffer. -/
  | evictAck (die : Nat) (core : Nat) (addr : Nat)
  /-- WARDEN_MESSAGE (R457): Package warden classifies a coded fault message and applies reactions and records. -/
  | wardenMessage (m : Option WMsg) (t : Nat)
  /-- QUIET_EXPIRY (R457): Quiet period Q passes without message: instance returns to QUIET or LATCHED. -/
  | quietExpiry (source : Nat) (die : Nat) (core : Nat) (t : Nat)
  /-- WDN_HEARTBEAT_MISS (R458): Two missed warden heartbeats raise WDN_PATH. -/
  | wdnHeartbeatMiss (die : Nat) (from_ : Nat) (t : Nat)
  /-- WDN_CFG_CHECK (R456): Millisecond recomputation of the safety configuration CRC, raising WDN_CFG on difference. -/
  | wdnCfgCheck (t : Nat)
  /-- WDN_LOCK (R456): Write of WDN_CTL.lock locking the safety configuration and taking its CRC. -/
  | wdnLock
  /-- WDN_ACK (R466): Write closing a source's record, reopening it if the condition is present. -/
  | wdnAck (v : Nat) (t : Nat)
  /-- WDN_ACK_ALL (R466): WDN_ACK with all set closing every open record. -/
  | wdnAckAll (t : Nat)
  /-- WDN_UNLATCH (R457): WDN_ACK with unlatch moving LATCHED instances of a source to QUIET. -/
  | wdnUnlatch (source : Nat) (t : Nat)
  /-- WDN_INJECT (R468): PF write placing a TEST message for a source. -/
  | wdnInject (v : Nat) (t : Nat)
  /-- WDN_SAFE_CLR (R476): PF write requesting exit from the safe state. -/
  | wdnSafeClr
  /-- SAFE_STATE_EXIT (R476): Unlatched safe state ends at the first boundary with no S held and exit permitted. -/
  | safeStateExit
  /-- BLOCK_RESET (R462): Block reset of an engine, port or link at the next turn boundary. -/
  | blockReset (die : Nat) (origin : Nat)
  /-- SAFE_HEARTBEAT (R475): Every WDN_HB turns a heartbeat SAFE_STATUS notice goes to every registered VLAN. -/
  | safeHeartbeat (turn : Nat)
  /-- REC_MSG0_READ (R465): Read of WDN_REC_MSG0 marking the selected record read. -/
  | recMsg0Read
  /-- TWIN_LINK_FRAME (R484): Twin link frame accepted, or retransmitted go-back-N on a bad CRC. -/
  | twinLinkFrame (gen : Nat) (seq : Nat) (crcOk : Bool) (msg : TwinMsg) (t : Nat)
  /-- TWIN_IDLE_TIMER (R484): An idle frame is sent after 0.25 µs without another frame. -/
  | twinIdleTimer
  /-- TWIN_LINK_LOST (R496): No valid frame for 2 µs: with DOWN high, the twin requests the witness and arbitrates. -/
  | twinLinkLost (t : Nat)
  /-- TWIN_DOWN_IN (R494): TWIN_DOWN_IN_N read low: a follow promotes, a lead goes SOLO. -/
  | twinDownIn (low : Bool) (t : Nat)
  /-- HANDOVER (R494): HANDOVER message from the lead promotes the follow. -/
  | handover
  /-- TWIN_LEAVE (R487): LEAVE message from the follow takes the lead to SOLO. -/
  | twinLeave
  /-- TWIN_LEDGER_ENTRY (R488): Ledger entry streamed from the lead to the follow. -/
  | twinLedgerEntry (turn : Nat) (e : Entry)
  /-- TWIN_SEAL (R488): Lead seal received and its digest checked by the follow. -/
  | twinSeal (turn : Nat) (digest : Nat)
  /-- TWIN_DIGEST_LIST (R492): Partner's digest list compared, releasing equal results or marking mismatches. -/
  | twinDigestList (turn : Nat) (items : List (Nat × Nat × Nat))
  /-- DIGEST_LATE (R493): Partner's digest list absent at end of egress window: frames held. -/
  | digestLate (turn : Nat)
  /-- HELD_FRAME_EXPIRY (R493): Frames held 2 turns past their release turn are discarded with TWIN_MISMATCH. -/
  | heldFrameExpiry (turn : Nat)
  /-- ARBITRATION_TIMEOUT (R496): No witness grant within 2 turns: the package goes QUARANTINED. -/
  | arbitrationTimeout
  /-- TWN_WIT_ANS (R496): Host witness writes a grant or denial for the pending generation. -/
  | twnWitAns (v : Nat) (t : Nat)
  /-- TL_RECORD_ENTRY (R491): Internal entry carrying the lead's TIME_LIMITED partial plan record, released in both twins. -/
  | tlRecordEntry (payload : Bytes)
  /-- ATTACH_JOIN_TURN (R500): At the join turn the joiner executes the lead's ledgers in full. -/
  | attachJoinTurn
  /-- ATTACH_STATE_DIGEST (R500): State digests exchanged at the end of the join turn complete or fail the attach. -/
  | attachStateDigest (theirs : Nat) (t : Nat)
  /-- DIE_MESSAGES_RESUME (R504): A fenced die's messages resume and BIST starts on it. -/
  | dieMessagesResume (die : Nat)
  /-- DIE_BIST_END (R504): BIST of a fenced die ends, failing to FENCED or passing to COPY. -/
  | dieBistEnd (die : Nat) (ok : Bool) (coresFail : Nat)
  /-- DIE_COPY_CURRENT (R504): World-store copy to a readmitted die becomes current: state READY. -/
  | dieCopyCurrent (die : Nat)
  /-- HELLO (R514): Fabric HELLO frame received, recorded in the seen table. -/
  | hello (f : FabFrame) (t : Nat)
  /-- HELLO_TIMER (R514): Periodic sending of HELLO on every active port. -/
  | helloTimer
  /-- ASSIGN (R515): ASSIGN frame for the package's serial takes the fabric id. -/
  | assign (f : FabFrame) (t : Nat)
  /-- ASSIGN_TIMER (R515): Coordinator resends ASSIGN every 1 ms until the id shows. -/
  | assignTimer
  /-- DATA (R511): Sequenced fabric DATA frame accepted in order or dropped. -/
  | data (f : FabFrame) (t : Nat)
  /-- ACK (R511): Fabric ACK frame advancing a sender's window. -/
  | ack (f : FabFrame) (t : Nat)
  /-- DATA_RESEND_TIMEOUT (R511): No acknowledgement for rto_us resends unacknowledged DATA frames. -/
  | dataResendTimeout (peer : Nat) (chan : Nat)
  /-- HEARTBEAT (R517): Fabric heartbeat received and its configuration compared. -/
  | heartbeat (f : FabFrame) (t : Nat)
  /-- FABRIC_HEARTBEAT_SEND (R516): At the end of each turn multiple of 1,000 a heartbeat is sent on every port. -/
  | fabricHeartbeatSend
  /-- LEAVE (R510): Fabric LEAVE frame received from a departing package. -/
  | leave (f : FabFrame)
  /-- PEER_LOST (R516): No frame from a peer for 3,000 turns: peer lost, mirrors blind-filled. -/
  | peerLost (peer : Nat)
  /-- POWER_ON (R554): VDD_IO rising resets everything; telemetry reads its SMBus address. -/
  | powerOn
  /-- RESET_N_LOW (R539): RESET_N or PWR_GOOD low drives outputs low and triggers a package reset. -/
  | resetNLow (us : Nat)
  /-- PACKAGE_RESET (R554): Reset of every die and port, clearing run and locks. -/
  | packageReset
  /-- BOOT (R552): Release of RESET_N starts the boot sequence through BIST, training and image load. -/
  | boot (cfgOk : Bool) (imgOk : Bool)
  /-- BOOT_READY (R552): Boot completes: tile map set, FAULT_N released. -/
  | bootReady (failDies : Nat) (failCores : List (Nat × Nat))
  /-- BOOT_FAILURE (R553): A boot step fails and boot stops or leaves a die or core out. -/
  | bootFailure (stage : Nat) (dies : Nat) (cores : List (Nat × Nat))
  /-- THERMAL_TRIP (R548): Junction above 115 °C stops PLLs and latches THERMTRIP_N low. -/
  | thermalTrip (die : Nat) (temp : Int)
  /-- TAP_RESET (R554): TRST_N or five TMS-high cycles reset the TAP. -/
  | tapReset
  /-- BYPASS (R556): TAP BYPASS instruction. -/
  | bypass (tdi : Nat) (bits : Nat)
  /-- IDCODE (R556): TAP instruction reading the identification code. -/
  | idcode
  /-- SAMPLE_PRELOAD (R556): TAP SAMPLE/PRELOAD instruction. -/
  | samplePreload (pins : Nat) (tdi : Nat) (bits : Nat)
  /-- EXTEST (R556): TAP EXTEST instruction driving the boundary register. -/
  | extest (pins : Nat) (tdi : Nat) (bits : Nat)
  /-- CLAMP (R556): TAP CLAMP instruction. -/
  | clamp
  /-- HIGHZ (R556): TAP HIGHZ instruction. -/
  | highz
  /-- SPI_ACCESS (R551): TAP instruction writing the boot flash while RESET_N is low. -/
  | spiAccess (addr : Nat) (data : Bytes)
  /-- SMB_ID (R555): SMBus read of the part code. -/
  | smbId
  /-- SMB_STEPPING (R555): SMBus read of the stepping. -/
  | smbStepping
  /-- SMB_STAGE (R555): SMBus read of the boot stage. -/
  | smbStage
  /-- SMB_STATUS (R555): SMBus read of safe, fault, trip, ready and role status. -/
  | smbStatus
  /-- SMB_DIE_TEMP (R555): SMBus read of one die's temperature. -/
  | smbDieTemp (die : Nat)
  /-- SMB_HOTTEST_TEMP (R555): SMBus read of the hottest die's temperature. -/
  | smbHottestTemp
  /-- SMB_RAIL_VOLTAGE (R555): SMBus read of one rail voltage. -/
  | smbRailVoltage (rail : Nat)
  /-- SMB_INPUT_POWER (R555): SMBus read of package input power. -/
  | smbInputPower
  /-- SMB_SERIAL (R555): SMBus block read of the package serial. -/
  | smbSerial
  /-- SMB_SAFE_CNT (R555): SMBus block read of WDN_SAFE_CNT. -/
  | smbSafeCnt
  /-- SMB_WRITE (R555): SMBus write command, not acknowledged. -/
  | smbWrite (cmd : Nat) (data : Bytes)
  /-- HELP (R564): Monitor command listing the commands of the current level. -/
  | help
  /-- VER (R564): Monitor command printing part, stepping and versions. -/
  | ver
  /-- MON_STAGE (R564): Monitor STAGE command printing the boot stage. -/
  | monStage
  /-- STAT (R564): Monitor command printing configuration, role, turn and safe state. -/
  | stat
  /-- TEMP (R564): Monitor command printing die temperatures. -/
  | temp
  /-- RD (R565): Monitor command reading registers without side effect. -/
  | rd (addr : Nat) (n : Nat)
  /-- MON_WDN (R564): Monitor WDN command listing open warden records. -/
  | monWdn
  /-- RING (R565): Monitor command reading warden ring entries in quiet tails. -/
  | ring (n : Nat)
  /-- UNLOCK (R563): Monitor command printing a nonce for the challenge-response. -/
  | unlock (t : Nat)
  /-- RESP (R563): Monitor signature line; after line 5 the signature is checked to unlock. -/
  | resp (idx : Nat) (data : Bytes) (t : Nat)
  /-- LOCK (R562): Monitor command returning to level READ. -/
  | lock
  /-- WR (R566): Unlocked monitor command writing a register as the PF. -/
  | wr (addr : Nat) (v : Nat) (t : Nat)
  /-- MON_ACK (R566): Unlocked monitor ACK command acting as a WDN_ACK write. -/
  | monAck (source : Option Nat) (unlatch : Bool) (t : Nat)
  /-- MON_LONG_LINE (R559): Input line above 80 characters discarded with ERR LONG. -/
  | monLongLine
  /-- MON_INACTIVITY (R562): 15 minutes without input return the monitor to READ. -/
  | monInactivity
  /-- MON_LOCKOUT_EXPIRY (R563): The 10-minute lockout after three failed responses ends. -/
  | monLockoutExpiry
  /-- REG_PAIR_LOW_READ (R12): Read of a pair's low word latching the high word. -/
  | regPairLowRead (who : Who) (addr : Nat)
  /-- REG_PAIR_LOW_WRITE (R12): Write of a pair's low word staging it. -/
  | regPairLowWrite (who : Who) (addr : Nat) (v : Nat)
  /-- REG_PAIR_HIGH_WRITE (R12): Write of a pair's high word committing both words. -/
  | regPairHighWrite (who : Who) (addr : Nat) (v : Nat) (t : Nat)
  /-- RC_READ (R9): Read of a read-clear register returning and clearing its value. -/
  | rcRead (who : Who) (addr : Nat)
  /-- W1C_WRITE (R9): Write of 1 clearing sticky bits. -/
  | w1cWrite (who : Who) (addr : Nat) (v : Nat)
  /-- COUNTER_CLEAR (R184): Write of cnt_clear clearing every counter of an engine or block. -/
  | counterClear (who : Who) (addr : Nat)
  /-- REGISTER_WRITE (R11): Write to any register without a row of its own, ignored and counted on locked fields. -/
  | registerWrite (who : Who) (addr : Nat) (v : Nat) (t : Nat)
  /-- LOAD_IMAGE_END (R340): Verification and copy of a loaded image end; standby_ready sets and the LOAD_IMAGE reply becomes due. -/
  | loadImageEnd
  /-- CFG_STAGE_END (R529): Verification of a staged configuration bundle ends; the bundle shows in FAB_STAGED_GEN and the acknowledging reply becomes due. -/
  | cfgStageEnd
  /-- SNAPSHOT_END (R86): The snapshot of turn s has been written to host memory and LEDGER_CTL SNAPSHOT completes with its size. -/
  | snapshotEnd
  /-- FIELD_PORT_LINK (R472): A field port loses or regains its link, which updates FLD_PORT_p.link_up and FLD_LINK and decides whether frames for that port are sent or discarded. -/
  | fieldPortLink (port : Nat) (up : Bool)
  /-- FABRIC_PORT_LINK (R513): A fabric port's link goes up or down, which changes the active and common ports and resends unacknowledged frames on the new port choice. -/
  | fabricPortLink (port : Nat) (up : Bool)
  /-- PCIE_LINK_UP (R347): The PCIe link trains back into L0 after a host-link reset or link down, setting HIF_STAT link fields. -/
  | pcieLinkUp (speed : Nat) (width : Nat) (vfs : Nat)
  /-- PWR_GOOD_RISE (R555): PWR_GOOD goes high, and the telemetry controller reads the boot configuration sector and takes its SMBus address, answering from 5 ms later. -/
  | pwrGoodRise
  /-- TWIN_DOWN_IN_RELEASE (R485): TWIN_DOWN_IN_N returns high, which clears TWN_STAT.down_in and deasserts the live TWIN_DOWN_SEEN condition. -/
  | twinDownInRelease
  /-- POWER_LOSS (R548): VDD_IO is removed: the outputs fall, the THERMTRIP_N latch and the SMBus address are released, and the warden ring is lost. -/
  | powerLoss
  deriving DecidableEq, Repr, Inhabited

end Sys2Proof
end

