-- ==== Sys2Proof/Decode.lean ====
section
/-! DEFINITION. The commands that words spell. The opcode table gives no row bits of its own: a command of the part is an event at its boundary or inside it,
and the packets, frames and register writes that carry commands are read by the meanings themselves (COMMAND_FETCH, the ingress rows, the register rows). -/
namespace Sys2Proof

/-- The command that a word spells by the table's bits: the table gives none. Log entry 10 DESIGN CHOICE. -/
def decodeTableWord (_nbits _w : Nat) : Option Instr := none

end Sys2Proof
end

