-- ==== Sys2Proof/Config.lean ====
section
/-! DEFINITION. What an implementation fixes, and the free values: constants without a body, so that a claim holds
whatever they are. -/
namespace Sys2Proof.Config

/-- A value the spec leaves open (log entry 2): the step hands it the free-value counter of State. -/
opaque freeNat : Nat → Nat
/-- The major version of the firmware that runs (R305, R340, R500): fixed by the implementation. -/
opaque fwMajor : Nat
/-- The root-table address of a version of a map (kind 0), model (1) or set (2) in the world store: the spec fixes no layout of the
store (R500). -/
opaque rootAddr : Nat → Nat → Nat → Nat
/-- The bulk-memory address that the firmware gives to what a version of a map writes anew: of map, version, kind (1 tile node, 2 brick, 3 BVH node 0,
4 primitive record 0, 5 object record 0) and number (R105, R157): the spec fixes no layout of the store. Log entry 101 DESIGN CHOICE. -/
opaque storeAddr : Nat → Nat → Nat → Nat → Nat
/-- The verification routine accepts the signature at the end of an image (R305, R340, R550): the keys are not in the spec. Log entry 29 DESIGN CHOICE. -/
opaque imageSigned : List (BitVec 8) → Bool
/-- What the boot configuration sector of the flash says (R549, R555; the spec gives no layout of it), by question: 0 whether its CRC-32C passes
(1), 1 the config bit, 2 the SMBus address, 3 the baud code. Log entry 29 DESIGN CHOICE. -/
opaque bootSector : Nat → List (BitVec 8) → Nat
/-- Phiunal's manufacturer code in IDCODE (R556): not in the spec. -/
opaque mfrCode : Nat
/-- The window that the schedule of an image chooses for candidate `n` of a batch (R157: the producer of the image chooses it, images with equal
content_id alike): of content_id, the purpose (0 search, 1 stop), the numbers that describe the staging and the batch, and `n`; the answer is g, origin x, y, z,
cells x, y, z, sigma_w, fine_max, geo_max. Log entry 71 DESIGN CHOICE. -/
opaque window : Nat → Nat → List Int → Nat → List Int

/-- Cycles that an operation loses at a port or in a bank, of the data that fixes its timing (R73, R179, R180, R204, R277, R292, R336): the spec says what loses them
and not in which order the units ask. Log entry 105 DESIGN CHOICE. -/
opaque portLoss {α : Type} : α → Nat
/-- What a lane of the sweep engine loses on candidate `n` of a check, of the check's data (R179, R180): tests issued past the first hit, cycles refused, cycles
waiting. Log entry 105 DESIGN CHOICE. -/
opaque laneLoss {α : Type} : α → Nat → Nat × Nat × Nat
/-- Whether PPS_IN counts as lost after so many ns without an edge (R48 names no time). Log entry 96 DESIGN CHOICE. -/
opaque ppsLoss : Nat → Bool

/-- The record count in the header of a frame that the part sends, by type: R125 and R249 give the field and not its value there. Log entry 88 DESIGN CHOICE. -/
opaque frameRecords : Nat → Nat

/-- Whether a count of bytes that is no whole number of KiB shows as the next KiB: R129 and R375 give the unit and no rounding. Log entry 91 DESIGN CHOICE. -/
opaque kibUp : Nat → Bool

/-- The bytes of the boot ROM (R411): not in the spec. -/
opaque bootRom : Nat → BitVec 8
/-- The monitor accepts a response to its challenge (R563): of the nonce, the serial and the 96 bytes; the keys are not in the spec. -/
opaque unlockOk : Nat → Nat → List (BitVec 8) → Bool

end Sys2Proof.Config
end

