-- ==== Sys2Proof/Machine/Bits.lean ====
section
/-! DEFINITION. Bit fields, byte order (R7: little-endian), sign extension, the check codes (CRC-32C, the CRC-64 of R66,
SHA-256) and the wide accumulators of R76 to R78. -/
namespace Sys2Proof.Machine

/-- Bits [hi:lo] of `v`. -/
def bits (v hi lo : Nat) : Nat := (v / 2 ^ lo) % 2 ^ (hi + 1 - lo)
/-- Bit `i` of `v`. -/
def bitAt (v i : Nat) : Bool := (v / 2 ^ i) % 2 == 1
/-- `b` as 0 or 1. -/
def b2n (b : Bool) : Nat := if b then 1 else 0

/-- The little-endian number that a byte list spells (R7). -/
def leNat : Bytes → Nat
  | [] => 0
  | b :: bs => b.toNat + 256 * leNat bs
/-- The `n` little-endian bytes of `v` (R7). -/
def leBytes : Nat → Nat → Bytes
  | 0, _ => []
  | n + 1, v => BitVec.ofNat 8 v :: leBytes n (v / 256)
/-- `n` bytes of `bs` from offset `o`. -/
def slice (bs : Bytes) (o n : Nat) : Bytes := (bs.drop o).take n
/-- The little-endian field of `n` bytes at offset `o`; bytes past the end count as 0. -/
def fld (bs : Bytes) (o n : Nat) : Nat := leNat (slice bs o n)
/-- Every byte of `bs` is 0. -/
def allZero (bs : Bytes) : Bool := bs.all (· == 0)
/-- `n` zero bytes. -/
def zeros (n : Nat) : Bytes := List.replicate n 0
/-- `bs` cut or zero-padded to `n` bytes. -/
def fit (n : Nat) (bs : Bytes) : Bytes := bs.take n ++ zeros (n - bs.length)
/-- `bs` padded with zero bytes to a multiple of `n`. -/
def padTo (n : Nat) (bs : Bytes) : Bytes := bs ++ zeros ((n - bs.length % n) % n)

/-- The two's-complement value of the low `w` bits of `v`. -/
def sx (w v : Nat) : Int :=
  let u := v % 2 ^ w
  if 2 * u < 2 ^ w then (u : Int) else (u : Int) - (2 ^ w : Nat)
/-- The `w`-bit two's-complement pattern of `x`. -/
def tc (w : Nat) (x : Int) : Nat := (x % ((2 ^ w : Nat) : Int)).toNat
/-- Signed little-endian field of `n` bytes at `o`. -/
def sfld (bs : Bytes) (o n : Nat) : Int := sx (8 * n) (fld bs o n)
/-- The little-endian bytes of a signed number. -/
def sbytes (n : Nat) (x : Int) : Bytes := leBytes n (tc (8 * n) x)

/-- `x` held to the signed range of `w` bits. -/
def satS (w : Nat) (x : Int) : Int :=
  if x < -((2 ^ (w - 1) : Nat) : Int) then -((2 ^ (w - 1) : Nat) : Int)
  else if x ≥ ((2 ^ (w - 1) : Nat) : Int) then ((2 ^ (w - 1) : Nat) : Int) - 1 else x
/-- `x` held to 0 to `m`. -/
def satU (m : Nat) (x : Int) : Nat := min m x.toNat
/-- A 32-bit counter that stays at its largest value. -/
def satInc (v n : Nat) : Nat := min 0xffffffff (v + n)
/-- Quotient rounded to the nearest, halves to even; `d` positive. -/
def rneDiv (x : Int) (d : Nat) : Int :=
  let q := x / (d : Int)
  let r := x % (d : Int)
  if 2 * r < d then q else if 2 * r > d then q + 1 else if q % 2 = 0 then q else q + 1
/-- Arithmetic shift right by `n` with rounding to the nearest, halves to even. -/
def rneShr (x : Int) (n : Nat) : Int := rneDiv x (2 ^ n)
/-- Arithmetic shift right: the floor of x / 2^n. -/
def floorShr (x : Int) (n : Nat) : Int := x / ((2 ^ n : Nat) : Int)
/-- The largest number whose square is at most `n`, found bit by bit from bit `k` down. -/
def isqrtFrom : Nat → Nat → Nat → Nat
  | 0, _, acc => acc
  | k + 1, n, acc => let c := acc + 2 ^ k; isqrtFrom k n (if c * c ≤ n then c else acc)
/-- Integer square root, rounded down, of a number below 2^128. -/
def isqrt (n : Nat) : Nat := isqrtFrom 64 n 0

/-! Check codes. -/
/-- One bit of CRC-32C (Castagnoli, reflected). -/
def crc32cBit (c : Nat) : Nat := if c % 2 = 1 then (c / 2) ^^^ 0x82F63B78 else c / 2
/-- One byte of CRC-32C. -/
def crc32cByte (c : Nat) (b : Byte) : Nat := Nat.repeat crc32cBit 8 (c ^^^ b.toNat)
/-- CRC-32C of a byte sequence. -/
def crc32c (bs : Bytes) : Nat := (bs.foldl crc32cByte 0xffffffff) ^^^ 0xffffffff
/-- One bit of the CRC-64 of R66: polynomial 0x42F0_E1EB_A9EA_3693, bits not reflected. -/
def crc64Bit (c : Nat) : Nat :=
  if bitAt c 63 then ((2 * c) % 2 ^ 64) ^^^ 0x42F0E1EBA9EA3693 else 2 * c
/-- One byte of the CRC-64 of R66. -/
def crc64Byte (c : Nat) (b : Byte) : Nat := Nat.repeat crc64Bit 8 (c ^^^ (b.toNat * 2 ^ 56))
/-- CRC-64 of R66 over `bs`, continuing from `init`; no final inversion. -/
def crc64 (init : Nat) (bs : Bytes) : Nat := bs.foldl crc64Byte init

/-- The round constants of SHA-256. -/
def shaK : List Nat :=
  [0x428a2f98, 0x71374491, 0xb5c0fbcf, 0xe9b5dba5, 0x3956c25b, 0x59f111f1, 0x923f82a4, 0xab1c5ed5] ++
  [0xd807aa98, 0x12835b01, 0x243185be, 0x550c7dc3, 0x72be5d74, 0x80deb1fe, 0x9bdc06a7, 0xc19bf174] ++
  [0xe49b69c1, 0xefbe4786, 0x0fc19dc6, 0x240ca1cc, 0x2de92c6f, 0x4a7484aa, 0x5cb0a9dc, 0x76f988da] ++
  [0x983e5152, 0xa831c66d, 0xb00327c8, 0xbf597fc7, 0xc6e00bf3, 0xd5a79147, 0x06ca6351, 0x14292967] ++
  [0x27b70a85, 0x2e1b2138, 0x4d2c6dfc, 0x53380d13, 0x650a7354, 0x766a0abb, 0x81c2c92e, 0x92722c85] ++
  [0xa2bfe8a1, 0xa81a664b, 0xc24b8b70, 0xc76c51a3, 0xd192e819, 0xd6990624, 0xf40e3585, 0x106aa070] ++
  [0x19a4c116, 0x1e376c08, 0x2748774c, 0x34b0bcb5, 0x391c0cb3, 0x4ed8aa4a, 0x5b9cca4f, 0x682e6ff3] ++
  [0x748f82ee, 0x78a5636f, 0x84c87814, 0x8cc70208, 0x90befffa, 0xa4506ceb, 0xbef9a3f7, 0xc67178f2]
/-- The initial value of SHA-256. -/
def shaH : List Nat := [0x6a09e667, 0xbb67ae85, 0x3c6ef372, 0xa54ff53a, 0x510e527f, 0x9b05688c, 0x1f83d9ab, 0x5be0cd19]
/-- Rotation right of a 32-bit number. -/
def rotr (n x : Nat) : Nat := (x / 2 ^ n) ||| ((x * 2 ^ (32 - n)) % 2 ^ 32)
/-- Big-endian number of a byte list. -/
def beNat (bs : Bytes) : Nat := bs.foldl (fun a b => a * 256 + b.toNat) 0
/-- The `n` big-endian bytes of `v`. -/
def beBytes (n v : Nat) : Bytes := (leBytes n v).reverse
/-- One more word of the message schedule; `w` holds the words so far, newest first. -/
def shaSched (w : List Nat) : List Nat :=
  let g := fun i => w.getD i 0
  let s0 := rotr 7 (g 14) ^^^ rotr 18 (g 14) ^^^ (g 14 / 2 ^ 3)
  let s1 := rotr 17 (g 1) ^^^ rotr 19 (g 1) ^^^ (g 1 / 2 ^ 10)
  ((g 15 + s0 + g 6 + s1) % 2 ^ 32) :: w
/-- One round of SHA-256 on the eight working words. -/
def shaRound (v : List Nat) (kw : Nat) : List Nat :=
  match v with
  | [a, b, c, d, e, f, g, h] =>
    let s1 := rotr 6 e ^^^ rotr 11 e ^^^ rotr 25 e
    let ch := (e &&& f) ^^^ ((e ^^^ 0xffffffff) &&& g)
    let t1 := h + s1 + ch + kw
    let s0 := rotr 2 a ^^^ rotr 13 a ^^^ rotr 22 a
    let mj := (a &&& b) ^^^ (a &&& c) ^^^ (b &&& c)
    [(t1 + s0 + mj) % 2 ^ 32, a, b, c, (d + t1) % 2 ^ 32, e, f, g]
  | v => v
/-- The big-endian words of a 64-byte block. -/
def beWords : Nat → Bytes → List Nat
  | 0, _ => []
  | n + 1, bs => beNat (bs.take 4) :: beWords n (bs.drop 4)
/-- One 64-byte block of SHA-256. -/
def shaBlock (h : List Nat) (blk : Bytes) : List Nat :=
  let w := (Nat.repeat shaSched 48 (beWords 16 blk).reverse).reverse
  let v := (List.zipWith (· + ·) shaK w).foldl shaRound h
  List.zipWith (fun a b => (a + b) % 2 ^ 32) h v
/-- The blocks of a padded message. -/
def shaBlocks : Nat → Bytes → List Nat → List Nat
  | 0, _, h => h
  | n + 1, bs, h => shaBlocks n (bs.drop 64) (shaBlock h (bs.take 64))
/-- SHA-256 (32 bytes, most significant first). -/
def sha256 (bs : Bytes) : Bytes :=
  let p := bs ++ (0x80 : Byte) :: zeros ((119 - bs.length % 64) % 64) ++ beBytes 8 (8 * bs.length)
  (shaBlocks (p.length / 64) p shaH).flatMap (beBytes 4)

/-! Wide accumulators. -/
/-- What R77 leaves in a register of `w` bits and in its wrap counter for a true sum `x`. -/
def wideReg (w : Nat) (x : Int) : Int × Int :=
  let r := sx w (tc w x)
  (r, (x - r) / ((2 ^ w : Nat) : Int))
/-- One addition of R77: the register wraps and the counter moves. -/
def wideAdd (w : Nat) (a : Int × Int) (t : Int) : Int × Int :=
  let s := a.1 + t
  if s ≥ ((2 ^ (w - 1) : Nat) : Int) then (s - ((2 ^ w : Nat) : Int), a.2 + 1)
  else if s < -((2 ^ (w - 1) : Nat) : Int) then (s + ((2 ^ w : Nat) : Int), a.2 - 1)
  else (s, a.2)
/-- The readout of R78 to `r` range bits: the value and whether acc_sat is set. -/
def wideRead (r : Nat) (a : Int × Int) : Int × Bool :=
  if a.2 > 0 then (((2 ^ (r - 1) : Nat) : Int) - 1, true)
  else if a.2 < 0 then (-((2 ^ (r - 1) : Nat) : Int), true)
  else (satS r a.1, satS r a.1 != a.1)
/-- A tensor accumulation (w = 40, 32 range bits) of a list of terms. -/
def tnsAcc (ts : List Int) : Int × Bool := wideRead 32 (ts.foldl (wideAdd 40) (0, 0))
/-- A solver, select or cross-tile accumulation (w = 64, 48 range bits) of a list of terms. -/
def slvAcc (ts : List Int) : Int × Bool := wideRead 48 (ts.foldl (wideAdd 64) (0, 0))

end Sys2Proof.Machine
end

