-- ==== Sys2Proof/Machine/Mem.lean ====
section
/-! DEFINITION. The byte memory of the part (bulk memory of the stacks, the SRAM banks, control SRAM) as one list of
(address, byte) pairs in canonical form: addresses strictly rising, no byte equal to what an unlisted address reads as. -/
namespace Sys2Proof.Machine

/-- The listed bytes. -/
abbrev Mem := List Host.Cell

/-- What a byte that nothing has written reads as (log entry 1: DESIGN CHOICE, the spec gives RAM no reset contents). -/
def unwritten : Byte := 0

/-- The byte at `a`. Log entry 1 DESIGN CHOICE. -/
def mget : Mem → Nat → Byte
  | [], _ => unwritten
  | (j, b) :: t, a => if j = a then b else if a < j then unwritten else mget t a

/-- `m` with byte `b` at `a`, in canonical form. Log entry 1 DESIGN CHOICE. -/
def mput : Mem → Nat → Byte → Mem
  | [], a, b => if b = unwritten then [] else [(a, b)]
  | (j, c) :: t, a, b =>
    if a < j then (if b = unwritten then (j, c) :: t else (a, b) :: (j, c) :: t)
    else if a = j then (if b = unwritten then t else (a, b) :: t)
    else (j, c) :: mput t a b

/-- `m` with the bytes `bs` from address `a` on. -/
def mputs (m : Mem) (a : Nat) : Bytes → Mem
  | [] => m
  | b :: bs => mputs (mput m a b) (a + 1) bs

/-- The `n` bytes from address `a` on. -/
def mgets (m : Mem) : Nat → Nat → Bytes
  | _, 0 => []
  | a, n + 1 => mget m a :: mgets m (a + 1) n

/-- `m` with `n` bytes `b` from address `a` on. Log entry 1 DESIGN CHOICE. -/
def mfill (m : Mem) (a n : Nat) (b : Byte) : Mem := mputs m a (List.replicate n b)

/-- Unsigned little-endian read of `n` bytes. -/
def mrd (m : Mem) (a n : Nat) : Nat := leNat (mgets m a n)
/-- Signed little-endian read of `n` bytes. -/
def mrdS (m : Mem) (a n : Nat) : Int := sx (8 * n) (mrd m a n)
/-- Little-endian write of `n` bytes. -/
def mwr (m : Mem) (a n v : Nat) : Mem := mputs m a (leBytes n v)

/-- Canonical form from address `lo` up. -/
def mwfFrom : Nat → Mem → Bool
  | _, [] => true
  | lo, (j, b) :: t => decide (lo ≤ j) && decide (b ≠ unwritten) && mwfFrom (j + 1) t

/-- The canonical form of the memory: addresses strictly rising, no listed byte equal to an unwritten one. Log entry 1 DESIGN CHOICE. -/
def Memory.wf (m : Mem) : Bool := mwfFrom 0 m

end Sys2Proof.Machine
end

