-- ==== Sys2Proof/Machine/State.lean ====
section
/-! DEFINITION. The state of the part as plain data: fuses, byte memory, the device's registers, queues, tables and
engines, and the queue of waiting commands; the reasons a command can stop; the state after a package reset. -/
namespace Sys2Proof.Machine

/-! ### The package (R1 to R49) -/

/-- The variant (R2). -/
inductive Variant where
  | kv820
  | kv840
  | kv880
  deriving DecidableEq, Repr, Inhabited

/-- What is fused or printed into a package and no reset changes: variant, stepping, fused core disables per die, the MAC
base of the field ports, the serial number and its ordering text (R2, R33, R44, R558, R560). Log entry 6 DESIGN CHOICE. -/
structure Fuses where
  variant : Variant
  stepLetter : Nat
  stepDigit : Nat
  coreFused : Tab Nat
  macBase : Nat
  serial : Nat
  deriving DecidableEq, Repr, Inhabited

/-- TCLK time and the turns (R45 to R49): the TAI ns of the latest event, the turn being executed, the reference and
holdover state, whether a start waits for discipline, and whether a correction is being slewed. -/
structure TimeRec where
  now : Nat
  turn : Nat
  running : Bool
  waiting : Bool
  first : Nat
  started : Bool
  holdover : Option Nat
  slewing : Bool
  offFault : Bool
  refSeen : Bool
  sealedTo : Nat
  ppsLast : Option Nat
  deriving DecidableEq, Repr, Inhabited

/-- Something the part sends outside itself, in the order sent (log entry 5: the model's own record of its outputs). Log entry 87 PRESUMED. -/
inductive Out where
  /-- An MSI-X message of a function (0 the PF, p a VF) and vector. -/
  | irq (fn vector : Nat)
  /-- A frame on a field port. -/
  | field (port : Nat) (frame : Bytes)
  /-- A frame on a fabric port to a destination address. -/
  | fabric (port mac : Nat) (frame : Bytes)
  /-- A frame on the twin link: generation, sequence number, message. -/
  | twin (gen seq : Nat) (m : TwinMsg)
  /-- A write to host memory. -/
  | hostWrite (addr : Nat) (body : Bytes)
  /-- Characters on the serial monitor. -/
  | uart (line : String)
  /-- Bytes answered on the SMBus. -/
  | smb (body : Bytes)
  /-- Bits shifted out of the test port. -/
  | tap (value bits : Nat)
  /-- The value that a register read answers with. -/
  | reg (addr value : Nat)
  deriving DecidableEq, Repr, Inhabited

/-! ### The sweep engine (R155 to R185) -/

/-- One map entry of a staged half (R157): the box of a truncated root or the number of the copy of node 0 in the geometry area (R162), and the id and
class of the objects whose primitives are copied, by object index. -/
structure HalfMap where
  handle : Nat
  planes : Nat
  k : Nat
  boxMin : V3
  boxMax : V3
  truncRoot : Option (V3 × V3)
  root : Option Nat
  objs : Tab (Nat × Nat)
  deriving DecidableEq, Repr, Inhabited

/-- A staged window half (R157 to R162). `fine` lists the staged bricks in the order of their 512-row areas, by map entry,
tile and brick; `unstaged` the present bricks beyond fine_max; the geometry area holds `geoNodes` node copies from `geoAddr` and `geoPrims` primitive copies from
`primAddr`. -/
structure Half where
  g : Nat
  sliceMs : Nat
  origin : V3
  cells : V3
  sigmaW : Nat
  reach : Int
  fineAddr : Nat
  geoAddr : Nat
  primAddr : Nat
  geoNodes : Nat
  geoPrims : Nat
  coarse : Tab (BitVec 64)
  fine : List Nat
  unstaged : List Nat
  maps : List HalfMap
  deriving DecidableEq, Repr, Inhabited

/-! ### Bundle streams, tokens, barriers (R303 to R345) -/

/-- A token in a data queue (R317): its sender, its credit-back bit and the cycle at which it was counted. -/
structure Tok where
  die : Nat
  unit : Nat
  cb : Bool
  seen : Nat := 0
  deriving DecidableEq, Repr, Inhabited

/-- An operation waiting in a unit's queue (R313 to R316): code, operand, token counts, the earliest start cycle, the
issue cycle and the window kind of its segment. -/
structure OpEnt where
  code : Nat
  operand : Nat
  data : Nat
  credit : Nat
  notBefore : Nat
  issued : Nat
  window : Nat
  deriving DecidableEq, Repr, Inhabited

/-- An operation that has started: code, operand, window kind, completion cycle (of a BAR_WAIT that waits: none yet, 2^48) and start cycle. -/
structure RunOp where
  code : Nat
  operand : Nat
  window : Nat
  ends : Nat
  start : Nat := 0
  deriving DecidableEq, Repr, Inhabited

/-- One unit's queues (R314, R317, R318): operations, data tokens, credit tokens, the route register, the operations that
run, and the barrier that a BAR_WAIT waits at with the tokens it consumed; the cycles of the starts in this turn, newest first, and the cycle from which no
token of the unit has been held at a full queue (R314, R315, R321). -/
structure UnitQ where
  ops : List OpEnt
  data : List Tok
  credit : List Tok
  route : Nat
  runs : List RunOp
  waitBar : Option (Nat × List Tok)
  starts : List Nat := []
  freeAt : Nat := 0
  deriving DecidableEq, Repr, Inhabited

/-- A token on its way (R320): the cycle at which the receiver counts it, the receiver, kind, sender, and the order in
which one sender's tokens were sent; where it was found waiting at a full queue, the cycle up to which that was counted (R321). -/
structure Transit where
  due : Nat
  toDie : Nat
  toUnit : Nat
  isData : Bool
  tok : Tok
  order : Nat
  held : Option Nat := none
  deriving DecidableEq, Repr, Inhabited

/-- A barrier context (R324 to R327): its masks, whether it is armed and since when, the local arrivals counted and held, and whether
differing masks were found, so that it is not released in this turn. -/
structure BarCtx where
  armed : Bool
  dieMask : Nat
  slotMask : Nat
  engMask : Nat
  armCyc : Nat
  arrivals : List (Nat × Nat)
  held : List (Nat × Nat)
  mismatch : Bool := false
  deriving DecidableEq, Repr, Inhabited

/-- The lathe of one die (R308 to R316): the running plan and the place in it, the last issue cycle, the plan half to be
written and whether it is sealed, the units, barrier contexts, whether an overrun holds issue (R329), and the cycle up to which issue stalls are
counted (R314). -/
structure LatheRec where
  plan : List Nat
  entry : Nat
  rep : Nat
  bundle : Nat
  repStart : Nat
  lastIssue : Option Nat
  half : Nat
  sealed : Bool
  units : Tab UnitQ
  bars : Tab BarCtx
  overrun : Bool
  stallTo : Nat := 0
  deriving DecidableEq, Repr, Inhabited

/-- A frontier queue of a frontier unit (R222): entries in the unit and entries moved to the tile store, each
(cost, sequence number, node index), both in key order. -/
structure FrnQueue where
  inUnit : List (Nat × Nat × Nat)
  inStore : List (Nat × Nat × Nat)
  deriving DecidableEq, Repr, Inhabited

/-- A program image slot (R305, R340): its bytes and whether it has been loaded and verified. -/
structure ImgSlot where
  raw : Bytes
  ready : Bool
  deriving DecidableEq, Repr, Inhabited

/-- The background test of one bank (R339): the next region, the turn in which the last region started. -/
structure BankTest where
  region : Nat
  started : Option Nat
  deriving DecidableEq, Repr, Inhabited

/-! ### The warden (R449 to R477) -/

/-- One instance of a source (R457): 0 QUIET, 1 ACTIVE, 2 SEVERE, 3 LATCHED; message times, newest first; recovery times;
whether its condition is present, the time of its last message of any kind, and the origin of the last that reported it present. -/
structure WInst where
  state : Nat
  times : List Nat
  recov : List Nat
  live : Bool
  last : Nat
  origin : Nat
  deriving DecidableEq, Repr, Inhabited

/-- One source's record (R463 to R466). -/
structure WRec where
  msg : WMsg
  lastTs : Nat
  merges : Nat
  merged : Bool
  cleared : Bool
  severe : Bool
  latched : Bool
  live : Bool
  isOpen : Bool
  isRead : Bool
  deriving DecidableEq, Repr, Inhabited

/-- The safe state (R470 to R477): in force, latched, exit requested, the lathes stopped. -/
structure SafeRec where
  on : Bool
  latched : Bool
  clrReq : Bool
  stopped : Bool
  decTurn : Nat
  notices : Nat
  deriving DecidableEq, Repr, Inhabited

/-! ### Commands, ledgers, polders, agents -/

/-- A sealed ledger: its turn, entries in order, the digest of its predecessor and its own, gap_before, the tile generation and live core count
of its turn (R65, R66), and the mirror blocks that its MAP entries of source type 2 name, in entry order (R524). -/
structure Ledger where
  turn : Nat
  entries : List Entry
  prevDigest : Nat
  digest : Nat
  gap : Bool
  tileGen : Nat
  cores : Nat
  blocks : List Bytes := []
  deriving DecidableEq, Repr, Inhabited

/-- The ledger builder: open ledgers by turn, the ledger sealed for the coming turn, the chained digest, internal entries and
chunk cuts to be marked, runs of chunks taken so far, the position in the executing ledger, the record ring (R84), activations
named for a turn; status queries of this turn with their ledger indices, answered at its end (R375); the count of internal entries (R62). Of LEDGER_CTL (R374): the snapshot
asked for (turn, ledger turn of the command), a REPLAY_PREPARE that takes effect at its turn's end, the run of ledgers being replayed with the digests recomputed of them, turns executed of
it, whether a recorded m exceeds the package's, and the virtual turn that comes next (none while a virtual turn is in progress). -/
structure LdgRec where
  opened : Tab (List Entry)
  ready : Option Ledger
  current : Option Ledger
  digest : Nat
  cuts : List (Nat × Nat)
  runs : Tab (List Entry)
  pos : Nat
  ring : List Ledger
  recGap : Bool
  replay : Bool
  replayRun : Option (Cmd × List (Ledger × Nat))
  replayDone : Nat
  replayDiff : Bool
  prepared : Option Nat
  snapshot : Option (Nat × Nat × Cmd)
  preparing : Option (Cmd × Nat)
  asks : List (Cmd × Nat)
  intern : Nat
  deriving DecidableEq, Repr, Inhabited

/-- A queue pair (R351 to R359): enabled, draining, stopped by an error; tail and head of the SQ; heads of the CQ on both sides
with the phase; result ring head; replies outstanding and waiting; the running count of the last packet whose reply, still due then, is discarded (R350,
R357, R387); coalescing count and timer; the chunk run in progress; the last turn counted as one of a
waiting reply (R356). -/
structure PairRec where
  enabled : Bool
  busy : Bool
  dmaErr : Bool
  sqTail : Nat
  sqHead : Nat
  cqHost : Nat
  cqNext : Nat
  phase : Bool
  resHead : Nat
  outstanding : Nat
  waiting : List Reply
  lost : Option Nat := none
  coal : Nat
  timer : Bool
  fetchCtr : Nat
  chunk : Option (Entry × Bytes)
  stalled : Option Nat := none
  deriving DecidableEq, Repr, Inhabited

/-- The package as a whole (R20 to R34): config bit from the boot image, dies in the tile map, cores removed in service, tile map,
m, whether a change of the live cores awaits the next cutoff, the map that is due at the coming boundary; the live cores by die as they stood at the
latest cutoff (R32), and as they stood when the slot mapping in force was made (R304; a die not listed has the mapping of reset). -/
structure PkgRec where
  twin : Bool
  live : Nat
  svc : Tab Nat
  gen : Nat
  map : List Nat
  m : Nat
  dirty : Bool
  due : Option (List Nat)
  cut : Tab Nat
  slots : Tab Nat
  deriving DecidableEq, Repr, Inhabited

/-! ### Control cores, scheduler and coherence (R410 to R432) -/

/-- A control core: its 32 general registers, its PC, the saved PC of its latest interrupt or fault, the thread it runs and since
when, whether it is held, whether an interrupt or fault has been taken and not returned from, whether an NMI waits to be taken (R454), and the base of its window. -/
structure CoreRec where
  regs : Tab Word
  pc : Nat
  savedPc : Nat
  running : Option Nat
  dispatched : Nat
  halted : Bool
  trap : Option Nat
  nmi : Bool
  winBase : Nat
  deriving DecidableEq, Repr, Inhabited

/-- A thread slot's state (R418). -/
inductive TState where
  | free
  | ready
  | running
  | waiting
  | waitTimed
  | delayed
  deriving DecidableEq, Repr, Inhabited

/-- A thread slot: state, level, core it last ran on, ready time in TCLK ticks, event flags, the mask and mode of its wait and the
register that takes the flags, its context. -/
structure ThreadRec where
  state : TState
  level : Nat
  core : Nat
  everRan : Bool
  ready : Nat
  flags : BitVec 32
  mask : BitVec 32
  modeAnd : Bool
  rd : Nat
  regs : Tab Word
  pc : Nat
  deriving DecidableEq, Repr, Inhabited

/-- An ordered flow (R426): the next ticket, outstanding tickets in ticket order with the thread that entered and what came back
(none yet, or skipped, or an item), and the output queue. -/
structure FlowRec where
  next : Nat
  open_ : List (Nat × Nat × Option (Option (BitVec 64)))
  out : List (BitVec 64)
  deriving DecidableEq, Repr, Inhabited

/-- The scheduler of a die: threads by slot, delay list (expiry in µs, slot) in service order, flows, most slots ever in use, and
the hardware queues that QDRAIN drains, each of 64-byte entries. -/
structure SchedRec where
  threads : Tab ThreadRec
  delay : List (Nat × Nat)
  flows : Tab FlowRec
  peak : Nat
  hwq : Tab (List Bytes)
  deriving DecidableEq, Repr, Inhabited

/-- A line on its way out of a cache: dirty or clean, its data, whether the home has the notice. -/
structure WbBuf where
  dirty : Bool
  data : Bytes
  noticed : Bool
  deriving DecidableEq, Repr, Inhabited

/-- A data cache: lines by address, with modified flag and data; write-back buffers by line address. -/
structure CacheRec where
  lines : Tab (Bool × Bytes)
  wb : Tab WbBuf
  deriving DecidableEq, Repr, Inhabited

/-- A busy line at its home (R429): the request served (cache, to own), the holder whose answer is awaited, holders still to snoop,
whether that holder answered EVICT_PENDING, and the notice that arrived before its answer (with data when dirty). -/
structure BusyRec where
  reqCache : Nat
  reqOwn : Bool
  target : Nat
  rest : List Nat
  pendingSeen : Bool
  notice : Option (Option Bytes)
  deriving DecidableEq, Repr, Inhabited

/-- The directory's record of a line: its holders, the one that holds it modified, whether it is busy, requests that wait. -/
structure DirRec where
  holders : List Nat
  modified : Option Nat
  busy : Option BusyRec
  waiting : List (Nat × Bool)
  deriving DecidableEq, Repr, Inhabited

/-- The control complex: cores and caches by die × 4 + core, schedulers by die, directories by line address (in the model's byte
memory), and EVICT_PENDING answers on their way to the home (cache, line). -/
structure CtcRec where
  cores : Tab CoreRec
  scheds : Tab SchedRec
  caches : Tab CacheRec
  dirs : Tab DirRec
  pendAns : List (Nat × Nat)
  deriving DecidableEq, Repr, Inhabited

/-! ### Calibration (R433 to R448) -/

/-- A calibration estimate of a model (kind 1) or a stream (kind 2), running or ended: the fields of the record of R441, the pin,
the samples, and the outcome whose entry is still to come. `state` 0 idle, 1 collecting, 2 computing. -/
structure CalRec where
  kind : Nat
  polder : Nat
  state : Nat
  apply : Bool
  result : Nat
  handle : Nat
  agent : Nat
  want : Nat
  start : Nat
  ends : Nat
  version : Nat
  before : Int
  after : Nat
  m : Nat
  corr : List Int
  r : Int
  pin : Nat
  raw : Bytes
  kinSamples : List (V3 × List Int × Int × Int × Int)
  timeSamples : List Int
  used : Nat
  deriving DecidableEq, Repr, Inhabited

/-- The receiver of one die on one link (R446, R447). -/
structure LaneRec where
  running : Bool
  stopping : Bool
  spareFail : Bool
  retired : Option Nat
  lane : Nat
  failed : Bool
  minW : Nat
  minH : Nat
  passW : Nat
  passH : Nat
  result : Nat
  deriving DecidableEq, Repr, Inhabited

/-- The calibration unit: estimates by model (key handle) and by stream (key 1,024 + stream), receivers by link × 2 + side (0 lower die), the
period, the link mask, the turn the rotation began, and outcome records to be placed by turn. -/
structure CalDev where
  est : Tab CalRec
  lanes : Tab LaneRec
  period : Nat
  mask : Nat
  laneStart : Nat
  laneResult : Nat
  outcomes : List (Nat × CalRec)
  deriving DecidableEq, Repr, Inhabited

/-! ### The warden's whole state -/

/-- Instances by source × 128 + die × 16 + core, records by source, messages on their way, the ring of R467, the safe state,
block resets for the next boundary, objects whose live condition is present by source × 8 + die. -/
structure WdnDev where
  inst : Tab WInst
  recs : Tab WRec
  inbox : List WMsg
  ring : List WMsg
  safe : SafeRec
  resets : List (Nat × Nat)
  present : Tab (List Nat)
  deriving DecidableEq, Repr, Inhabited

/-! ### Twins (R484 to R506) -/

/-- Roles of R486. -/
inductive Role where
  | detached
  | lead
  | follow
  | solo
  | arbitrating
  | quarantined
  | attaching
  deriving DecidableEq, Repr, Inhabited

/-- The twin unit: role and role before arbitration, generation, pins and link, sequence numbers of the
link, ledger entries and seals received, shadow ledger state, digest lists received and sent, mismatch turns, arbitration start, attach
state (stage 0 none, 1 check, 2 snapshot, 3 tail, 4 join, 5 joined) with its join turn and command, plan records to be placed,
a TWIN_DETACH that takes effect at the turn's end, the mirror blocks that the follow reports as held (source, mirror, block). Of an attach (R500): the
turn whose start the lead sends as a snapshot; on the joiner the next ledger of the tail to apply and the versions that the lead has forwarded, by the turn
at whose end they formed; the two state digests of the end of the join turn. -/
structure TwinDev where
  role : Role
  prev : Role
  gen : Nat
  downIn : Bool
  linkUp : Bool
  txSeq : Nat
  rxSeq : Nat
  tail : Tab (List Entry)
  seals : Tab Nat
  shadow : Bool
  shadowFrom : Option Nat
  peerLists : Tab (List (Nat × Nat × Nat))
  mismatches : List Nat
  arbFrom : Option Nat
  witGen : Option (Nat × Nat)
  attach : Nat
  attachTurn : Nat
  attachCmd : Option (Cmd × Nat)
  caught : Bool
  tlDue : List Bytes
  leaving : Bool
  held : List (Nat × Nat × Nat)
  peerSerial : Nat
  dieState : Tab Nat
  dieGen : Tab Nat
  coresFail : Tab Nat
  snapTurn : Option Nat := none
  tailNext : Option Nat := none
  versions : Tab Formed := []
  joinDigest : Option Nat := none
  peerDigest : Option Nat := none
  deriving DecidableEq, Repr, Inhabited

/-! ### The fabric (R507 to R533) -/

/-- Fabric states of R515. -/
inductive FState where
  | unjoined
  | seeking
  | assigned
  | conflict
  deriving DecidableEq, Repr, Inhabited

/-- A peer: serial, source MAC, active ports, coordinator flag, turn last heard, configuration last heard, alive. -/
structure PeerRec where
  serial : Nat
  mac : Nat
  ports : Nat
  heard : Nat
  gen : Nat
  digest : Bytes
  alive : Bool
  differs : Bool
  deriving DecidableEq, Repr, Inhabited

/-- A channel towards a peer (R511): next sequence number to send, whether a frame with syn has been sent, unacknowledged frames with resend
counts, payloads that wait for the window, the sequence number expected, and bytes of a mirror block not yet whole. -/
structure ChanRec where
  next : Nat
  started : Bool
  unacked : List (Nat × Bytes × Nat)
  queue : List Bytes
  expect : Nat
  partBlock : Bytes
  deriving DecidableEq, Repr, Inhabited

/-- A mirror of the committed fabric table (R520). As the source: the number of the next block, the subscribers that need a full block, and
the blocks not yet acknowledged (subscriber, version, last sequence number). As the subscriber: the last block placed, the blocks held by
number with the time of holding, whether the source is lost (R521 to R523). -/
structure MirrorRec where
  srcId : Nat
  srcMap : Nat
  subId : Nat
  localMap : Nat
  owner : Nat
  boxMin : V3
  boxMax : V3
  nextBlock : Nat
  needFull : List Nat
  sent : List (Nat × Nat × Nat)
  placed : Option Nat
  held : List (Nat × Nat × Bytes)
  stale : Bool
  deriving DecidableEq, Repr, Inhabited

/-- A staged or committed configuration bundle (R526): generation, digest and sections (kind, handle, owner, body). -/
structure BundleRec where
  gen : Nat
  digest : Bytes
  secs : List (Nat × Nat × Nat × Bytes)
  deriving DecidableEq, Repr, Inhabited

/-- The fabric unit: state, id, coordinator, seen table (serial, id), peers by id, channels by id × 4 + channel, assignments being sent,
members and band, mirrors, committed and staged bundles, a bundle whose verification runs, witness requests of this turn (peer, generation, serial, its twin's serial), the commit turn, witness sector, boots,
serials of other coordinators heard, LEAVE frames still to be sent, fabric ports with a link, the members of the committed fabric table (id, twin's id, serial), field ports with a link. -/
structure FabDev where
  state : FState
  id : Nat
  coord : Bool
  seen : List (Nat × Option Nat)
  peers : Tab PeerRec
  chans : Tab ChanRec
  assigning : List (Nat × Nat)
  band : Option Nat
  region : Option (V3 × V3)
  mirrors : List MirrorRec
  cfg : Option BundleRec
  staged : Option BundleRec
  staging : Option (BundleRec × Cmd × Nat)
  witReqs : List (Nat × Nat × Nat × Nat)
  commitTurn : Option Nat
  aborted : Bool
  witness : List (Nat × Nat)
  boots : Nat
  otherCoord : List Nat
  leaves : Nat
  up : Nat
  members : List (Nat × Nat × Nat)
  fieldUp : Nat
  deriving DecidableEq, Repr, Inhabited

/-! ### Boot, pins, flash, test port, monitor -/

/-- What the boot flash holds, as far as the part reads or writes it (R549, R525): the bytes, and whether each signed region's
signature is accepted (R550) is asked of Config by content. Log entry 25 PRESUMED. -/
abbrev Flash := Tab Byte

/-- The instruction of the test access port (R556). Log entry 34 PRESUMED. -/
inductive TapIr where
  | idcode
  | bypass
  | sample
  | extest
  | clamp
  | highz
  | spi
  deriving DecidableEq, Repr, Inhabited
/-- What drives the pins that the boundary register covers (R556): the part, the register, or nothing. -/
inductive PinDrive where
  | part
  | boundary (v : Nat)
  | highz
  deriving DecidableEq, Repr, Inhabited

/-- The package's boundary: power and reset pins, boot stage (R552, R553; 0 before the release of RESET_N), whether the package is ready and a
die or core was left out, the latch of THERMTRIP_N, the SMBus address once taken, the boot flash, the test port's instruction and boundary
register and what drives the pins, whether the first turn has started (R537), the links of R21 that carry traffic. Log entries 81 DEDUCED, 84 DESIGN CHOICE. -/
structure PinDev where
  vddIo : Bool
  pwrGood : Bool
  resetN : Bool
  stage : Nat
  ready : Bool
  leftOut : Bool
  trip : Bool
  smbAddr : Option Nat
  flash : Flash
  tapIr : TapIr
  boundary : Nat
  drive : PinDrive
  firstTurn : Bool
  linkUp : Nat
  deriving DecidableEq, Repr, Inhabited

/-- The serial monitor (R559 to R567): level, lockout, consecutive failures, the nonce with the time it was printed, the response lines taken. -/
structure MonDev where
  unlocked : Bool
  lockout : Bool
  fails : Nat
  nonce : Option (Nat × Nat)
  resp : Tab Bytes
  deriving DecidableEq, Repr, Inhabited

/-- Program images (R305, R340 to R343): slots 0 and 1, the active slot, a load being verified with its command, the
activation turn named, usable cores per die. -/
structure ImgDev where
  slots : Tab ImgSlot
  active : Nat
  loading : Option (Cmd × Nat)
  standby : Bool
  at_ : Option Nat
  deriving DecidableEq, Repr, Inhabited

/-- The engines of the dies: lathes, tokens on their way, window halves by (die × 16 + core) × 2 + half, tensor activation tables by
(die × 16 + core) × 8 + table, frontier queues by (die × 16 + core) × 1,024 + queue, background bank tests and bank owners by
die × 16 + bank (owner now, staged owner, whether it waits). -/
structure EngDev where
  lathes : Tab LatheRec
  transit : List Transit
  order : Nat
  halves : Tab Half
  tables : Tab Bytes
  frn : Tab FrnQueue
  tests : Tab BankTest
  owner : Tab (Nat × Nat × Bool)
  deriving DecidableEq, Repr, Inhabited

/-- The host side: queue pairs by polder × 8 + queue, the pending bits of MSI-X vectors by function × 64 + vector, masked vectors,
frames waiting for egress and their numbering, VFs enabled; the snapshot taken and not yet written, and the
snapshots that stand in host memory by their address (R86, R374). Log entry 53 DESIGN CHOICE. -/
structure HostDev where
  pairs : Tab PairRec
  pba : List Nat
  masked : List Nat
  egress : List EgFrame
  egId : Nat
  hostUp : Bool
  taken : Option Snap
  snaps : Tab Snap
  deriving DecidableEq, Repr, Inhabited

/-! ### The whole state -/

/-- Everything of the part that is not byte memory, fuses or the queue of commands. `regs` lists the registers that differ from their
reset value, by BAR 0 offset; `latch` the high words latched by reads of low words and `staged` the low words that wait for their
high words (R12); `free` counts the free values taken (log entry 2); `out` is the record of what the part sent (log entry 5). -/
structure Dev where
  regs : Tab Word
  latch : Tab Word
  staged : Tab Word
  time : TimeRec
  pkg : PkgRec
  ldg : LdgRec
  host : HostDev
  pld : Tab PolderRec
  world : World
  q : QDev
  eng : EngDev
  ctc : CtcRec
  cal : CalDev
  wdn : WdnDev
  twin : TwinDev
  fab : FabDev
  pin : PinDev
  mon : MonDev
  img : ImgDev
  free : Nat
  out : List Out
  deriving DecidableEq, Repr, Inhabited

/-- Why the machine stops on a command. Log entry 3 DESIGN CHOICE. -/
inductive Fault where
  /-- Raised by a command whose operands break the form that Syntax and WellFormed give it (log entry 3). Safe: the model stops where no such command can arrive. -/
  | illFormed
  deriving DecidableEq, Repr

/-- Why the machine refuses a command. -/
inductive Refusal where
  /-- Raised by an arm that has no meaning yet. Safe: nothing can be proved of that command. -/
  | notModelled (mnemonic : String)
  deriving DecidableEq, Repr

/-- The state: fuses, byte memory, the device, and the commands that wait, first in, first out. -/
structure State where
  fuses : Fuses
  mem : Mem
  dev : Dev
  pending : List Instr
  deriving DecidableEq, Repr

/-- Polder 0 after reset (R380, R407). -/
def polder0 : PolderRec :=
  { (default : PolderRec) with state := 1, weight := 256, rate := 100000, slice := 300, quotaQ := 16384, quotaMap := 64, quotaStream := 128,
                               quotaAgent := 4096, bucket := 100 * 1000000000 }

/-- The device after a package reset, before boot (R554): every table empty, no turns running, both status pins of R537 low. Log entry 11 DESIGN CHOICE. -/
def Dev.reset : Dev :=
  { (default : Dev) with
    regs := [(0x100800, 0x000A030A)],
    pkg := { (default : PkgRec) with live := 0x0F },
    pld := [(0, polder0)],
    eng := { (default : EngDev) with owner := [] },
    twin := { (default : TwinDev) with role := .detached, prev := .detached },
    fab := { (default : FabDev) with state := .unjoined },
    pin := { (default : PinDev) with vddIo := true, pwrGood := true, resetN := true } }

/-- The fuses of the model's package: a production KV-840, stepping B0 (log entry 6). -/
def Fuses.reset : Fuses :=
  { variant := .kv840, stepLetter := 0x42, stepDigit := 0, coreFused := [], macBase := 0, serial := 0 }

/-- The machine right after a package reset: memory lists nothing, no command waits. Log entries 10 DESIGN CHOICE, 11 DESIGN CHOICE. -/
def State.reset : State := { fuses := Fuses.reset, mem := [], dev := Dev.reset, pending := [] }

end Sys2Proof.Machine
end

