-- ==== Sys2Proof/Machine/Geo.lean ====
section
/-! DEFINITION. Geometry of the world model: vectors, quaternions (R91), primitives and their boxes (R98, R99), and the
bounding-volume hierarchy (R100, R101). -/
namespace Sys2Proof.Machine

/-- Componentwise sum. -/
def V3.add (a b : V3) : V3 := ⟨a.x + b.x, a.y + b.y, a.z + b.z⟩
/-- Componentwise difference. -/
def V3.sub (a b : V3) : V3 := ⟨a.x - b.x, a.y - b.y, a.z - b.z⟩
/-- A function applied per axis. -/
def V3.map (f : Int → Int) (a : V3) : V3 := ⟨f a.x, f a.y, f a.z⟩
/-- A function applied to two vectors per axis. -/
def V3.zip (f : Int → Int → Int) (a b : V3) : V3 := ⟨f a.x b.x, f a.y b.y, f a.z b.z⟩
/-- A condition that holds on every axis. -/
def V3.all2 (f : Int → Int → Bool) (a b : V3) : Bool := f a.x b.x && f a.y b.y && f a.z b.z
/-- Scalar product. -/
def V3.dot (a b : V3) : Int := a.x * b.x + a.y * b.y + a.z * b.z
/-- Vector product. -/
def V3.cross (a b : V3) : V3 := ⟨a.y * b.z - a.z * b.y, a.z * b.x - a.x * b.z, a.x * b.y - a.y * b.x⟩
/-- The same number on every axis. -/
def V3.of (n : Int) : V3 := ⟨n, n, n⟩
/-- Three signed 32-bit fields from byte `o` on. -/
def v3fld (bs : Bytes) (o : Nat) : V3 := ⟨sfld bs o 4, sfld bs (o + 4) 4, sfld bs (o + 8) 4⟩
/-- The 12 bytes of a vector. -/
def v3bytes (v : V3) : Bytes := sbytes 4 v.x ++ sbytes 4 v.y ++ sbytes 4 v.z
/-- `x` held between `lo` and `hi`. -/
def iclamp (x lo hi : Int) : Int := max lo (min x hi)

/-- Quotient rounded to nearest, ties away from zero; `d` positive. -/
def rdivAway (n d : Int) : Int :=
  if n ≥ 0 then (2 * n + d) / (2 * d) else -((2 * (-n) + d) / (2 * d))
/-- Quotient rounded up; `d` positive. -/
def cdiv (n d : Int) : Int := -((-n) / d)

/-- Four signed 16-bit fields of a quaternion from byte `o` on. -/
def quatFld (bs : Bytes) (o : Nat) : List Int := [sfld bs o 2, sfld bs (o + 2) 2, sfld bs (o + 4) 2, sfld bs (o + 6) 2]
/-- The squared norm of a quaternion. -/
def quatN2 (q : List Int) : Int := q.foldl (fun a c => a + c * c) 0
/-- R91: a quaternion is accepted when its squared norm is within 2^23 of 2^28. -/
def quatOk (q : List Int) : Bool :=
  decide (2 ^ 28 - 2 ^ 23 ≤ quatN2 q) && decide (quatN2 q ≤ 2 ^ 28 + 2 ^ 23)
/-- The nine Q1.30 entries of the rotation matrix of R91, row by row. -/
def rotMat (q : List Int) : List Int :=
  let w := q.getD 0 0; let x := q.getD 1 0; let y := q.getD 2 0; let z := q.getD 3 0
  let n2 := max 1 (quatN2 q)
  let e := fun (v : Int) => rdivAway (v * 2 ^ 30) n2
  [e (w*w + x*x - y*y - z*z), e (2 * (x*y - w*z)), e (2 * (x*z + w*y)),
   e (2 * (x*y + w*z)), e (w*w - x*x + y*y - z*z), e (2 * (y*z - w*x)),
   e (2 * (x*z - w*y)), e (2 * (y*z + w*x)), e (w*w - x*x - y*y + z*z)]
/-- Row `i` of a rotation matrix. -/
def matRow (r : List Int) (i : Nat) : V3 := ⟨r.getD (3 * i) 0, r.getD (3 * i + 1) 0, r.getD (3 * i + 2) 0⟩
/-- Column `i` of a rotation matrix. -/
def matCol (r : List Int) (i : Nat) : V3 := ⟨r.getD i 0, r.getD (3 + i) 0, r.getD (6 + i) 0⟩

/-- Placing a mesh vertex in the site frame (R98): c + round(R v / 2^30), ties away from zero. -/
def placeVertex (c : V3) (r : List Int) (v : V3) : V3 :=
  c.add ⟨rdivAway ((matRow r 0).dot v) (2 ^ 30), rdivAway ((matRow r 1).dot v) (2 ^ 30), rdivAway ((matRow r 2).dot v) (2 ^ 30)⟩

/-- The primitives of one object (R98), owned by object index `i`. -/
def objPrims (i : Nat) (o : Obj) : List Prim :=
  if o.kind = 1 then [.sphere o.centre o.size.x i]
  else if o.kind = 2 then [.box o.centre o.size (rotMat o.quat) i]
  else let r := rotMat o.quat
    o.tris.map fun t => .tri (placeVertex o.centre r t.1) (placeVertex o.centre r t.2.1) (placeVertex o.centre r t.2.2) i
/-- The primitives of a set of objects, numbered from 0 in ascending object_id (R98). -/
def allPrims (objs : Tab Obj) : List Prim := (objs.zipIdx.map fun p => objPrims p.2 p.1.2).flatten

/-- The exact box of a primitive (R99). -/
def primBox : Prim → V3 × V3
  | .sphere c r _ => (c.sub (V3.of r), c.add (V3.of r))
  | .box c h rot _ =>
    let e := fun i => let r := matRow rot i
      cdiv ((r.x.natAbs : Int) * h.x + (r.y.natAbs : Int) * h.y + (r.z.natAbs : Int) * h.z) (2 ^ 30)
    let ev : V3 := ⟨e 0, e 1, e 2⟩
    (c.sub ev, c.add ev)
  | .tri a b c _ => ((a.zip min b).zip min c, (a.zip max b).zip max c)
/-- Leaf kind of a primitive (R100). -/
def primKind : Prim → Nat
  | .sphere .. => 0
  | .box .. => 1
  | .tri .. => 2
/-- The owning object's index. -/
def primObj : Prim → Nat
  | .sphere _ _ o => o
  | .box _ _ _ o => o
  | .tri _ _ _ o => o

/-- The 64-byte record of a primitive (R98). -/
def primBytes : Prim → Bytes
  | .sphere c r o => v3bytes c ++ sbytes 4 r ++ zeros 44 ++ leBytes 4 o
  | .box c h rot o => v3bytes c ++ v3bytes h ++ (List.range 9).flatMap (fun i => sbytes 4 (rot.getD i 0)) ++ leBytes 4 o
  | .tri a b c o => v3bytes a ++ v3bytes b ++ v3bytes c ++ zeros 24 ++ leBytes 4 o
/-- The primitive that a record of a leaf kind holds (R98, R100). -/
def primOf (kind : Nat) (bs : Bytes) : Prim :=
  let o := fld bs 60 4
  if kind = 0 then .sphere (v3fld bs 0) (fld bs 12 4) o
  else if kind = 1 then .box (v3fld bs 0) ⟨(fld bs 12 4 : Nat), (fld bs 16 4 : Nat), (fld bs 20 4 : Nat)⟩ ((List.range 9).map fun i => sfld bs (24 + 4 * i) 4) o
  else .tri (v3fld bs 0) (v3fld bs 12) (v3fld bs 24) o
/-- The 64-byte record of an object, a mesh's triangles left out (R96). -/
def objBytes (o : Obj) : Bytes :=
  leBytes 1 o.kind ++ leBytes 1 o.cls ++ zeros 2 ++ leBytes 4 o.id ++ v3bytes o.centre ++
  (if o.kind = 3 then leBytes 4 o.tris.length ++ zeros 8 else v3bytes o.size) ++ (List.range 4).flatMap (fun i => sbytes 2 (o.quat.getD i 0)) ++ zeros 24
/-- The 64 bytes of a node box with four slots, an empty one anywhere (R100). -/
def nodeRow (lo hi : V3) (slots : List (Option BvhSlot)) : Bytes :=
  let q := fun (v : V3) => leBytes 1 v.x.toNat ++ leBytes 1 v.y.toNat ++ leBytes 1 v.z.toNat
  let s := fun i => (slots[i]?).getD none
  v3bytes lo ++ v3bytes hi ++ ((List.range 4).flatMap fun i => match s i with
    | none => zeros 6
    | some x => q x.qlo ++ q x.qhi) ++
  (List.range 4).flatMap fun i => leBytes 4 (match s i with
    | none => 0xffffffff
    | some x => x.index % 2 ^ 29 + 2 ^ 29 * (x.kind % 4) + 2 ^ 31 * b2n x.leaf)
/-- The 64 bytes of a node (R100): its used slots first. -/
def nodeBytes (n : BvhNode) : Bytes := nodeRow n.lo n.hi (n.slots.map some)
/-- The node that 64 bytes hold: the slots that are not empty, in order (R100). -/
def nodeOf (bs : Bytes) : BvhNode :=
  let q := fun (o : Nat) => (⟨(fld bs o 1 : Nat), (fld bs (o + 1) 1 : Nat), (fld bs (o + 2) 1 : Nat)⟩ : V3)
  { lo := v3fld bs 0, hi := v3fld bs 12,
    slots := (List.range 4).filterMap fun i =>
      let w := fld bs (48 + 4 * i) 4
      if w = 0xffffffff then none
      else some { qlo := q (24 + 6 * i), qhi := q (27 + 6 * i), leaf := bitAt w 31, kind := bits w 30 29, index := bits w 28 0 } }

/-- Bits of `q` spread to every third place, from bit `b` on (`n` bits). -/
def spread3 : Nat → Nat → Nat → Nat
  | 0, _, _ => 0
  | n + 1, b, q => b2n (bitAt q b) * 2 ^ (3 * b) + spread3 n (b + 1) q
/-- The Morton code of a primitive in a site box (R101). -/
def morton (boxMin boxMax : V3) (p : Prim) : Nat :=
  let b := primBox p
  let q := fun (lo hi mn mx : Int) =>
    (iclamp ((floorShr (lo + hi) 1 - mn) * 1024 / max 1 (mx - mn)) 0 1023).toNat
  spread3 10 0 (q b.1.x b.2.x boxMin.x boxMax.x) + 2 * spread3 10 0 (q b.1.y b.2.y boxMin.y boxMax.y) +
    4 * spread3 10 0 (q b.1.z b.2.z boxMin.z boxMax.z)

/-- Ordering of (Morton code, primitive number) pairs. -/
def pairLe (a b : Nat × Nat) : Bool := a.1 < b.1 || (a.1 == b.1 && a.2 ≤ b.2)
/-- Insertion into a list sorted by `le`, after its equals. -/
def insertBy {α : Type} (le : α → α → Bool) (x : α) : List α → List α
  | [] => [x]
  | y :: t => if le y x then y :: insertBy le x t else x :: y :: t
/-- A stable sort. -/
def sortBy {α : Type} (le : α → α → Bool) (l : List α) : List α := l.foldl (fun acc x => insertBy le x acc) []

/-- The highest bit in which two numbers differ, from bit `k` down. -/
def topDiff : Nat → Nat → Nat → Nat
  | 0, _, _ => 0
  | k + 1, a, b => if bitAt a k != bitAt b k then k else topDiff k a b
/-- The binary split of a sorted range (R101). -/
def bvhSplit (r : List (Nat × Nat)) : List (Nat × Nat) × List (Nat × Nat) :=
  let a := (r.head?.map Prod.fst).getD 0
  let z := (r.getLast?.map Prod.fst).getD 0
  if a = z then r.splitAt ((r.length + 1) / 2)
  else let h := topDiff 30 a z
    r.span fun p => !bitAt p.1 h
/-- Replacing the largest part, leftmost on ties, by its halves. -/
def splitLargest (parts : List (List (Nat × Nat))) : List (List (Nat × Nat)) :=
  let m := parts.foldl (fun a p => max a p.length) 0
  let pre := parts.takeWhile fun p => p.length != m
  match parts.drop pre.length with
  | [] => parts
  | p :: rest => let s := bvhSplit p; pre ++ [s.1, s.2] ++ rest
/-- The parts of a node (R101): two from the split, then up to four. -/
def bvhParts (r : List (Nat × Nat)) : List (List (Nat × Nat)) :=
  let s := bvhSplit r
  let p0 := [s.1, s.2].filter fun p => !p.isEmpty
  let more := fun (ps : List (List (Nat × Nat))) => if ps.length < 4 && ps.any (fun p => p.length > 1) then splitLargest ps else ps
  more (more p0)

/-- Union of two boxes. -/
def boxUnion (a b : V3 × V3) : V3 × V3 := (a.1.zip min b.1, a.2.zip max b.2)
/-- Quantised slot of a child box in a node box (R100). -/
def mkSlot (node child : V3 × V3) (leaf : Bool) (kind index : Nat) : BvhSlot :=
  let ql := fun (lo hi c : Int) => if hi = lo then 0 else (c - lo) * 255 / (hi - lo)
  let qh := fun (lo hi c : Int) => if hi = lo then 0 else cdiv ((c - lo) * 255) (hi - lo)
  { qlo := ⟨ql node.1.x node.2.x child.1.x, ql node.1.y node.2.y child.1.y, ql node.1.z node.2.z child.1.z⟩,
    qhi := ⟨qh node.1.x node.2.x child.2.x, qh node.1.y node.2.y child.2.y, qh node.1.z node.2.z child.2.z⟩,
    leaf := leaf, kind := kind, index := index }
/-- Decoded box of a slot (R100). -/
def slotBox (n : BvhNode) (s : BvhSlot) : V3 × V3 :=
  let dl := fun (lo hi q : Int) => lo + q * (hi - lo) / 255
  let dh := fun (lo hi q : Int) => lo + cdiv (q * (hi - lo)) 255
  (⟨dl n.lo.x n.hi.x s.qlo.x, dl n.lo.y n.hi.y s.qlo.y, dl n.lo.z n.hi.z s.qlo.z⟩,
   ⟨dh n.lo.x n.hi.x s.qhi.x, dh n.lo.y n.hi.y s.qhi.y, dh n.lo.z n.hi.z s.qhi.z⟩)

/-- make_node of R101 on fuel: the nodes made (with their numbers), the next free number, the node's box. Children are
made left to right, depth first, so that nodes are numbered in creation order. -/
def bvhNode (prims : List Prim) : Nat → List (Nat × Nat) → Nat → Tab BvhNode × Nat × (V3 × V3)
  | 0, _, next => ([], next, (V3.of 0, V3.of 0))
  | fuel + 1, r, next =>
    let kids := (if r.length ≤ 1 then [r] else bvhParts r).foldl
      (fun (acc : Tab BvhNode × Nat × List ((V3 × V3) × Bool × Nat × Nat)) p =>
        match p with
        | [one] =>
          let pr := prims.getD one.2 default
          (acc.1, acc.2.1, acc.2.2 ++ [(primBox pr, true, primKind pr, one.2)])
        | _ =>
          let sub := bvhNode prims fuel p acc.2.1
          (sub.1.foldl (fun t e => tput t e.1 e.2) acc.1, sub.2.1, acc.2.2 ++ [(sub.2.2, false, 0, acc.2.1)]))
      ([], next + 1, [])
    let box := match kids.2.2 with
      | [] => (V3.of 0, V3.of 0)
      | k :: ks => ks.foldl (fun b c => boxUnion b c.1) k.1
    let node : BvhNode := { lo := box.1, hi := box.2, slots := kids.2.2.map fun c => mkSlot box c.1 c.2.1 c.2.2.1 c.2.2.2 }
    (tput kids.1 next node, kids.2.1, box)

/-- The BVH of a list of primitives in a site box (R101); none for no primitives. -/
def bvhBuild (boxMin boxMax : V3) (prims : List Prim) : List BvhNode :=
  if prims.isEmpty then []
  else
    let keyed := sortBy pairLe (prims.zipIdx.map fun p => (morton boxMin boxMax p.1, p.2))
    ((bvhNode prims (2 * prims.length + 2) keyed 0).1).map Prod.snd

end Sys2Proof.Machine
end

