-- ==== Sys2Proof/Machine/Ops.lean ====
section
/-! DEFINITION. Named operations over the byte memory: where each memory of the part lies in it (log entry 4). -/
namespace Sys2Proof.Machine

/-- Bytes of one SRAM bank (R26): 8 sub-arrays of 20,480 rows of 64 bytes. -/
def bankBytes : Nat := 10485760
/-- Rows of one bank (R26). -/
def bankRows : Nat := 163840
/-- Sub-array of a bank that holds row `r` (R331). -/
def subArray (r : Nat) : Nat := r % 8
/-- Index of row `r` in its sub-array (R331). -/
def subIndex (r : Nat) : Nat := r / 8
/-- Cycles that reads of rows asked for together lose: each sub-array serves one of them in a cycle (R331, R336). -/
def rowClash (rows : List Nat) : Nat :=
  (List.range 8).foldl (fun a s => max a ((rows.filter fun r => subArray r == s).length - 1)) 0
/-- First byte of bank `b` of die `d` in the model's byte memory. Log entry 4 DESIGN CHOICE. -/
def bankBase (d b : Nat) : Nat := 2 ^ 44 + (d * 16 + b) * 2 ^ 24
/-- First byte of row `r` of bank `b` of die `d`. -/
def rowAddr (d b r : Nat) : Nat := bankBase d b + 64 * r
/-- First byte of the bulk-memory stack of die `d`. Log entries 4 DESIGN CHOICE, 17 PRESUMED. -/
def bulkBase (d : Nat) : Nat := d * 2 ^ 40
/-- Bytes of a bulk-memory stack (R27). -/
def bulkBytes : Nat := 0xc00000000
/-- First byte of the host scratch region in the stacks of dies 2 to 7, 12 GiB at its end (R28). Log entry 17 PRESUMED. -/
def scratchFirst : Nat := 0x900000000
/-- First byte of the control SRAM of die `d`. Log entry 4 DESIGN CHOICE. -/
def ctlBase (d : Nat) : Nat := 2 ^ 45 + d * 2 ^ 22
/-- First byte of host memory in the model's byte memory: 64-bit host addresses from here on. Log entry 4 DESIGN CHOICE. -/
def hostBase : Nat := 2 ^ 65
/-- The bank and row that a 22-bit field names: row in [17:0], bank in [21:18]. Log entry 4 DESIGN CHOICE. -/
def rowField (d v : Nat) : Nat := rowAddr d (bits v 21 18) (bits v 17 0)

end Sys2Proof.Machine
end

