-- ==== Sys2Proof/Machine/Regs.lean ====
section
/-! DEFINITION. The registers of BAR 0 (R8 to R12, R568 to R571): one row per register family of the register map, with its
reset value, the bits software may write, its access kind and its lock; reads and writes of stored registers. -/
namespace Sys2Proof.Machine

/-- Lock points of R570. -/
inductive Lock where
  | free
  | run
  | wdn
  | pair
  | fab
  deriving DecidableEq, Repr, Inhabited

/-- A register family: registers at base + i * s1 + j * s2 with i < n1 and j < n2; reset value; bits software may write; bits
that clear on a 1; bits that only control cores write; read-clear; 1 the low, 2 the high word of a pair (R12); lock. -/
structure RegRow where
  base : Nat
  reset : Nat := 0
  rw : Nat := 0
  w1c : Nat := 0
  core : Nat := 0
  rc : Bool := false
  pair : Nat := 0
  s1 : Nat := 4
  n1 : Nat := 1
  s2 : Nat := 4
  n2 : Nat := 1
  lock : Lock := .free
  deriving DecidableEq, Repr, Inhabited

/-- A read-only register. -/
def ro (base : Nat) (n : Nat := 1) (s : Nat := 4) (reset : Nat := 0) (pair : Nat := 0) : RegRow :=
  { base := base, n1 := n, s1 := s, reset := reset, pair := pair }
/-- A read-clear counter. -/
def rcc (base : Nat) (n : Nat := 1) (s : Nat := 4) : RegRow := { base := base, n1 := n, s1 := s, rc := true }
/-- A register with the writable bits `rw`. -/
def rwr (base rw reset : Nat) (lock : Lock := .free) (pair : Nat := 0) : RegRow :=
  { base := base, rw := rw, reset := reset, lock := lock, pair := pair }

/-- Rows of the package range (R44, R88, R89, R378, R407 to R409, R483, R506, R533, R558, R567). FAB_PEERS and FAB_DIFF read with no latch. Log entry 92
DEDUCED. -/
def pkgRows : List RegRow :=
  [ro 0x0, ro 0x4, ro 0x8, ro 0xC, rcc 0x10, ro 0x14, ro 0x18, ro 0x1C, ro 0x20 8, ro 0x40 8, ro 0x60 8, ro 0x80, ro 0x84, ro 0x100 128,
   rwr 0x1000 0x3 0x1 .run, ro 0x1004 1 4 0x100, rcc 0x1008 3,
   ro 0x100000 2, ro 0x100010 8, rcc 0x100030 4,
   rwr 0x100800 0xffffff 0x000A050A .run, ro 0x100804 1 4 0xBB8, rwr 0x100808 0x1ffff 0x12C .run, ro 0x10080C 1 4 0xA8C,
   rwr 0x100810 0xffffffff 0x00100020 .run, rwr 0x100814 0xffff 0x0201 .run, rwr 0x100818 0xffffff 0x204010 .run, ro 0x10081C, rcc 0x100820] ++
  [rwr 0x200000 0x3 0 .wdn, ro 0x200004, rwr 0x200008 0 0, rwr 0x20000C 0 0, rwr 0x200010 0 0, { base := 0x200014, w1c := 3 }, ro 0x200018, ro 0x20001C,
   ro 0x200020 1 4 0 1, ro 0x200024 1 4 0 2, rwr 0x200028 0xffff 0x1F4 .wdn, rwr 0x20002C 0xffffffff 0xFFFFFFFF .wdn 1, rwr 0x200030 0xffff 0xFFFF .wdn 2,
   ro 0x200034, rwr 0x200040 0x1ff 0, ro 0x200044 4, ro 0x200054, ro 0x200058 1 4 0 1, ro 0x20005C 1 4 0 2, rwr 0x200060 0xffff 0, ro 0x200064,
   ro 0x200100 16, ro 0x200140 16,
   { base := 0x201000, s1 := 8, n1 := 512, rw := 0xff7f1fff, lock := .wdn }, { base := 0x201004, s1 := 8, n1 := 512, rw := 0xffffffff, lock := .wdn }] ++
  [ro 0x300000 1 4 0x03000000, ro 0x300004 1 4 0xC350, ro 0x300008, ro 0x30000C, ro 0x300010 1 4 0 1, ro 0x300014 1 4 0 2, ro 0x300018, rwr 0x30001C 0 0,
   rcc 0x300020 7, ro 0x300040 8,
   rwr 0x400000 0xffffff00 0x88B51400 .fab, ro 0x400004, rwr 0x400008 0x07070707 0x01010101, ro 0x40000C 2, ro 0x400014 1 4 0 1, ro 0x400018 1 4 0 2,
   { base := 0x40001C, w1c := 4 }, ro 0x400020 8, ro 0x400040 8, rwr 0x400060 0xffffffff 0x68000001 .fab 1, rwr 0x400064 0xffff 0x0350 .fab 2,
   rwr 0x400068 0x3f 0, ro 0x40006C 1 4 0 1, ro 0x400070 1 4 0 2, ro 0x400074, ro 0x400078, ro 0x40007C, ro 0x400080, ro 0x400084, rcc 0x400090 6,
   rwr 0x401000 0xffff0000 0x88B60000 .run, rwr 0x401004 0x00fff703 0x1001, ro 0x401008, ro 0x40100C 1 4 0 1, ro 0x401010 1 4 0 2,
   { base := 0x401100, s1 := 0x20, n1 := 8, rw := 0x19, reset := 0x11 }, { base := 0x401104, s1 := 0x20, n1 := 8, s2 := 4, n2 := 5, rc := true }] ++
  [rwr 0x500000 0x7 0, rwr 0x500004 0xfff 0xA14 .run, ro 0x500008 1 4 0 1, ro 0x50000C 1 4 0 2, ro 0x500010 1 4 0 1, ro 0x500014 1 4 0 2, ro 0x500018 2, rcc 0x500020 3,
   ro 0x500030 1 4 0 1, ro 0x500034 1 4 0 2, ro 0x500038 1 4 0 1, ro 0x50003C 1 4 0 2, rwr 0x500040 0xfffff000 0 .free 1, rwr 0x500044 0xffffffff 0 .free 2,
   rwr 0x500048 0xfff00000 0, ro 0x50004C, rwr 0x500050 0xffffffff 0,
   rwr 0x600000 0x307 0x1 .run, rwr 0x600004 0x1 0 .run, ro 0x600008, ro 0x60000C, ro 0x600010 1 4 0 1, ro 0x600014 1 4 0 2,
   rwr 0x600018 0xffffffff 0 .run 1, rwr 0x60001C 0xffffffff 0 .run 2, ro 0x600020 1 4 0 1, ro 0x600024 1 4 0 2, rwr 0x600028 0xffff 0xA, rcc 0x60002C,
   rwr 0x700000 0x3 0, ro 0x700004, { base := 0x700008, w1c := 0xf }, rcc 0x70000C 6,
   { base := 0x780000, s1 := 0x40, n1 := 17, s2 := 4, n2 := 10 }, { base := 0x780028, s1 := 0x40, n1 := 17, s2 := 4, n2 := 3, rc := true },
   { base := 0x780034, s1 := 0x40, n1 := 17 }, { base := 0x780038, s1 := 0x40, n1 := 17, rc := true }]

/-- Rows of a queue page (R379), by their offset in the page. -/
def pageRows : List RegRow :=
  [{ base := 0x0, s1 := 8, n1 := 8 }, { base := 0x4, s1 := 8, n1 := 8 },
   { base := 0x1000, s1 := 0x40, n1 := 8, rw := 0xffff, reset := 0x88, lock := .pair }, { base := 0x1004, s1 := 0x40, n1 := 8 },
   { base := 0x1008, s1 := 0x40, n1 := 8, rw := 0xffffffff, pair := 1, lock := .pair }, { base := 0x100C, s1 := 0x40, n1 := 8, rw := 0xffffffff, pair := 2, lock := .pair },
   { base := 0x1010, s1 := 0x40, n1 := 8, rw := 0xffffffff, pair := 1, lock := .pair }, { base := 0x1014, s1 := 0x40, n1 := 8, rw := 0xffffffff, pair := 2, lock := .pair },
   { base := 0x1018, s1 := 0x40, n1 := 8, rw := 0xffffffff, pair := 1, lock := .pair }, { base := 0x101C, s1 := 0x40, n1 := 8, rw := 0xffffffff, pair := 2, lock := .pair },
   { base := 0x1020, s1 := 0x40, n1 := 8, rw := 0xffff, reset := 0x10, lock := .pair },
   { base := 0x1024, s1 := 0x40, n1 := 8, rw := 0xffffffff }, { base := 0x1028, s1 := 0x40, n1 := 8 }, { base := 0x102C, s1 := 0x40, n1 := 8 },
   { base := 0x1030, s1 := 0x40, n1 := 8, rw := 0xffffff }]

/-- A per-core register of an engine block: core `i`, offset `o`. -/
def perCore (base o : Nat) (rw w1c : Nat := 0) (pair : Nat := 0) (n2 : Nat := 1) : RegRow :=
  { base := base + o, s1 := 0x100, n1 := 16, s2 := 4, n2 := n2, rw := rw, w1c := w1c, pair := pair }
/-- Rows of a per-die window (R184, R217, R254, R283, R302, R345, R346, R431, R432, R448), by their offset in the window. -/
def dieRows : List RegRow :=
  [rwr 0x0 0x2 0, ro 0x4, { base := 0x8, w1c := 0xff }, ro 0xC 3, ro 0x18 1 4 0 1, ro 0x1C 1 4 0 2, ro 0x20 1 4 0x76543210, ro 0x24 1 4 0xFEDCBA98, ro 0x28 4,
   rcc 0x38 2, { base := 0x40 }, ro 0x60 8, { base := 0x1000, n1 := 1024, core := 0xffffffff },
   { base := 0x10000, s1 := 0x100, n1 := 16, core := 0x1f00 }, { base := 0x10004, s1 := 0x100, n1 := 16 }, { base := 0x10008, s1 := 0x100, n1 := 16, s2 := 4, n2 := 3, rc := true },
   { base := 0x10014, s1 := 0x100, n1 := 16 }, { base := 0x10018, s1 := 0x100, n1 := 16, w1c := 0x80000000 }, { base := 0x10020, s1 := 0x100, n1 := 16, s2 := 4, n2 := 6 },
   rwr 0x11000 0x6 0x4, rwr 0x11004 0xffff 0x2DB4,
   { base := 0x20000, reset := 0x2004, core := 0xff0f }, ro 0x20004 2, rcc 0x2000C 5, ro 0x20020, ro 0x20100 256,
   ro 0x30000, { base := 0x30004, w1c := 3 }, rcc 0x30008, rcc 0x3000C 4, ro 0x30020 4] ++
  [rwr 0x40000 0xffffff0f 0x330A1404 .run, rwr 0x40004 0xffffffff 0x07D00000 .run, rwr 0x40008 0xff000fff 0x14000100 .run, rwr 0x4000C 0xffffffff 0x7A120 .run,
   rwr 0x40010 0xffff 0x0818, ro 0x40014, rcc 0x40018 2, ro 0x40020, ro 0x40100 10 4 0xFF00, ro 0x40140 10,
   perCore 0x100000 0x0 0x2, perCore 0x100000 0x4, perCore 0x100000 0x8 0 0xf, perCore 0x100000 0xC 0 0 0 2, perCore 0x100000 0x14 0 0 1, perCore 0x100000 0x18 0 0 2,
   perCore 0x100000 0x1C 0 0 1, perCore 0x100000 0x20 0 0 2, perCore 0x100000 0x24 0 0 0 6,
   perCore 0x110000 0x0 0x2, perCore 0x110000 0x4, perCore 0x110000 0x8 0 0x3, perCore 0x110000 0xC, perCore 0x110000 0x10 0 0 1, perCore 0x110000 0x14 0 0 2,
   perCore 0x110000 0x18 0 0 0 5, ro 0x111000, rcc 0x111004,
   perCore 0x120000 0x0 0x2, perCore 0x120000 0x4, perCore 0x120000 0x8 0 0x7, perCore 0x120000 0xC 0 0 0 2, perCore 0x120000 0x14 0 0 1, perCore 0x120000 0x18 0 0 2,
   perCore 0x120000 0x1C 0 0 0 5, rcc 0x121000 2,
   perCore 0x130000 0x0 0x2, perCore 0x130000 0x4, perCore 0x130000 0x8 0 0x7, perCore 0x130000 0xC, perCore 0x130000 0x10 0 0 1, perCore 0x130000 0x14 0 0 2,
   perCore 0x130000 0x18 0 0 0 3, rcc 0x131000 2,
   perCore 0x140000 0x0 0x2, perCore 0x140000 0x4, perCore 0x140000 0x8 0 0x3, perCore 0x140000 0xC 0 0 1, perCore 0x140000 0x10 0 0 2, perCore 0x140000 0x14 0 0 1,
   perCore 0x140000 0x18 0 0 2, perCore 0x140000 0x1C 0 0 0 4, ro 0x141000, rcc 0x141004 7]

/-- A register found: its row and its two indices. -/
structure RegHit where
  row : RegRow
  i : Nat
  j : Nat
  deriving DecidableEq, Repr, Inhabited
/-- Offset `o` in row `r`. -/
def rowHit (r : RegRow) (o : Nat) : Option RegHit :=
  if o < r.base then none else
  let d := o - r.base
  let i := d / r.s1
  if i < r.n1 ∧ (d % r.s1) % r.s2 = 0 ∧ d % r.s1 / r.s2 < r.n2 then some { row := r, i := i, j := d % r.s1 / r.s2 } else none
/-- First byte of die `d`'s window (R344). -/
def dieWin (d : Nat) : Nat := 0x01000000 * (d + 1)
/-- First byte of polder `p`'s queue page among the model's register keys: PF BAR 0 for polder 0, a range of its own for the
VF BAR 0 of polder p. -/
def pageBase (p : Nat) : Nat := if p = 0 then 0x710000 else 0x40000000 + p * 0x40000
/-- The register at a key, if one is listed there (R568). -/
def regHit (o : Nat) : Option RegHit :=
  if 0x01000000 ≤ o ∧ o < 0x09000000 then dieRows.findSome? fun r => rowHit r (o % 0x01000000)
  else if 0x710000 ≤ o ∧ o < 0x720000 then pageRows.findSome? fun r => rowHit r (o - 0x710000)
  else if 0x40000000 ≤ o then pageRows.findSome? fun r => rowHit r (o % 0x40000)
  else pkgRows.findSome? fun r => rowHit r o

/-- One row of R455 and of its like in the twin and fabric chapters: source, count of like sources, scope (0 package, 1 die,
2 core), event reactions, severe reactions, n, W in ms, live. Reactions are bits I 0, T 1, B 2, P 3, F 4, S 5, X 6. -/
abbrev SrcRow := Nat × Nat × Nat × Nat × Nat × Nat × Nat × Bool
/-- The sources and their reset configuration (R455, and the twin and fabric sources of R505 and R532). -/
def srcRows : List SrcRow :=
  [(0x000, 2, 0, 32, 0, 0, 0, false), (0x002, 4, 1, 32, 0, 0, 0, false),
   (0x010, 1, 0, 33, 0, 0, 0, false), (0x011, 1, 1, 65, 0, 0, 0, false), (0x012, 2, 1, 1, 16, 4, 1000, false), (0x014, 2, 1, 17, 32, 2, 100, false),
   (0x016, 1, 0, 17, 0, 0, 0, true), (0x017, 2, 1, 1, 16, 4, 1000, false), (0x019, 2, 0, 17, 0, 0, 0, true), (0x01B, 1, 0, 17, 0, 0, 0, false),
   (0x01C, 1, 0, 1, 0, 0, 0, false), (0x01D, 1, 1, 17, 0, 0, 0, true), (0x01E, 1, 1, 33, 0, 0, 0, false),
   (0x020, 1, 2, 1, 64, 2, 60000, false), (0x021, 1, 2, 1, 64, 1, 0, false), (0x022, 1, 2, 1, 64, 2, 60000, false), (0x023, 1, 1, 1, 64, 2, 60000, false),
   (0x024, 1, 1, 3, 16, 2, 60000, false), (0x025, 1, 1, 1, 0, 0, 0, false), (0x030, 5, 2, 1, 16, 8, 1000, false), (0x035, 6, 1, 1, 16, 8, 1000, false),
   (0x03B, 1, 1, 3, 16, 4, 1000, false), (0x03C, 3, 0, 1, 16, 4, 60000, false), (0x03F, 1, 1, 17, 0, 0, 0, true), (0x040, 2, 1, 17, 0, 0, 0, false),
   (0x080, 4, 0, 1, 16, 16, 1000, false), (0x084, 3, 0, 17, 0, 0, 0, true), (0x087, 1, 0, 17, 0, 0, 0, false), (0x088, 1, 1, 17, 0, 0, 0, true),
   (0x0F0, 1, 1, 3, 32, 2, 1000, false)]
/-- The twin and fabric sources (R505, R532). -/
def srcRows2 : List SrcRow :=
  [(0x050, 2, 0, 17, 0, 0, 0, true), (0x052, 1, 0, 1, 0, 0, 0, false), (0x053, 1, 0, 17, 0, 0, 0, false), (0x054, 2, 0, 1, 16, 4, 1000, false),
   (0x056, 1, 0, 1, 0, 0, 0, false), (0x057, 1, 0, 17, 0, 0, 0, false), (0x058, 1, 0, 17, 0, 0, 0, true), (0x059, 1, 0, 17, 0, 0, 0, false),
   (0x05A, 2, 0, 1, 0, 0, 0, false), (0x060, 1, 0, 1, 0, 0, 0, true), (0x061, 2, 0, 17, 0, 0, 0, true), (0x063, 2, 0, 17, 0, 0, 0, false),
   (0x065, 1, 0, 1, 0, 0, 0, true), (0x066, 1, 0, 17, 0, 0, 0, true), (0x067, 1, 0, 1, 16, 16, 1000, false)]
/-- The row of source `s`, if it is listed. -/
def srcRow (s : Nat) : Option SrcRow := (srcRows ++ srcRows2).find? fun r => decide (r.1 ≤ s) && decide (s < r.1 + r.2.1)
/-- Reset value of WDN_SRC_CFG0_s (R455, R483). -/
def srcCfg0 (s : Nat) : Nat :=
  match srcRow s with
  | none => 0
  | some r => r.2.2.2.1 + 4 * 2 ^ 7 + (if s < 16 then 2 ^ 13 else 0) + r.2.2.1 * 2 ^ 14 + r.2.2.2.2.1 * 2 ^ 16 + r.2.2.2.2.2.1 * 2 ^ 24
/-- Reset value of WDN_SRC_CFG1_s. -/
def srcCfg1 (s : Nat) : Nat :=
  match srcRow s with
  | none => 0
  | some r => 0x3E8 + r.2.2.2.2.2.2.1 * 2 ^ 16

/-- Reset value of the register at key `o`. -/
def regReset (o : Nat) : Nat :=
  match regHit o with
  | none => 0
  | some h =>
    if 0x01000000 ≤ o then (if h.row.base = 0x10000 ∧ o < 0x09000000 then h.i * 0x101 else h.row.reset)
    else if h.row.base = 0x201000 then srcCfg0 h.i
    else if h.row.base = 0x201004 then srcCfg1 h.i
    else if o = 0x780000 then 1 else if o = 0x780004 then 0x100 else if o = 0x780008 then 0x186A0 else if o = 0x78000C then 0x12C
    else if o = 0x780014 then 0x4000 else if o = 0x780018 then 0x10008040 else h.row.reset

/-- Populated dies of a variant (R2, R20). -/
def variantDies : Variant → Nat
  | .kv820 => 2
  | .kv840 => 4
  | .kv880 => 8
/-- BRM_CFG at reset, by variant (R409). -/
def brmReset : Variant → Nat
  | .kv820 => 0xA050A
  | .kv840 => 0xA030A
  | .kv880 => 0xA020A
/-- The registers whose reset value depends on the variant or the fuses. -/
def resetRegs (fz : Fuses) : Tab Word :=
  (0x100800, BitVec.ofNat 32 (brmReset fz.variant)) ::
    [(0x40100C, BitVec.ofNat 32 fz.macBase), (0x401010, BitVec.ofNat 32 (fz.macBase / 2 ^ 32 % 65536))].filter fun x => x.2 != 0

end Sys2Proof.Machine
end

