-- ==== Sys2Proof/Machine/Base.lean ====
section
/-! DEFINITION. What every meaning uses: how a meaning answers, raw registers and counters, time and turns, interrupts, messages to
the warden, replies to commands. -/
namespace Sys2Proof.Machine

/-- The answer of a meaning that changes only the device. Log entry 8 DESIGN CHOICE. -/
def onDev (s : State) (f : Dev → Dev) : Host.Outcome State Fault Refusal := .next { s with dev := f s.dev }
/-- The answer of a meaning that changes only the device and reads the fuses. -/
def onFz (s : State) (f : Fuses → Dev → Dev) : Host.Outcome State Fault Refusal := .next { s with dev := f s.fuses s.dev }
/-- The answer of a meaning that changes the device and the byte memory. -/
def onMem (s : State) (f : Fuses → Mem → Dev → Mem × Dev) : Host.Outcome State Fault Refusal :=
  .next { s with mem := (f s.fuses s.mem s.dev).1, dev := (f s.fuses s.mem s.dev).2 }
/-- The answer of a meaning that acts on die `die`: a die number beyond 7 stops the machine (log entry 3); a die that the package does not have
does nothing (log entry 8). -/
def onDie (s : State) (die : Nat) (f : Fuses → Mem → Dev → Mem × Dev) : Host.Outcome State Fault Refusal :=
  if die ≥ 8 then .fault .illFormed else if die ≥ variantDies s.fuses.variant then .next s else onMem s f
/-- The same for a core of a die. Log entries 3 DESIGN CHOICE, 8 DESIGN CHOICE. -/
def onCore (s : State) (die core : Nat) (f : Fuses → Mem → Dev → Mem × Dev) : Host.Outcome State Fault Refusal :=
  if die ≥ 8 || core ≥ 16 then .fault .illFormed else if die ≥ variantDies s.fuses.variant then .next s else onMem s f
/-- The answer to a command that the state does not enable: nothing changes (log entry 8). -/
def idle (s : State) : Host.Outcome State Fault Refusal := .next s

/-- The stored value of the register at offset `o`. -/
def rget (d : Dev) (o : Nat) : Nat := ((tget d.regs o).map BitVec.toNat).getD (regReset o)
/-- `d` with the register at `o` holding `v`. -/
def rset (d : Dev) (o v : Nat) : Dev := { d with regs := tput d.regs o (BitVec.ofNat 32 v) }
/-- A field of a register replaced. -/
def rfield (d : Dev) (o hi lo v : Nat) : Dev :=
  let r := rget d o
  rset d o (r - bits r hi lo * 2 ^ lo + v % 2 ^ (hi + 1 - lo) * 2 ^ lo)
/-- A saturating counter raised by `n`. -/
def cnt (d : Dev) (o : Nat) (n : Nat := 1) : Dev := if n = 0 then d else rset d o (satInc (rget d o) n)
/-- A wrapping counter raised by `n`. -/
def cntWrap (d : Dev) (o : Nat) (n : Nat := 1) : Dev := if n = 0 then d else rset d o (rget d o + n)
/-- A wrapping 64-bit counter held in two registers. -/
def cnt64 (d : Dev) (lo : Nat) (n : Nat) : Dev :=
  let v := rget d lo + 2 ^ 32 * rget d (lo + 4) + n
  if n = 0 then d else rset (rset d lo v) (lo + 4) (v / 2 ^ 32)
/-- The sticky bits of `m` set. -/
def stick (d : Dev) (o m : Nat) : Dev := rset d o (rget d o ||| m)
/-- Something sent outside. Log entry 5 DESIGN CHOICE. -/
def send (d : Dev) (o : Out) : Dev := { d with out := d.out ++ [o] }
/-- A free value (log entry 2) and the device that has taken it. -/
def freeVal (d : Dev) : Nat × Dev := (Config.freeNat d.free, { d with free := d.free + 1 })

/-- Turn length in ns (R45). -/
def turnLen (d : Dev) : Nat := [10000, 20000, 40000, 50000, 100000].getD (bits (rget d 0x600000) 2 0) 20000
/-- Nominal CCLK cycles of a turn and its last cycle for work (R39). -/
def turnCycles (d : Dev) : Nat := turnLen d * 3 / 2
/-- The last cycle for work W (R39). -/
def workEnd (d : Dev) : Nat := turnCycles d - 48
/-- The ledger turn in which an arrival at `t` is entered (R13). -/
def ledgerOf (d : Dev) (t : Nat) : Nat := (t + 2000) / turnLen d + 1
/-- The ledger turn in which an arrival at `t` is entered: never one that is already sealed (R13), and the first turn's at the earliest (R49).
Before turns run the entry waits under number 0 for the first turn's ledger. Log entry 43 DEDUCED. -/
def entryTurn (d : Dev) (t : Nat) : Nat := if d.time.running then max (ledgerOf d t) (max d.time.first (d.time.sealedTo + 1)) else 0
/-- The start of turn `n` in TAI ns (R46). -/
def turnStart (d : Dev) (n : Nat) : Nat := n * turnLen d
/-- Moving the clock to `t`: time never runs backwards by a command that carries an arrival time. -/
def atTime (d : Dev) (t : Nat) : Dev := { d with time := { d.time with now := max d.time.now t } }

/-- Populated dies (R20). -/
def popDies (fz : Fuses) : Nat := variantDies fz.variant
/-- Die `n` is populated and in the tile map. -/
def dieLive (d : Dev) (n : Nat) : Bool := bitAt d.pkg.live n
/-- Live dies in ascending number. -/
def liveDies (d : Dev) : List Nat := (List.range 8).filter (dieLive d)
/-- Cores of die `n` that are live (R33). -/
def coreLive (fz : Fuses) (d : Dev) (die c : Nat) : Bool :=
  dieLive d die && !bitAt (tgetD fz.coreFused die 0) c && !bitAt (tgetD d.pkg.svc die 0) c
/-- Live cores of a die as a mask. -/
def coreMask (fz : Fuses) (d : Dev) (die : Nat) : Nat :=
  ((List.range 16).map fun c => b2n (coreLive fz d die c) * 2 ^ c).foldl (· + ·) 0

/-- An interrupt of function `fn`, vector `vec`: sent, or pending in the PBA while the vector is masked (R359). Log entry 12 PRESUMED. -/
def irq (d : Dev) (fn vec : Nat) : Dev :=
  let k := fn * 64 + vec
  if d.host.masked.contains k then
    { d with host := { d.host with pba := if d.host.pba.contains k then d.host.pba else d.host.pba ++ [k] } }
  else send d (.irq fn vec)

/-- A timestamp: TCLK time with a resolution of one tick of 4 ns (R41). -/
def stamp (t : Nat) : Nat := t / 4 * 4
/-- A message on its way to the package warden (R449, R450): kind 0 EVENT, 1 ASSERT, 2 DEASSERT, 3 TEST; its timestamp is that of R41. -/
def post (d : Dev) (m : WMsg) : Dev := { d with wdn := { d.wdn with inbox := d.wdn.inbox ++ [{ m with ts := stamp m.ts }] } }
/-- An EVENT of a source. Log entry 75 DEDUCED. -/
def raise (d : Dev) (src die origin detail : Nat) : Dev :=
  post d { src := src, die := die, kind := 0, origin := origin, detail := detail, ts := d.time.now }
/-- A source raised once for each of `k` events (R169, R459). -/
def raiseN (k : Nat) (d : Dev) (src die detail : Nat) : Dev := Nat.repeat (fun d => raise d src die 0 detail) k d
/-- A live condition of object `obj` becomes present: ASSERT, once per object (R455). -/
def assertLive (d : Dev) (src die origin obj : Nat) : Dev :=
  let k := src * 8 + die
  let l := tgetD d.wdn.present k []
  if l.contains obj then d
  else post { d with wdn := { d.wdn with present := tput d.wdn.present k (l ++ [obj]) } }
    { src := src, die := die, kind := 1, origin := origin, detail := obj, ts := d.time.now }
/-- Objects of an instance's condition stand under another die: those of a source of package scope count on one instance (R453, R455). -/
def presentElse (d : Dev) (src die : Nat) : Bool :=
  bits (rget d (0x201000 + 8 * src)) 15 14 == 0 && (List.range 8).any fun x => x != die && !(tgetD d.wdn.present (src * 8 + x) []).isEmpty
/-- A live condition of object `obj` clears: DEASSERT when no object of the source is left in it (R455). -/
def clearLive (d : Dev) (src die origin obj : Nat) : Dev :=
  let k := src * 8 + die
  let l := tgetD d.wdn.present k []
  if !l.contains obj then d
  else
    let d := { d with wdn := { d.wdn with present := tput d.wdn.present k (l.filter (· != obj)) } }
    if (l.filter (· != obj)).isEmpty && !presentElse d src die then
      post d { src := src, die := die, kind := 2, origin := origin, detail := obj, ts := d.time.now }
    else d
/-- A live condition present or not. -/
def setLive (d : Dev) (src die origin obj : Nat) (present : Bool) : Dev :=
  if present then assertLive d src die origin obj else clearLive d src die origin obj

/-- The simplex bit: the package runs in the simplex configuration (R4). -/
def simplex (d : Dev) : Bool := !d.pkg.twin
/-- The package executes turns (R49); a trip has stopped every PLL (R548). Log entry 31 DEDUCED. -/
def running (d : Dev) : Bool := d.time.started && !d.pin.trip

/-- Adding a waiting reply in order of the turn it is due after and of its ledger index (R356, R364). -/
def queueReply (ws : List Reply) (r : Reply) : List Reply :=
  insertBy (fun a b => decide (a.due < b.due) || (a.due == b.due && decide (a.idx ≤ b.idx))) r ws

/-- The 32 bytes of a status reply (R361). -/
def replyBytes (d : Dev) (r : Reply) (phase : Bool) (sq : Nat) (res : Nat) : Bytes :=
  let body := leBytes 4 r.tag ++ leBytes 2 r.status ++ leBytes 6 r.admitted ++ leBytes 6 r.released ++
    leBytes 1 (b2n phase + 2 * b2n (simplex d) + 4 * b2n r.replayed + 8 * sq) ++ leBytes 1 0 ++ leBytes 4 r.detail ++ leBytes 4 res
  body ++ leBytes 4 (crc32c body)

/-- A frame queued for egress; in replay no frame goes to a field port (R87). -/
def egress (d : Dev) (f : EgFrame) : Dev :=
  if d.ldg.replay then d else
  { d with host := { d.host with egress := d.host.egress ++ [{ f with id := d.host.egId }], egId := d.host.egId + 1 } }

/-- The pair generation (R497). -/
def pairGen (d : Dev) : Nat := d.twin.gen
/-- The twin role code of R473: 0 lead, 1 follow, 2 simplex, 3 quarantined. -/
def roleCode (d : Dev) : Nat :=
  if simplex d then 2 else
  match d.twin.role with
  | .lead => 0
  | .solo => 0
  | .follow => 1
  | .attaching => 1
  | .arbitrating => if d.twin.prev = .follow then 1 else 0
  | .detached => 3
  | .quarantined => 3

/-- The 24-byte header of a field frame that the part sends, with its CRC after the payload (R125, R249). Log entry 88 DESIGN CHOICE. -/
def fieldFrame (d : Dev) (ty idx ctr ts valid stop : Nat) (payload : Bytes) : Bytes :=
  let h := leBytes 1 1 ++ leBytes 1 ty ++ leBytes 2 idx ++ leBytes 4 ctr ++ leBytes 8 ts ++ leBytes 2 payload.length ++ leBytes 2 (Config.frameRecords ty) ++
    leBytes 1 (valid + 2 * b2n (simplex d) + 4 * b2n d.ldg.replay + 8 * stop) ++ leBytes 1 0 ++ leBytes 2 (pairGen d)
  h ++ payload ++ leBytes 4 (crc32c (h ++ payload))

/-- The queue pair of polder `p`, queue `q`. -/
def pairKey (p q : Nat) : Nat := p * 8 + q
/-- Register `o` of queue `q` of polder `p`'s page (R379). -/
def pageReg (p q o : Nat) : Nat := pageBase p + 0x1000 + 0x40 * q + o

/-- The replies still due at a pair were discarded after the packet of running count `seq` had been fetched (R350, R357, R387): counts are 32 bits. -/
def lostReply (x : PairRec) (seq : Nat) : Bool :=
  match x.lost with
  | none => false
  | some n => decide ((n + 2 ^ 32 - seq % 2 ^ 32) % 2 ^ 32 < 2 ^ 31)
/-- The reply to a command of running count `seq` waits at its pair; a pair that is disabled or has discarded it drops it (R350, R357). -/
def replyTo (d : Dev) (p q seq : Nat) (r : Reply) : Dev :=
  match tget d.host.pairs (pairKey p q) with
  | none => d
  | some pr =>
    if !(pr.enabled || pr.busy) || lostReply pr seq then d
    else { d with host := { d.host with pairs := tput d.host.pairs (pairKey p q) { pr with waiting := queueReply pr.waiting r } } }
/-- The pair that gave the REPLAY_RUN in progress: in replay the replies to field requests are written to it, since none goes to a field port (R87).
Log entry 95 DESIGN CHOICE. -/
def replayPair (d : Dev) : Option (Nat × Nat × Nat) :=
  match d.ldg.replayRun with
  | some ({ origin := .host p q, seq := n, .. }, _) => some (p, q, n)
  | _ => none
/-- Destination of a reply to a command: its own pair, or the agent's machine controller as a REQUEST_STATUS frame (R361, R377); in replay every reply
goes to the host (R87). -/
def reply (d : Dev) (c : Cmd) (status detail : Nat) (result : Option Bytes) (admitted released due idx : Nat) : Dev :=
  let r : Reply := { tag := c.tag, status := status, admitted := admitted, released := released, detail := detail,
                     result := if status < 0x100 || d.wdn.safe.on then result else none, noIrq := c.noIrq, due := due, idx := idx, replayed := d.ldg.replay }
  match c.origin with
  | .host p q => replyTo d p q c.seq r
  | .field port ag =>
    if d.ldg.replay then ((replayPair d).map fun x => replyTo d x.1 x.2.1 x.2.2 r).getD d else
    let r := { r with result := none }
    match tget d.world.agents ag with
    | none => d
    | some a =>
      let d := { d with world := { d.world with agents := tput d.world.agents ag { a with frames := a.frames + 1 } } }
      egress d { (default : EgFrame) with
                 turn := due, agent := ag, order := 3, port := port, mac := a.bind.ctrlMac, vlan := a.bind.ctrlVlan, pcp := 6,
                 body := fieldFrame d 0x22 ag (a.frames + 1) (turnStart d (due + 1)) 1 0 (replyBytes d r false 0 0xffffffff) }
  | _ => d

/-- The answer to a command in its ledger turn, due after the turn's end (R364). -/
def answer (d : Dev) (c : Cmd) (status detail : Nat) (result : Option Bytes := none) : Dev :=
  reply d c status detail result d.time.turn 0 d.time.turn d.ldg.pos
/-- OK with a detail word. -/
def ok (d : Dev) (c : Cmd) (detail : Nat := 0) (result : Option Bytes := none) : Dev := answer d c 0 detail result

/-- Status codes of R365 that meanings answer with. -/
def stBadCheck : Nat := 0x101
/-- BAD_RANGE. -/
def stBadRange : Nat := 0x102
/-- BAD_STATE. -/
def stBadState : Nat := 0x103
/-- CLASS0_FULL. -/
def stClass0 : Nat := 0x200
/-- STREAM_LIMIT. -/
def stStream : Nat := 0x201
/-- AGENT_LIMIT. -/
def stAgent : Nat := 0x202
/-- POLDER_LIMIT. -/
def stPolder : Nat := 0x203
/-- THREAD_LIMIT. -/
def stThread : Nat := 0x204
/-- MAP_LIMIT. -/
def stMap : Nat := 0x205
/-- MODEL_LIMIT. -/
def stModel : Nat := 0x206
/-- PRIMSET_LIMIT. -/
def stSet : Nat := 0x207
/-- STORE_FULL. -/
def stStore : Nat := 0x208
/-- CANCELLED. -/
def stCancelled : Nat := 0x300
/-- INVALID_SAFE. -/
def stInvalid : Nat := 0x301

/-- The first failed test decides a command's status (R572). -/
def firstFail : List (Bool × Nat × Nat) → Option (Nat × Nat)
  | [] => none
  | (bad, st, det) :: t => if bad then some (st, det) else firstFail t

/-- The polder's record, absent where none is listed. -/
def polder (d : Dev) (p : Nat) : PolderRec := tgetD d.pld p default
/-- A polder's record changed. -/
def modPolder (d : Dev) (p : Nat) (f : PolderRec → PolderRec) : Dev := { d with pld := tput d.pld p (f (polder d p)) }
/-- A dike violation of a polder (R390). Log entry 61 DEDUCED. -/
def dike (d : Dev) (p : Nat) : Dev := modPolder d p fun x => { x with violDike := satInc x.violDike 1 }

end Sys2Proof.Machine
end

