-- ==== Sys2Proof/Machine/Occ.lean ====
section
/-! DEFINITION. Occupancy planes: addressing (R104), bricks and rebasing (R105 to R107), the changes of a version
formation and its delta (R108, R111, R117, R128). -/
namespace Sys2Proof.Machine

/-- Tiles along each axis (R94). -/
def mapTiles (m : MapRec) : V3 :=
  ⟨(m.boxMax.x - m.boxMin.x) / 2 ^ (m.k + 6), (m.boxMax.y - m.boxMin.y) / 2 ^ (m.k + 6), (m.boxMax.z - m.boxMin.z) / 2 ^ (m.k + 4)⟩
/-- Number of tiles of a map. -/
def mapTileCount (m : MapRec) : Nat := let t := mapTiles m; (t.x * t.y * t.z).toNat
/-- A position lies inside a half-open box. Log entry 74 DEDUCED. -/
def inBox (lo hi p : V3) : Bool := V3.all2 (fun a b => decide (a ≤ b)) lo p && V3.all2 (fun a b => decide (a < b)) p hi
/-- Voxel indices of a position (R104). -/
def voxOf (m : MapRec) (p : V3) : V3 := (p.sub m.boxMin).map fun d => floorShr d m.k
/-- Tile number of a voxel (R104). -/
def tileOf (m : MapRec) (v : V3) : Nat :=
  let t := mapTiles m
  (floorShr v.x 6 + t.x * (floorShr v.y 6 + t.y * floorShr v.z 4)).toNat
/-- Brick in tile of a voxel (R104). -/
def brickOf (v : V3) : Nat := (floorShr v.x 4 % 4 + 4 * (floorShr v.y 4 % 4)).toNat
/-- Voxel in brick (R104). -/
def voxInBrick (v : V3) : Nat := (v.x % 16 + 16 * (v.y % 16) + 256 * (v.z % 16)).toNat
/-- Key of a brick: plane, tile, brick. -/
def brickKey (plane tile b : Nat) : Nat := (plane * 65536 + tile) * 16 + b
/-- Key of a voxel among all voxels of a map. -/
def cellKey (m : MapRec) (v : V3) : Nat := (tileOf m v * 16 + brickOf v) * 4096 + voxInBrick v
/-- Voxel indices of a cell key. -/
def cellVox (m : MapRec) (key : Nat) : V3 :=
  let t := mapTiles m
  let v := key % 4096; let b := key / 4096 % 16; let tn := key / 65536
  let tx := (tn : Int) % max 1 t.x; let ty := (tn : Int) / max 1 t.x % max 1 t.y; let tz := (tn : Int) / max 1 t.x / max 1 t.y
  ⟨tx * 64 + (b % 4 : Nat) * 16 + (v % 16 : Nat), ty * 64 + (b / 4 : Nat) * 16 + (v / 16 % 16 : Nat), tz * 16 + (v / 256 : Nat)⟩

/-- Slice number of a TAI time (R106): `sliceMs` is the map's slice length in ms. -/
def sliceOf (tai sliceMs : Nat) : Nat := tai / (max 1 sliceMs * 1000000)
/-- The bit that a probe of slice `σ` reads of a word with base `base` (R106). -/
def probeBit (base σ : Nat) : Nat := min 63 (σ - base)
/-- A word with base `base`, rebased to `σ`: bit t reads as slice σ + t did (R106, R107). -/
def rebase (base σ : Nat) (w : BitVec 64) : BitVec 64 :=
  if base ≤ σ then w.sshiftRight (min 64 (σ - base))
  else
    let d := min 64 (base - σ)
    (w <<< d) ||| (if w.getLsbD 0 then BitVec.ofNat 64 (2 ^ d - 1) else 0)
/-- A brick rebased to `σ`. -/
def rebaseBrick (σ : Nat) (b : Brick) : Brick :=
  { base := σ, words := tfilter (fun _ w => w != 0) (tmap (fun _ w => rebase b.base σ w) b.words) }
/-- The word of a voxel of a plane in a version, as seen from base slice `σ`. -/
def readWord (m : MapRec) (v : MapVer) (plane : Nat) (p : V3) (σ : Nat) : BitVec 64 :=
  match tget v.bricks (brickKey plane (tileOf m p) (brickOf p)) with
  | none => 0
  | some b => rebase b.base σ (tgetD b.words (voxInBrick p) 0)

/-- One voxel's word changed by `f` in a brick table, the brick rebased to `σ`; an all-zero brick becomes absent (R105). -/
def modWord (m : MapRec) (σ plane : Nat) (f : BitVec 64 → BitVec 64) (bs : Tab Brick) (p : V3) : Tab Brick :=
  let key := brickKey plane (tileOf m p) (brickOf p)
  let b := rebaseBrick σ (tgetD bs key { base := σ, words := [] })
  let i := voxInBrick p
  let w := f (tgetD b.words i 0)
  let ws := if w = 0 then tdel b.words i else tput b.words i w
  if ws.isEmpty then tdel bs key else tput bs key { base := σ, words := ws }

/-- The integers from `lo` to `hi`, both included. -/
def irange (lo hi : Int) : List Int := (List.range (hi + 1 - lo).toNat).map fun i : Nat => lo + (i : Int)
/-- The voxels of the box lo to hi (half-open) clipped to the site box; none where it is empty (R108). -/
def voxBox (m : MapRec) (lo hi : V3) : List V3 :=
  let l := lo.zip max m.boxMin; let h := hi.zip min m.boxMax
  if V3.all2 (fun a b => decide (a < b)) l h && V3.all2 (fun a b => decide (a < b)) lo hi then
    let a := voxOf m l; let b := voxOf m (h.sub (V3.of 1))
    (irange a.z b.z).flatMap fun z => (irange a.y b.y).flatMap fun y => (irange a.x b.x).map fun x => ⟨x, y, z⟩
  else []
/-- A voxel lies in the clipped box. -/
def voxInBox (m : MapRec) (lo hi : V3) (p : V3) : Bool :=
  let l := lo.zip max m.boxMin; let h := hi.zip min m.boxMax
  V3.all2 (fun a b => decide (a < b)) l h &&
  (let a := voxOf m l; let b := voxOf m (h.sub (V3.of 1))
   V3.all2 (fun x y => decide (x ≤ y)) a p && V3.all2 (fun x y => decide (x ≤ y)) p b)

/-- A host VOX record (R108), its mask brought from base `σc` to `σ`. -/
def applyVox (m : MapRec) (σ σc : Nat) (bs : Tab Brick) (r : VoxRec) : Tab Brick :=
  let mask := rebase σc σ r.mask
  if r.op = 4 then (voxBox m r.lo r.hi).foldl (modWord m σ r.plane fun w => w ||| mask) bs
  else if r.op = 5 then (voxBox m r.lo r.hi).foldl (modWord m σ r.plane fun w => w &&& ~~~mask) bs
  else tfilter (fun key _ => key / 16 / 65536 != r.plane) bs

/-- The word of reservation cell `c` seen from base `σ`: the OR of the footprints, each read under R106: bit 0 before its base, bit 63 past its end (R160). -/
def footWord (foots : Tab Foot) (skip : Option Nat) (c σ : Nat) : BitVec 64 :=
  foots.foldl (fun w p => if skip = some p.1 then w else w ||| rebase p.2.base σ (tgetD p.2.cells c 0)) 0
/-- A footprint's word with base `base` written into a brick with base `σ`: bits only of the slices that it holds, those past slice σ + 63 in bit 63 (R107). -/
def footShift (base σ : Nat) (w : BitVec 64) : BitVec 64 :=
  if base ≤ σ then rebase base σ w else
  let d := min 64 (base - σ)
  (w <<< d) ||| (if w >>> (64 - d) = 0 then 0 else BitVec.ofNat 64 (2 ^ 63))
/-- The word of reservation cell `c` as a formation with base `σ` writes it: the OR of the footprints (R107). -/
def resvWord (foots : Tab Foot) (skip : Option Nat) (c σ : Nat) : BitVec 64 :=
  foots.foldl (fun w p => if skip = some p.1 then w else w ||| footShift p.2.base σ (tgetD p.2.cells c 0)) 0

/-- The reservation bricks that the cells `cells` lie in, recomputed as the OR of the footprints (R107). -/
def redoResv (σ : Nat) (foots : Tab Foot) (cells : List Nat) (bs : Tab Brick) : Tab Brick :=
  let keys := (cells.map fun c => c / 4096).eraseDups
  keys.foldl (fun bs kb =>
    let vs := (foots.flatMap fun p => (p.2.cells.filter fun e => e.1 / 4096 == kb).map Prod.fst).eraseDups
    let ws := vs.foldl (fun (t : Tab (BitVec 64)) c =>
      let w := resvWord foots none c σ
      if w = 0 then t else tput t (c % 4096) w) []
    let key := brickKey 2 (kb / 16) (kb % 16)
    if ws.isEmpty then tdel bs key else tput bs key { base := σ, words := ws }) bs

/-- Tiles that boxes meet (R213). -/
def metTiles (m : MapRec) (boxes : List (V3 × V3)) : List Nat := (boxes.flatMap fun b => (voxBox m b.1 b.2).map (tileOf m)).eraseDups
/-- Voxel `p` of a map lies in its site box. -/
def voxInSite (m : MapRec) (p : V3) : Bool :=
  let l := m.boxMin.add (p.map fun i => i * 2 ^ m.k)
  V3.all2 (fun a b => decide (a ≤ b)) m.boxMin l && V3.all2 (fun a b => decide (a < b)) l m.boxMax
/-- One change of a formation with base slice `σ`; the change's own bit 0 stands for `σc` (R111, R114). -/
def applyChange (m : MapRec) (σ σc : Nat) (v : MapVer) : Change → MapVer
  | .pred boxes words =>
    -- the words of a pass replace the content of every voxel of the region tiles (R215)
    let tiles := metTiles m boxes
    let cleared : Tab Brick := tfilter (fun k _ => !(decide (k / 16 / 65536 ≤ 1) && tiles.contains (k / 16 % 65536))) v.bricks
    { v with bricks := words.foldl (fun bs w =>
        if tiles.contains (tileOf m w.vox) && voxInSite m w.vox then modWord m σ w.plane (fun _ => rebase σc σ w.word) bs w.vox else bs) cleared }
  | .commit vox stat =>
    let v := match stat with
      | some (_, objs, prims, bvh) => { v with objs := objs, prims := prims, bvh := bvh }
      | none => v
    { v with bricks := vox.foldl (applyVox m σ σc) v.bricks }
  | .blind plane lo hi =>
    if plane ≤ 1 then { v with bricks := (voxBox m lo hi).foldl (modWord m σ plane fun _ => BitVec.allOnes 64) v.bricks } else v
  | .foot agent f =>
    let old := ((tget v.foots agent).map fun x => x.cells.map Prod.fst).getD []
    let new := (f.map fun x => x.cells.map Prod.fst).getD []
    let foots := match f with
      | some x => tput v.foots agent x
      | none => tdel v.foots agent
    { v with foots := foots, bricks := redoResv σ foots (old ++ new) v.bricks }
  | .mirror full base recs =>
    { v with bricks := recs.foldl (fun bs r => match r.2 with
        | none => tdel bs r.1
        | some ws => tput bs r.1 (rebaseBrick σ { base := base, words := ws })) (if full then [] else v.bricks) }

/-- The tiles that a box meets. -/
def boxTiles (m : MapRec) (b : V3 × V3) : List Nat :=
  ((voxBox m b.1 (b.2.add (V3.of 1))).map (tileOf m)).eraseDups
/-- The tiles whose words differ in a plane between two versions, both seen from `σ` (R117). -/
def diffTiles (σ plane : Nat) (a b : Tab Brick) : List Nat :=
  let ks := ((a.map Prod.fst ++ b.map Prod.fst).filter fun k => k / 16 / 65536 == plane).eraseDups
  ((ks.filter fun k =>
    let z : Brick := { base := σ, words := [] }
    let x := tgetD a k z; let y := tgetD b k z
    !(x == y) && !((rebaseBrick σ x).words == (rebaseBrick σ y).words)).map fun k => k / 16 % 65536).eraseDups
/-- The tiles that the static changes of a formation touch: those that meet the box of a primitive that one of its sets added, removed or replaced, be it by its
like (R117). -/
def statTiles (m : MapRec) (objs : Tab Obj) : List Change → List Nat
  | .commit _ (some (ids, objs', _, _)) :: cs =>
    let hit := fun (x : Tab Obj) => (x.filter fun e => ids.contains e.1).flatMap fun e => objPrims 0 e.2
    (hit objs ++ hit objs').flatMap (fun p => boxTiles m (primBox p)) ++ statTiles m objs' cs
  | _ :: cs => statTiles m objs cs
  | [] => []

/-- The version and delta formed from `old` by the changes, turn by turn, with base slice `σ` (R107, R111, R114, R117). -/
def formFrom (m : MapRec) (old : MapVer) (ver σ : Nat) (turns : List PendTurn) : MapVer × Delta :=
  let ordered := fun (t : PendTurn) => sortBy (fun (a b : Nat × Change) => decide (a.1 ≤ b.1)) t.changes
  let v := turns.foldl (fun v t => (ordered t).foldl (fun v c => applyChange m σ t.sigma v c.2) v) { old with ver := ver }
  (v, { ver := ver, hard := diffTiles σ 0 old.bricks v.bricks, risk := diffTiles σ 1 old.bricks v.bricks,
        resv := diffTiles σ 2 old.bricks v.bricks, stat := (statTiles m old.objs (turns.flatMap fun t => (ordered t).map Prod.snd)).eraseDups })

/-- Where a new version `v` of map `h` lies: what it shares with the version before it stays where it is (R105). Log entry 101 DESIGN CHOICE. -/
def placeVer (h : Nat) (old : Option MapVer) (v : MapVer) : VerPlace :=
  let o := old.getD default
  let tileOfKey := fun (k : Nat) => k / 16 % 65536
  let moved := ((v.bricks.filter fun b => tget o.bricks b.1 != some b.2).map Prod.fst ++ (o.bricks.filter fun b => (tget v.bricks b.1).isNone).map Prod.fst).map tileOfKey
  let tiles := (v.bricks.map fun b => tileOfKey b.1).eraseDups
  let put := fun (t : Tab Nat) (k a : Nat) => tput t k a
  let same := old.isSome && o.objs == v.objs
  { root := if old.isSome && moved.isEmpty then o.place.root else Config.rootAddr 0 h v.ver,
    node := if v.bvh.isEmpty then 0 else if same then o.place.node else Config.storeAddr h v.ver 3 0,
    prim := if same then o.place.prim else Config.storeAddr h v.ver 4 0,
    obj := if same then o.place.obj else Config.storeAddr h v.ver 5 0,
    tiles := tiles.foldl (fun t k => put t k (if moved.contains k then Config.storeAddr h v.ver 1 k else tgetD o.place.tiles k 0)) [],
    bricks := v.bricks.foldl (fun t b => put t b.1 (if tget o.bricks b.1 = some b.2 then tgetD o.place.bricks b.1 0
      else Config.storeAddr h v.ver 2 b.1 / 32768 * 32768)) [] }
/-- The 16-byte entry of plane e / 16 and brick e % 16 in the tile node of tile `t` (R105). -/
def brickEntry (v : MapVer) (t e : Nat) : Bytes :=
  let key := brickKey (e / 16) t (e % 16)
  match tget v.bricks key with
  | none => zeros 16
  | some b => leBytes 6 b.base ++ leBytes 1 1 ++ zeros 1 ++ leBytes 8 (tgetD v.place.bricks key 0)
/-- The current version of a map. -/
def curVer (m : MapRec) : Option MapVer := m.vers.getLast?
/-- The live version with number `n`. -/
def verNo (m : MapRec) (n : Nat) : Option MapVer := m.vers.find? fun v => v.ver == n

end Sys2Proof.Machine
end

