-- ==== Sys2Proof/Machine/Solver.lean ====
section
/-! DEFINITION. The solver engine: its arithmetic (R256 to R261), kinematic models (R131), forward kinematics, Jacobians,
inverse kinematics, factorisation, smoothing, torque checks and least squares (R265 to R276), problem and result records. -/
namespace Sys2Proof.Machine

/-- Sticky counts of a problem: acc_sat events and clamped pivots. -/
structure SolFlags where
  sat : Nat := 0
  piv : Nat := 0
  conv : Bool := false
  deriving DecidableEq, Repr, Inhabited
/-- acc_sat of a computation (R256, R258, R261). -/
def SolFlags.accSat (f : SolFlags) : Bool := decide (0 < f.sat) || f.conv
/-- What two computations noted together. -/
def SolFlags.join (a b : SolFlags) : SolFlags := { sat := a.sat + b.sat, piv := a.piv + b.piv, conv := a.conv || b.conv }
/-- A computation that counts saturations and clamped pivots. -/
abbrev Sol := StateM SolFlags

/-- One acc_sat event under R256 or R258 where `b` holds. -/
def noteSat (b : Bool) : Sol Unit := modify fun s => if b then { s with sat := s.sat + 1 } else s
/-- acc_sat of a saturated conversion (R261), which SLV_SAT_CNT does not count. -/
def noteConv (b : Bool) : Sol Unit := modify fun s => if b then { s with conv := true } else s
/-- A product shifted by `s` with the rounding of R256. -/
def mulq (s : Nat) (a b : Int) : Int := if s = 0 then a * b else floorShr (a * b + 2 ^ (s - 1)) s
/-- A sum of terms in a wide accumulator, read out and narrowed to int32 (R256). -/
def accq (ts : List Int) : Sol Int := do
  let r := slvAcc ts
  let v := satS 32 r.1
  noteSat (r.2 || v != r.1)
  pure v
/-- Conversion from `fa` to `fb` fraction bits (R261). -/
def convq (fa fb : Nat) (x : Int) : Sol Int :=
  if fa ≤ fb then do
    let v := satS 32 (x * 2 ^ (fb - fa))
    noteConv (v != x * 2 ^ (fb - fa))
    pure v
  else pure (floorShr (x + 2 ^ (fa - fb - 1)) (fa - fb))
/-- The divider (R258). -/
def divq (a d : Int) : Sol Int :=
  if d = 0 then do
    noteSat true
    pure (if a < 0 then -(2 ^ 31) else 2 ^ 31 - 1)
  else do
    let q := if d < 0 then rdivAway (-(a * 2 ^ 23)) (-d) else rdivAway (a * 2 ^ 23) d
    let v := satS 32 q
    noteSat (v != q)
    pure v
/-- The square root of a sum of squares taken with 2f fraction bits (R256, R259). -/
def normq (xs : List Int) : Sol Nat := do
  let s := (xs.map fun x => x * x).sum
  noteSat (decide (s > 2 ^ 64 - 1))
  pure (isqrt (min s (2 ^ 64 - 1)).toNat)

/-- Scalar product of two vectors with shift `s`, as terms. -/
def dotTerms (s : Nat) (a b : V3) : List Int := [mulq s a.x b.x, mulq s a.y b.y, mulq s a.z b.z]
/-- The terms of each component of a vector product with shift `s`. -/
def crossTerms (s : Nat) (a b : V3) : List Int × List Int × List Int :=
  ([mulq s a.y b.z, -mulq s a.z b.y], [mulq s a.z b.x, -mulq s a.x b.z], [mulq s a.x b.y, -mulq s a.y b.x])
/-- A vector from the terms of its components. -/
def vecAcc (t : List Int × List Int × List Int) : Sol V3 := do
  pure ⟨← accq t.1, ← accq t.2.1, ← accq t.2.2⟩
/-- Term lists joined per component. -/
def vplus (a b : List Int × List Int × List Int) : List Int × List Int × List Int := (a.1 ++ b.1, a.2.1 ++ b.2.1, a.2.2 ++ b.2.2)
/-- A vector as one term per component. -/
def vterm (v : V3) : List Int × List Int × List Int := ([v.x], [v.y], [v.z])
/-- A scalar times a vector with shift `s`, as terms. -/
def scaleTerms (s : Nat) (k : Int) (v : V3) : List Int × List Int × List Int := ([mulq s k v.x], [mulq s k v.y], [mulq s k v.z])
/-- Vector product, narrowed. -/
def crossq (s : Nat) (a b : V3) : Sol V3 := vecAcc (crossTerms s a b)
/-- The terms of matrix times vector with shift `s`. -/
def matVecTerms (s : Nat) (r : List Int) (v : V3) : List Int × List Int × List Int :=
  (dotTerms s (matRow r 0) v, dotTerms s (matRow r 1) v, dotTerms s (matRow r 2) v)
/-- Product of two matrices with shift `s`. -/
def matMul (s : Nat) (a b : List Int) : Sol (List Int) :=
  (List.range 9).mapM fun i => accq (dotTerms s (matRow a (i / 3)) (matCol b (i % 3)))
/-- Transpose. -/
def matT (a : List Int) : List Int := [0, 3, 6, 1, 4, 7, 2, 5, 8].map fun i => a.getD i 0
/-- A vector converted from SC32 to Q8.23 (R261). -/
def toQ823 (v : V3) : Sol V3 := do pure ⟨← convq 16 23 v.x, ← convq 16 23 v.y, ← convq 16 23 v.z⟩

/-! ### Kinematic models (R131) -/

/-- Joints n. -/
def kinN (m : Bytes) : Nat := fld m 1 1
/-- Spheres s. -/
def kinS (m : Bytes) : Nat := fld m 2 1
/-- The chain stands on a planar base. -/
def kinBase (m : Bytes) : Bool := bitAt (fld m 3 1) 0
/-- Byte offset of joint record `j`. -/
def kinJ (j : Nat) : Nat := 64 + 96 * j
/-- Byte offset of sphere record `i`. -/
def kinSph (m : Bytes) (i : Nat) : Nat := 64 + 96 * kinN m + 24 * i
/-- Joint `j` is prismatic. -/
def kinPris (m : Bytes) (j : Nat) : Bool := fld m (kinJ j) 1 == 1
/-- Limits and zero offset of joint `j`. -/
def kinQmin (m : Bytes) (j : Nat) : Int := sfld m (kinJ j + 24) 4
/-- Upper limit. -/
def kinQmax (m : Bytes) (j : Nat) : Int := sfld m (kinJ j + 28) 4
/-- Ingress tolerance. -/
def kinQtol (m : Bytes) (j : Nat) : Int := sfld m (kinJ j + 32) 4
/-- zero_offset of joint `j`. -/
def kinZero (m : Bytes) (j : Nat) : Int := sfld m (kinJ j + 88) 4
/-- Margin added to every radius. -/
def kinMargin (m : Bytes) : Nat := fld m 28 4
/-- Radius plus margin of sphere `i` (R139). -/
def kinRho (m : Bytes) (i : Nat) : Int := ((fld m (kinSph m i + 16) 4 + kinMargin m : Nat) : Int)
/-- Bytes of a kinematic model (R131). -/
def kinSize (m : Bytes) : Nat := 64 + 96 * kinN m + 24 * kinS m

/-- R131: every value of a kinematic model lies in its stated range. -/
def kinOk (m : Bytes) : Bool :=
  let n := kinN m; let s := kinS m
  decide (64 ≤ m.length) && fld m 0 1 == 1 && decide (n ≤ 16) && decide (1 ≤ s) && decide (s ≤ 64) && m.length == kinSize m &&
  decide (fld m 3 1 ≤ 1) && decide (fld m 4 1 ≤ 15) && allZero (slice m 5 3) && quatOk (quatFld m 20) &&
  decide (fld m 28 4 ≤ 65536) && allZero (slice m 48 16) &&
  (List.range n).all (fun j =>
    let o := kinJ j
    decide (fld m o 1 ≤ 1) && allZero (slice m (o + 1) 3) && quatOk (quatFld m (o + 16)) && decide (kinQmin m j < kinQmax m j) &&
    decide (0 ≤ kinQtol m j) && allZero (slice m (o + 92) 4)) &&
  (List.range s).all fun i =>
    let o := kinSph m i
    decide (fld m o 1 ≤ n) && allZero (slice m (o + 1) 3) && decide (1 ≤ fld m (o + 16) 4) && decide (fld m (o + 16) 4 ≤ 2 ^ 20) &&
    allZero (slice m (o + 20) 4)

/-! ### Forward kinematics -/

/-- A link frame: rotation in Q1.30 and position in SC32. -/
abbrev Frame := List Int × V3
/-- Base pose: x and y in SC32, yaw as a turn fraction of R260. -/
structure BasePose where
  x : Int
  y : Int
  yaw : Int
  deriving DecidableEq, Repr, Inhabited

/-- Rotation about z by cosine `c` and sine `s`, as a matrix. -/
def rotZ (c s : Int) : List Int := [c, -s, 0, s, c, 0, 0, 0, 2 ^ 30]

/-- Frame of link 0 (R265). -/
def fkBase (m : Bytes) (b : BasePose) : Sol Frame :=
  let rm := rotMat (quatFld m 20)
  let pm := v3fld m 8
  if kinBase m then do
    let f := angFrac b.yaw
    let rz := rotZ (cosFrac f) (sinFrac f)
    let r ← matMul 30 rz rm
    let p ← vecAcc (vplus (vterm ⟨b.x, b.y, 0⟩) (matVecTerms 30 rz pm))
    pure (r, p)
  else pure (rm, pm)

/-- One joint of the chain (R265). -/
def fkJoint (m : Bytes) (fr : Frame) (j : Nat) (q : Int) : Sol Frame := do
  let o := kinJ j
  let mm ← matMul 30 fr.1 (rotMat (quatFld m (o + 16)))
  let p ← vecAcc (vplus (vterm fr.2) (matVecTerms 30 fr.1 (v3fld m (o + 4))))
  if kinPris m j then
    let p2 ← vecAcc (vplus (vterm p) (scaleTerms 30 q (matCol mm 2)))
    pure (mm, p2)
  else
    let c := cosFrac (angFrac q); let s := sinFrac (angFrac q)
    let c0 := matCol mm 0; let c1 := matCol mm 1
    let a ← vecAcc (vplus (scaleTerms 30 c c0) (scaleTerms 30 s c1))
    let b ← vecAcc (vplus (scaleTerms 30 (-s) c0) (scaleTerms 30 c c1))
    let z := matCol mm 2
    pure ([a.x, b.x, z.x, a.y, b.y, z.y, a.z, b.z, z.z], p)

/-- The frames of links 0 to n (R265); `q` are model values. -/
def fkFrames (m : Bytes) (b : BasePose) (q : List Int) : Sol (List Frame) := do
  let f0 ← fkBase m b
  (List.range (kinN m)).foldlM (fun fs j => do
    let f ← fkJoint m (fs.getLast?.getD f0) j (q.getD j 0)
    pure (fs ++ [f])) [f0]
/-- A point of the frame of link `l`, in the site frame. -/
def fkPoint (fs : List Frame) (l : Nat) (p : V3) : Sol V3 :=
  let f := fs.getD l default
  vecAcc (vplus (vterm f.2) (matVecTerms 30 f.1 p))
/-- The centres of all spheres (R265). -/
def fkSpheres (m : Bytes) (fs : List Frame) : Sol (List V3) :=
  (List.range (kinS m)).mapM fun i => fkPoint fs (fld m (kinSph m i) 1) (v3fld m (kinSph m i + 4))
/-- MACs of a base placement (R266). -/
def baseMacs (m : Bytes) : Nat := if kinBase m then 18 else 0
/-- MACs of one evaluation up to link `l`, the base placement apart, with points or spheres on the links `on`: those on a link that does not move cost nothing
(R262, R266). -/
def chainMacs (m : Bytes) (l : Nat) (on : List Nat) : Nat :=
  ((List.range l).map fun j =>
    let al := (rotMat (quatFld m (kinJ j + 16))).all fun e => e == 0 || e == 2 ^ 30 || e == -(2 ^ 30)
    if kinPris m j then (if al then 12 else 39) else (if al then 23 else 50)).sum + 9 * (on.filter fun x => kinBase m || x != 0).length
/-- MACs of one evaluation with its base placement (R266). -/
def fkMacs (m : Bytes) (l : Nat) (on : List Nat) : Nat := baseMacs m + chainMacs m l on
/-- The links of a model's spheres. -/
def sphereLinks (m : Bytes) : List Nat := (List.range (kinS m)).map fun i => fld m (kinSph m i) 1
/-- MACs of `n` sphere rows of a joint-space candidate, whose base stands still (R267). -/
def rowsMacs (m : Bytes) (n : Nat) : Nat := if n = 0 then 0 else baseMacs m + n * chainMacs m (kinN m) (sphereLinks m)

/-! ### Jacobian and inverse kinematics -/

/-- A degree of freedom (R264): a joint, or base x, y, yaw (0, 1, 2). -/
inductive Dof where
  | joint (j : Nat)
  | base (k : Nat)
  deriving DecidableEq, Repr, Inhabited
/-- The DoF set of a mask (R264). -/
def dofSet (m : Bytes) (mask : Nat) (baseFree : Bool) : List Dof :=
  ((List.range (kinN m)).filter fun j => bitAt mask j).map Dof.joint ++
    (if baseFree && kinBase m then [.base 0, .base 1, .base 2] else [])
/-- One column of the Jacobian (R268): six values in Q8.23. -/
def jacCol (m : Bytes) (b : BasePose) (fs : List Frame) (l : Nat) (x : V3) : Dof → Sol (List Int)
  | .joint j =>
    if l ≤ j then pure [0, 0, 0, 0, 0, 0] else
    let f := fs.getD (j + 1) default
    let z := matCol f.1 2
    if kinPris m j then do
      let v ← [z.x, z.y, z.z].mapM (convq 30 23)
      pure (v ++ [0, 0, 0])
    else do
      let d ← toQ823 (x.sub f.2)
      let lin ← crossq 30 z d
      let v ← [z.x, z.y, z.z].mapM (convq 30 23)
      pure ([lin.x, lin.y, lin.z] ++ v)
  | .base k =>
    if k = 0 then pure [2 ^ 23, 0, 0, 0, 0, 0]
    else if k = 1 then pure [0, 2 ^ 23, 0, 0, 0, 0]
    else do
      let dx ← convq 16 23 (x.x - b.x)
      let dy ← convq 16 23 (b.y - x.y)
      pure [dy, dx, 0, 0, 0, 2 ^ 23]

/-- Entry (i, j) of a square matrix of size `n` in a row list. -/
def ent (a : List (List Int)) (i j : Nat) : Int := (a.getD i []).getD j 0
/-- ldlt_solve of R271 with pivot floor `floor`; `band` limits the columns that a row reaches back to. -/
def ldltSolve (a : List (List Int)) (e : List Int) (floor : Int) (band : Nat) : Sol (List Int) := do
  let r := e.length
  let ks := fun j => (List.range j).drop (j - band)
  -- acc: the rows of L so far (columns complete below), D
  let lu ← (List.range r).foldlM (fun (acc : List (List Int) × List Int) j => do
    let l := acc.1
    let t ← (ks j).mapM fun k => do
      let v ← accq [mulq 23 (ent l j k) (acc.2.getD k 0)]
      pure (k, v)
    let d0 ← accq (ent a j j :: t.map fun p => -mulq 23 (ent l j p.1) p.2)
    let small := decide ((d0.natAbs : Int) < floor)
    modify fun s => if small then { s with piv := s.piv + 1 } else s
    let d := if small then (if d0 < 0 then -floor else floor) else d0
    let col ← (List.range r).mapM fun i =>
      if j < i ∧ i ≤ j + band then do
        let n ← accq (ent a i j :: t.map fun p => -mulq 23 (ent l i p.1) p.2)
        divq n d
      else pure 0
    pure ((l.zip col).map fun p => p.1 ++ [p.2], acc.2 ++ [d])) (List.replicate r [], [])
  let z ← (List.range r).foldlM (fun (z : List Int) j => do
    let v ← accq (e.getD j 0 :: (ks j).map fun k => -mulq 23 (ent lu.1 j k) (z.getD k 0))
    pure (z ++ [v])) []
  let w ← (List.range r).mapM fun j => divq (z.getD j 0) (lu.2.getD j 0)
  (List.range r).reverse.foldlM (fun (y : List Int) j => do
    let v ← accq (w.getD j 0 :: (y.zipIdx.map fun p => if p.2 < band then -mulq 23 (ent lu.1 (j + 1 + p.2) j) p.1 else 0))
    pure (v :: y)) []

/-- The parameters of an IK problem (R269). -/
structure IkParams where
  link : Nat
  point : V3
  goalPos : V3
  goalRot : List Int
  pose : Bool
  dofs : List Dof
  wRot : Int
  lambda : Int
  tol : Int
  stepMax : Int
  floor : Int
  budget : Nat
  deriving DecidableEq, Repr, Inhabited
/-- An IK iterate: joint values and base pose. -/
abbrev IkQ := List Int × BasePose
/-- What an IK problem returns (R270). -/
structure IkOut where
  q : IkQ
  res : Nat
  iters : Nat
  converged : Bool
  deriving DecidableEq, Repr, Inhabited

/-- The error of an iterate (R269) and its frames. -/
def ikError (m : Bytes) (p : IkParams) (q : IkQ) : Sol (List Int × List Frame × V3) := do
  let fs ← fkFrames m q.2 q.1
  let x ← fkPoint fs p.link p.point
  let d ← toQ823 (p.goalPos.sub x)
  if p.pose then
    let rl := (fs.getD p.link default).1
    let re ← matMul 30 p.goalRot (matT rl)
    let g := fun i => re.getD i 0
    let rot ← [g 7 - g 5, g 2 - g 6, g 3 - g 1].mapM fun v => accq [mulq 31 p.wRot v]
    pure ([d.x, d.y, d.z] ++ rot, fs, x)
  else pure ([d.x, d.y, d.z], fs, x)

/-- One update of R269 from iterate `q` with error `e`. -/
def ikUpdate (m : Bytes) (p : IkParams) (q : IkQ) (e : List Int) (fs : List Frame) (x : V3) : Sol IkQ := do
  let r := e.length
  let cols ← p.dofs.mapM fun d => do
    let c ← jacCol m q.2 fs p.link x d
    let a ← (c.drop 3).mapM fun v => accq [mulq 23 v p.wRot]
    pure ((c.take 3 ++ a).take r)
  let jr := fun i => cols.map fun c => c.getD i 0
  let a ← (List.range r).mapM fun i => (List.range r).mapM fun k =>
    accq ((List.zipWith (mulq 23) (jr i) (jr k)) ++ (if i = k then [mulq 23 p.lambda p.lambda] else []))
  let y ← ldltSolve a e p.floor r
  let dq ← cols.mapM fun c => do
    let v ← accq (List.zipWith (mulq 23) c y)
    pure (iclamp v (-p.stepMax) p.stepMax)
  (p.dofs.zip dq).foldlM (fun (q : IkQ) s =>
    match s.1 with
    | .joint j => do
      let d ← if kinPris m j then convq 23 16 s.2 else convq 23 29 s.2
      pure (q.1.set j (iclamp (q.1.getD j 0 + d) (kinQmin m j) (kinQmax m j)), q.2)
    | .base k => do
      let d ← if k = 2 then convq 23 29 s.2 else convq 23 16 s.2
      if k = 0 then do
        let v := satS 32 (q.2.x + d)
        noteSat (v != q.2.x + d)
        pure (q.1, { q.2 with x := v })
      else if k = 1 then do
        let v := satS 32 (q.2.y + d)
        noteSat (v != q.2.y + d)
        pure (q.1, { q.2 with y := v })
      else pure (q.1, { q.2 with yaw := iclamp (q.2.yaw + d) (-1686629713) 1686629713 })) q

/-- The loop of R269 on fuel: `i` iterations made, the best iterate and its residual. -/
def ikLoop (m : Bytes) (p : IkParams) : Nat → Nat → IkQ → IkQ → Nat → Sol IkOut
  | 0, i, _, best, bres => pure { q := best, res := bres, iters := i, converged := false }
  | fuel + 1, i, q, best, bres => do
    let (e, fs, x) ← ikError m p q
    let res ← normq e
    let best' := if res < bres then q else best
    let bres' := min res bres
    if (res : Int) ≤ p.tol then pure { q := best', res := bres', iters := i, converged := true }
    else if i = p.budget then pure { q := best', res := bres', iters := i, converged := false }
    else
      let q' ← ikUpdate m p q e fs x
      ikLoop m p fuel (i + 1) q' best' bres'
/-- An IK problem from its seed. -/
def ikSolve (m : Bytes) (p : IkParams) (seed : IkQ) : Sol IkOut := ikLoop m p (p.budget + 1) 0 seed seed 0xffffffff
/-- Some joint of the iterate lies at a limit (R270). -/
def ikAtLimit (m : Bytes) (q : List Int) : Bool :=
  (List.range (kinN m)).any fun j => q.getD j 0 == kinQmin m j || q.getD j 0 == kinQmax m j

/-! ### Smoothing, torque checks, least squares -/

/-- Largest power of two not above `n`. -/
def pow2Below (n : Nat) : Nat := if n = 0 then 0 else 2 ^ (n.log2)
/-- SMOOTH of one axis (R273): knot times and positions (positions with `fa` fraction bits), end velocities; the velocity and
acceleration at every knot. -/
def smoothAxis (ts : List Int) (qs : List Int) (fa : Nat) (v0 vk floor : Int) : Sol (List (Int × Int)) := do
  let k := ts.length - 1
  let h := fun i => ts.getD (i + 1) 0 - ts.getD i 0
  let s ← (List.range k).mapM fun i => do
    let d ← convq fa 23 (qs.getD (i + 1) 0 - qs.getD i 0)
    divq d (h i)
  let hm := (List.range k).foldl (fun a i => min a (h i)) (h 0)
  let c : Int := (pow2Below hm.toNat : Nat)
  let r ← (List.range k).mapM fun i => divq c (h i)
  let g := fun (l : List Int) i => l.getD i 0
  let n := k - 1
  let rhs ← (List.range n).mapM fun i0 => do
    let i := i0 + 1
    let a := mulq 23 (g r (i - 1)) (g s (i - 1)); let b := mulq 23 (g r i) (g s i)
    let first := if i = 1 then [-mulq 23 (g r 0) v0] else []
    let last := if i = k - 1 then [-mulq 23 (g r (k - 1)) vk] else []
    accq ([a, a, a, b, b, b] ++ first ++ last)
  let mat := (List.range n).map fun i0 => (List.range n).map fun j0 =>
    if i0 = j0 then 2 * (g r i0 + g r (i0 + 1)) else if j0 = i0 + 1 then g r (i0 + 1) else if i0 = j0 + 1 then g r i0 else 0
  let vin ← ldltSolve mat rhs floor 1
  let v := [v0] ++ vin ++ [vk]
  let acc ← (List.range (k + 1)).mapM fun i =>
    if i < k then do
      let num ← accq [6 * g s i, -(4 * g v i), -(2 * g v (i + 1))]
      divq num (h i)
    else do
      let num ← accq [-(6 * g s (k - 1)), 2 * g v (k - 1), 4 * g v k]
      divq num (h (k - 1))
  pure (v.zip acc)

/-- A knot of RNE (R274): joint values, speeds, accelerations; base pose, velocity, acceleration, yaw rate and its rate. -/
structure RneKnot where
  q : List Int
  qd : List Int
  qdd : List Int
  base : BasePose
  vx : Int
  vy : Int
  ax : Int
  ay : Int
  yawRate : Int
  yawAcc : Int
  deriving DecidableEq, Repr, Inhabited
/-- The symmetric inertia matrix of a joint record. -/
def kinInertia (m : Bytes) (j : Nat) : List Int :=
  let f := fun i => sfld m (kinJ j + 64 + 4 * i) 4
  [f 0, f 3, f 4, f 3, f 1, f 5, f 4, f 5, f 2]

/-- Joint torques at one knot (R274). -/
def rneTau (m : Bytes) (k : RneKnot) : Sol (List Int) := do
  let fs ← fkFrames m k.base k.q
  let n := kinN m
  let fr := fun j => fs.getD j default
  let rb ← toQ823 ((fr 0).2.sub ⟨k.base.x, k.base.y, 0⟩)
  let w0 : V3 := ⟨0, 0, k.yawRate⟩
  let dw0 : V3 := ⟨0, 0, k.yawAcc⟩
  let wr ← crossq 23 w0 rb
  let a0 ← vecAcc (vplus (vplus (vterm ⟨k.ax, k.ay, 82264143⟩) (crossTerms 23 dw0 rb)) (crossTerms 23 w0 wr))
  let fwd ← (List.range n).foldlM (fun (st : V3 × V3 × V3 × List (V3 × V3 × V3 × V3)) j => do
    let (w, dw, a, out) := st
    let f := fr (j + 1)
    let z := matCol f.1 2
    let d ← toQ823 (f.2.sub (fr j).2)
    let wd ← crossq 23 w d
    let a ← vecAcc (vplus (vplus (vterm a) (crossTerms 23 dw d)) (crossTerms 23 w wd))
    let wz ← crossq 30 w z
    let qd := k.qd.getD j 0; let qdd := k.qdd.getD j 0
    let (dw, w, a) ← if kinPris m j then do
        let a ← vecAcc (vplus (vplus (vterm a) (scaleTerms 30 qdd z)) (scaleTerms 23 (2 * qd) wz))
        pure (dw, w, a)
      else do
        let dw ← vecAcc (vplus (vplus (vterm dw) (scaleTerms 30 qdd z)) (scaleTerms 23 qd wz))
        let w ← vecAcc (vplus (vterm w) (scaleTerms 30 qd z))
        pure (dw, w, a)
    let c ← vecAcc (matVecTerms 23 f.1 (v3fld m (kinJ j + 52)))
    let wc ← crossq 23 w c
    let ac ← vecAcc (vplus (vplus (vterm a) (crossTerms 23 dw c)) (crossTerms 23 w wc))
    let fj ← vecAcc (scaleTerms 23 (sfld m (kinJ j + 48) 4) ac)
    let ri ← matMul 30 f.1 (kinInertia m j)
    let iw ← matMul 30 ri (matT f.1)
    let iww ← vecAcc (matVecTerms 23 iw w)
    let nj ← vecAcc (vplus (matVecTerms 23 iw dw) (crossTerms 23 w iww))
    pure (w, dw, a, out ++ [(c, fj, nj, d)])) (w0, dw0, a0, [])
  let items := fwd.2.2.2
  let bwd ← (List.range n).reverse.foldlM (fun (st : V3 × V3 × V3 × List Int) j => do
    let (f, mo, d, out) := st
    let (c, fj, nj, dj) := items.getD j default
    let mo ← vecAcc (vplus (vplus (vterm nj) (crossTerms 23 c fj)) (vplus (vterm mo) (crossTerms 23 d f)))
    let f ← vecAcc (vplus (vterm fj) (vterm f))
    let z := matCol (fr (j + 1)).1 2
    let t ← accq (dotTerms 30 z (if kinPris m j then f else mo))
    pure (f, mo, dj, t :: out)) (V3.of 0, V3.of 0, V3.of 0, [])
  pure bwd.2.2.2

/-- The first violation of a knot (R274): joint and kind (1 speed, 2 acceleration, 3 torque, 4 base). -/
def rneViolation (m : Bytes) (k : RneKnot) (tau : List Int) : Sol (Option (Nat × Nat)) := do
  let n := kinN m
  let lim := fun j o => (fld m (kinJ j + o) 4 : Int)
  let ab := fun (x : Int) => (x.natAbs : Int)
  let joint := (List.range n).findSome? fun j =>
    if ab (k.qd.getD j 0) > lim j 36 then some (j, 1)
    else if ab (k.qdd.getD j 0) > lim j 40 then some (j, 2)
    else if ab (tau.getD j 0) > lim j 44 then some (j, 3) else none
  if joint.isSome || !kinBase m then pure joint else do
    let vm ← convq 16 23 (fld m 32 4); let am ← convq 16 23 (fld m 36 4)
    let wm ← convq 29 23 (fld m 40 4); let dm ← convq 29 23 (fld m 44 4)
    let v ← normq [k.vx, k.vy]; let a ← normq [k.ax, k.ay]
    pure (if (v : Int) > vm ∨ (a : Int) > am ∨ ab k.yawRate > wm ∨ ab k.yawAcc > dm then some (0, 4) else none)
/-- The least margin of a knot (R274), if the model has joints. -/
def rneMargin (m : Bytes) (tau : List Int) : Option Int :=
  match (List.range (kinN m)).map fun j => (fld m (kinJ j + 44) 4 : Int) - ((tau.getD j 0).natAbs : Int) with
  | [] => none
  | x :: xs => some (xs.foldl min x)
/-- What RNE over several knots finds: the first violation (knot, joint, kind), the least margin and the torques there. -/
structure RneOut where
  viol : Option (Nat × Nat × Nat) := none
  margin : Option Int := none
  tau : List Int := []
  deriving DecidableEq, Repr, Inhabited
/-- RNE over a list of knots (R274). -/
def rneRun (m : Bytes) (ks : List RneKnot) : Sol RneOut :=
  ks.zipIdx.foldlM (fun (o : RneOut) p => do
    let tau ← rneTau m p.1
    let v ← rneViolation m p.1 tau
    let o := match o.viol, v with
      | none, some x => { o with viol := some (p.2, x.1, x.2) }
      | _, _ => o
    let mg := rneMargin m tau
    pure (match mg, o.margin with
      | some a, none => { o with margin := some a, tau := tau }
      | some a, some b => if a < b then { o with margin := some a, tau := tau } else o
      | none, _ => o)) {}

/-- Least squares (R276): rows of m + 1 values, damping, floor; the solution and residual. -/
def lsqSolve (rows : List (List Int)) (m : Nat) (lambda floor : Int) : Sol (List Int × Nat) := do
  let g := fun (r : List Int) i => r.getD i 0
  let n ← (List.range m).mapM fun i => (List.range m).mapM fun j =>
    accq ((rows.map fun r => mulq 23 (g r i) (g r j)) ++ (if i = j then [mulq 23 lambda lambda] else []))
  let b ← (List.range m).mapM fun i => accq (rows.map fun r => mulq 23 (g r i) (g r m))
  let x ← ldltSolve n b floor m
  let e ← rows.mapM fun r => accq (g r m :: (List.range m).map fun i => -mulq 23 (g r i) (g x i))
  let res ← normq e
  pure (x, res)

/-! ### Problem and result records -/

/-- The agent values that use_agent brings (R262): reported joint values, base pose and velocities of the snapshot, each in the format of the state record: base
speeds in 2^-8 m/s, yaw rate in 2^-29 rad/s, joint speeds in 2^-23. -/
structure SnapVals where
  q : List Int
  base : BasePose
  vx : Int
  vy : Int
  yawRate : Int
  qd : List Int
  deriving DecidableEq, Repr, Inhabited
/-- The values of a state record (R149). -/
def snapOf (m : Bytes) (rec : Bytes) : SnapVals :=
  { q := (List.range (kinN m)).map fun j => sfld rec (32 + 8 * j) 4, base := { x := sfld rec 8 4, y := sfld rec 12 4, yaw := sfld rec 16 4 },
    vx := sfld rec 20 2, vy := sfld rec 22 2, yawRate := sfld rec 24 4, qd := (List.range (kinN m)).map fun j => sfld rec (36 + 8 * j) 4 }
/-- Bytes of a problem record without its padding (R279), where the record itself gives its knots or rows; 0 for an unknown kind. -/
def solveRecRaw (m : Bytes) (kind : Nat) (rec : Bytes) : Nat :=
  let n := kinN m
  let a := if kinBase m then n + 3 else n
  match kind with
  | 1 | 2 => 4 * n + 12
  | 3 => 4 * n + 32
  | 4 => 8 + bits (fld rec 0 2) 11 0 * (12 * n + 16)
  | 5 => 8 + 8 * a + (bits (fld rec 0 2) 11 0 + 1) * (4 + 4 * a)
  | 6 => 8 + 4 * bits (fld rec 0 2) 8 0 * (bits (fld rec 2 1) 4 0 + 1)
  | _ => 0
/-- Length of a problem record (R279): padded to a multiple of 8. -/
def solveRecLen (m : Bytes) (kind : Nat) (rec : Bytes) : Nat := (solveRecRaw m kind rec + 7) / 8 * 8
/-- What one problem leaves: the flags of the result prefix, iterations, residual, body, and MACs. -/
structure SolveOut where
  converged : Bool := true
  budgetEnd : Bool := false
  atLimit : Bool := false
  sat : Nat := 0
  conv : Bool := false
  piv : Nat := 0
  iters : Nat := 0
  residual : Nat := 0
  body : Bytes := []
  macs : Nat := 0
  deriving DecidableEq, Repr, Inhabited
/-- The 16-byte prefix and the padded body (R280). -/
def solveRecord (o : SolveOut) (timeLimited fault : Bool) (fill : Nat) : Bytes :=
  leBytes 1 (b2n (o.converged && !timeLimited && !fault) + 2 * b2n (o.budgetEnd && !timeLimited && !fault) + 4 * b2n timeLimited +
    8 * b2n (0 < o.piv) + 16 * b2n (0 < o.piv) + 32 * b2n (0 < o.sat || o.conv) + 64 * b2n o.atLimit + 128 * b2n fault) ++
  zeros 1 ++ leBytes 2 o.iters ++ leBytes 4 o.residual ++ zeros 8 ++ padTo 8 (if fault then zeros fill else o.body)
/-- Length of a result body before padding (R280). -/
def solveBodyLen (m hdr : Bytes) (rec : Bytes) : Nat :=
  let n := kinN m
  let a := if kinBase m then n + 3 else n
  match fld hdr 0 1 with
  | 1 => (match bits (fld hdr 1 1) 4 3 with | 0 => 12 | 1 => 48 * (n + 1) | _ => 12 * kinS m)
  | 2 => 24 * (dofSet m (fld hdr 10 2) (bitAt (fld hdr 1 1) 1)).length
  | 3 => 4 * n + 12
  | 4 => 8 + 4 * n
  | 5 => 8 * a * (bits (fld rec 0 2) 11 0 + 1)
  | _ => 4 * bits (fld rec 2 1) 4 0

/-- One problem of R263: `hdr` is the 64-byte header of R278, `rec` the problem record, `budget` the iteration budget. -/
def solveProblem (m hdr rec : Bytes) (snap : Option SnapVals) (budget : Nat) : SolveOut :=
  let n := kinN m
  let kind := fld hdr 0 1
  let fl := fld hdr 1 1
  let link := bits (fld hdr 12 1) 4 0
  let point := v3fld hdr 36
  let zq := fun (q : List Int) => q.zipIdx.map fun p => p.1 + kinZero m p.2
  let q0 := match snap with
    | some s => zq s.q
    | none => zq ((List.range n).map fun j => sfld rec (4 * j) 4)
  let base := match snap with
    | some s => s.base
    | none => { x := sfld rec (4 * n) 4, y := sfld rec (4 * n + 4) 4, yaw := sfld rec (4 * n + 8) 4 }
  let dofs := dofSet m (fld hdr 10 2) (bitAt fl 1)
  let mfk := fkMacs m link [link]
  let run : Sol SolveOut :=
    match kind with
    | 1 => do
      let fs ← fkFrames m base q0
      let out := bits fl 4 3
      if out = 0 then
        let p ← fkPoint fs link point
        pure { body := v3bytes p, macs := mfk }
      else if out = 1 then
        pure { body := fs.flatMap fun f => v3bytes f.2 ++ f.1.flatMap (sbytes 4), macs := fkMacs m n [] }
      else
        let cs ← fkSpheres m fs
        pure { body := cs.flatMap v3bytes, macs := fkMacs m n (sphereLinks m) }
    | 2 => do
      let fs ← fkFrames m base q0
      let x ← fkPoint fs link point
      let cols ← dofs.mapM (jacCol m base fs link x)
      pure { body := (List.range 6).flatMap fun i => cols.flatMap fun c => sbytes 4 (c.getD i 0), macs := mfk + 6 * dofs.length }
    | 3 => do
      let p : IkParams :=
        { link := link, point := point, goalPos := v3fld rec (4 * n + 12), goalRot := rotMat (quatFld rec (4 * n + 24)),
          pose := bitAt fl 2, dofs := dofs, wRot := fld hdr 24 4, lambda := fld hdr 16 4, tol := fld hdr 20 4,
          stepMax := fld hdr 28 4, floor := fld hdr 32 4, budget := budget }
      let o ← ikSolve m p (q0, base)
      let r := if bitAt fl 2 then 6 else 3
      let rep := o.q.1.zipIdx.map fun x => x.1 - kinZero m x.2
      pure { converged := o.converged, budgetEnd := !o.converged, atLimit := ikAtLimit m o.q.1, iters := o.iters, residual := o.res,
             body := rep.flatMap (sbytes 4) ++ sbytes 4 o.q.2.x ++ sbytes 4 o.q.2.y ++ sbytes 4 o.q.2.yaw,
             macs := (o.iters + 1) * (mfk + dofs.length * (r * r + 3 * r + 6)) }
    | 4 => do
      let k := bits (fld rec 0 2) 11 0
      let speed := fun (v : Int) => convq 8 23 v
      let vx ← speed ((snap.map SnapVals.vx).getD 0)
      let vy ← speed ((snap.map SnapVals.vy).getD 0)
      let knots := (List.range k).map fun i =>
        let o := 8 + i * (12 * n + 16)
        let f := fun b => (List.range n).map fun j => sfld rec (o + b * 4 * n + 4 * j) 4
        ({ q := zq (f 0), qd := f 1, qdd := f 2, base := (snap.map SnapVals.base).getD default, vx := vx, vy := vy,
           ax := sfld rec (o + 12 * n) 4, ay := sfld rec (o + 12 * n + 4) 4, yawRate := sfld rec (o + 12 * n + 8) 4,
           yawAcc := sfld rec (o + 12 * n + 12) 4 } : RneKnot)
      let o ← rneRun m knots
      let v := o.viol.getD (0, 0, 0)
      pure { atLimit := o.viol.isSome,
             body := leBytes 2 v.1 ++ leBytes 1 v.2.1 ++ leBytes 1 v.2.2 ++ sbytes 4 (o.margin.getD 0) ++ fit (4 * n) (o.tau.flatMap (sbytes 4)),
             macs := k * (96 * n + 24) }
    | 5 => do
      let k := bits (fld rec 0 2) 11 0
      let a := if kinBase m then n + 3 else n
      let o := fun i => 8 + 8 * a + i * (4 + 4 * a)
      let ts := (List.range (k + 1)).map fun i => sfld rec (o i) 4
      let cols ← (List.range a).mapM fun x =>
        let pris := if x < n then kinPris m x else decide (x < n + 2)
        smoothAxis ts ((List.range (k + 1)).map fun i => sfld rec (o i + 4 + 4 * x) 4) (if pris then 16 else 29)
          (sfld rec (8 + 4 * x) 4) (sfld rec (8 + 4 * a + 4 * x) 4) (fld hdr 32 4)
      pure { body := (List.range (k + 1)).flatMap fun i => cols.flatMap fun c => let v := c.getD i (0, 0); sbytes 4 v.1 ++ sbytes 4 v.2,
             macs := 80 * (k + 1) * a }
    | _ => do
      let r := bits (fld rec 0 2) 8 0
      let mm := bits (fld rec 2 1) 4 0
      let rows := (List.range r).map fun i => (List.range (mm + 1)).map fun c => sfld rec (8 + 4 * (i * (mm + 1) + c)) 4
      let o ← lsqSolve rows mm (fld hdr 16 4) (fld hdr 32 4)
      pure { iters := 1, residual := o.2, body := o.1.flatMap (sbytes 4), macs := r * mm * (mm + 3) / 2 + mm * mm * mm }
  let r := run.run {}
  { r.1 with sat := r.2.sat, conv := r.2.conv, piv := r.2.piv }

/-- The ranges of the SOLVE header that no model bears on, its reserved bits 0 (R10, R264, R271, R278). -/
def solveHdrRange (hdr : Bytes) : Bool :=
  decide (1 ≤ fld hdr 0 1) && decide (fld hdr 0 1 ≤ 6) && decide (fld hdr 1 1 < 32) && decide (bits (fld hdr 1 1) 4 3 ≤ 2) &&
  decide (fld hdr 2 2 ≤ 1023) && decide (fld hdr 4 2 ≤ 4095) && decide (fld hdr 6 1 ≤ 127) && decide (1 ≤ fld hdr 7 1) && decide (fld hdr 7 1 ≤ 32) &&
  decide (fld hdr 6 1 + fld hdr 7 1 ≤ 128) && decide (1 ≤ fld hdr 8 2) && decide (fld hdr 8 2 ≤ 1024) &&
  decide (fld hdr 12 1 < 32) && allZero (slice hdr 13 3) && decide (fld hdr 16 4 ≤ 0x800000) && decide (fld hdr 20 4 ≤ 0x7fffffff) &&
  decide (fld hdr 24 4 ≤ 0x8000000) && decide (1 ≤ fld hdr 28 4) && decide (fld hdr 28 4 ≤ 0x800000) &&
  decide (1 ≤ fld hdr 32 4) && decide (fld hdr 32 4 ≤ 0x800000)
/-- The ranges of the SOLVE header, those that the model gives among them (R264, R271, R278). -/
def solveHdrOk (m hdr : Bytes) : Bool :=
  solveHdrRange hdr && decide (fld hdr 12 1 ≤ kinN m) &&
  ((fld hdr 0 1 != 2 && fld hdr 0 1 != 3) ||
    (let k := (dofSet m (fld hdr 10 2) (bitAt (fld hdr 1 1) 1)).length; decide (1 ≤ k) && decide (k ≤ 16)))
/-- The head of a problem record is in range (R279). -/
def solveRecHead (kind : Nat) (rec : Bytes) : Bool :=
  let k := fld rec 0 2
  match kind with
  | 4 => decide (1 ≤ k) && decide (k ≤ 1024) && allZero (slice rec 2 6)
  | 5 => decide (2 ≤ k) && decide (k ≤ 2048) && allZero (slice rec 2 6)
  | 6 => decide (1 ≤ k) && decide (k ≤ 256) && decide (1 ≤ fld rec 2 1) && decide (fld rec 2 1 ≤ 16) && allZero (slice rec 3 5)
  | _ => true
/-- A problem record is in range, its padding 0 (R10, R91, R279). -/
def solveRecOk (m hdr rec : Bytes) : Bool :=
  let n := kinN m
  let a := if kinBase m then n + 3 else n
  let kind := fld hdr 0 1
  solveRecHead kind rec && allZero (slice rec (solveRecRaw m kind rec) (solveRecLen m kind rec - solveRecRaw m kind rec)) &&
  match kind with
  | 3 => quatOk (quatFld rec (4 * n + 24))
  | 5 => (List.range (fld rec 0 2)).all fun i => let o := fun i => 8 + 8 * a + i * (4 + 4 * a)
      decide (sfld rec (o i) 4 < sfld rec (o (i + 1)) 4)
  | _ => true

/-! ### Sphere rows (R267) -/

/-- The first sample outside the joint limits and its lowest joint: `qs` the joint values per sample. -/
def limitSample (m : Bytes) (qs : List (List Int)) : Option (Nat × Nat) :=
  qs.zipIdx.findSome? fun s =>
    ((List.range (kinN m)).find? fun j => decide (s.1.getD j 0 < kinQmin m j) || decide (kinQmax m j < s.1.getD j 0)).map fun j => (s.2, j)
/-- The centres of one sample's spheres, and what the solver noted (R265). -/
def fkCentres (m : Bytes) (base : BasePose) (q : List Int) : List V3 × SolFlags :=
  (do let fs ← fkFrames m base q
      fkSpheres m fs : Sol (List V3)).run {}
/-- One sphere row: the absolute centres in 12 bytes each, padded to whole bank rows (R139). -/
def sphereRow (m : Bytes) (base : BasePose) (q : List Int) : Bytes := padTo 64 ((fkCentres m base q).1.flatMap v3bytes)

/-! ### Primitive sets (R136 to R139) -/

/-- Byte offset of the first primitive record. -/
def setRecOff (s : Bytes) : Nat := if fld s 0 1 = 1 then 64 + (4 * fld s 12 1 + 7) / 8 * 8 else 64
/-- Length of the primitive record at offset `o`. -/
def setRecLen (s : Bytes) (o : Nat) : Nat :=
  if fld s 0 1 = 1 then 32 + 12 * fld s (o + 4) 1 else 16 + 4 * fld s 12 1 * fld s o 1
/-- Byte offsets of the first `n` primitive records. -/
def setOffs (s : Bytes) : Nat → Nat → List Nat
  | 0, _ => []
  | n + 1, o => o :: setOffs s n (o + setRecLen s o)
/-- Offset of primitive `p`. -/
def setOff (s : Bytes) (p : Nat) : Nat := (setOffs s (p + 1) (setRecOff s)).getD p 0
/-- Heading angle of R137. -/
def headAngle (hs : Nat) (d : Int) : Int :=
  let a := rdivAway (d * 3373259426) hs
  if a > 1686629713 then a - 3373259426 else if a < -1686629713 then a + 3373259426 else a
/-- An entry of the swept-sphere table (R139). -/
def setEntry (s model : Bytes) (p i sph : Nat) : V3 :=
  let o := setOff s p
  let hs := fld s 10 1
  let post := (List.range (fld s 12 1)).map fun j => sfld s (64 + 4 * j) 4
  let c := ((do
    let fs ← fkFrames model { x := 0, y := 0, yaw := 0 } post
    fkPoint fs (fld model (kinSph model sph) 1) (v3fld model (kinSph model sph + 4)) : Sol V3).run {}).1
  let f := headFrac (fld s o 2) hs (sfld s (o + 40 + 12 * i) 4)
  let co := cosFrac f; let si := sinFrac f
  ⟨sfld s (o + 32 + 12 * i) 4 + mulq 30 co c.x + mulq 30 (-si) c.y, sfld s (o + 36 + 12 * i) 4 + mulq 30 si c.x + mulq 30 co c.y, c.z⟩

/-- R136 to R138: every value of a primitive set lies in its range; what is compared with the model, the joint count among it, is a reference. -/
def setOk (s : Bytes) : Bool :=
  let kind := fld s 0 1; let cnt := fld s 4 4; let n := fld s 12 1; let smax := fld s 1 1
  let offs := setOffs s cnt (setRecOff s)
  decide (64 ≤ s.length) && decide (1 ≤ kind) && decide (kind ≤ 2) && decide (1 ≤ smax) && decide (smax ≤ 32) && allZero (slice s 2 2) &&
  decide (1 ≤ cnt) && decide (cnt ≤ 65536) && allZero (slice s 13 51) && decide (fld s 8 2 ≤ 1023) &&
  (if kind = 1 then (fld s 10 1 == 8 || fld s 10 1 == 16 || fld s 10 1 == 32) && decide (8 ≤ fld s 11 1) && decide (fld s 11 1 ≤ 20)
   else fld s 10 1 == 0 && fld s 11 1 == 0) &&
  allZero (slice s (64 + 4 * n) (setRecOff s - (64 + 4 * n))) &&
  s.length == (match offs.getLast? with | some o => o + setRecLen s o | none => 0) &&
  offs.all fun o =>
    if kind = 1 then
      let t := fld s (o + 4) 1; let hs := fld s 10 1
      let e := o + 32 + 12 * (t - 1)
      let dx := sfld s e 4; let dy := sfld s (e + 4) 4
      decide (fld s o 2 < hs) && decide (fld s (o + 2) 2 < hs) && decide (1 ≤ t) && decide (t ≤ smax) && decide (fld s (o + 5) 1 < 4) &&
      allZero (slice s (o + 6) 2) && decide (1000000 ≤ fld s (o + 12) 4) && decide (fld s (o + 12) 4 ≤ 3200000000) &&
      allZero (slice s (o + 16) 16) && dx % 2 ^ (fld s 11 1) == 0 && dy % 2 ^ (fld s 11 1) == 0 && decide (dx.natAbs ≤ 2 ^ 24) &&
      decide (dy.natAbs ≤ 2 ^ 24) &&
      decide ((sfld s (e + 8) 4 - headAngle hs ((fld s (o + 2) 2 : Int) - fld s o 2)).natAbs ≤ 524288)
    else
      let t := fld s o 1
      decide (1 ≤ t) && decide (t ≤ smax) && decide (fld s (o + 1) 1 < 2) && allZero (slice s (o + 2) 2) &&
      decide (1000000 ≤ fld s (o + 8) 4) && decide (fld s (o + 8) 4 ≤ 3200000000) && allZero (slice s (o + 12) 4)

end Sys2Proof.Machine
end

