-- ==== Sys2Proof/Machine/Tensor.lean ====
section
/-! DEFINITION. The tensor engine: layer descriptors, the arithmetic of a layer, its status record (R188 to R202), and
network models (R205 to R208, R211). -/
namespace Sys2Proof.Machine

/-- A layer descriptor (R198), or the layer record of a network model (R205). -/
structure Layer where
  op : Nat
  inFmt : Nat
  wFmt : Nat
  outFmt : Nat
  cIn : Nat
  cOut : Nat
  d : Nat
  h : Nat
  w : Nat
  kd : Nat
  kh : Nat
  kw : Nat
  stride : Nat
  pad : Nat
  act : Nat
  inLoc : Nat
  wLoc : Nat
  scLoc : Nat
  outLoc : Nat
  auxLoc : Nat
  e0 : Nat
  sCap : Nat
  thHard : Int
  thRisk : Int
  stLoc : Nat
  resOk : Bool
  deriving DecidableEq, Repr, Inhabited

/-- The reserved bits of a layer descriptor (R198): offset and length in bytes, high and low bit. -/
def layerReserved : List (Nat × Nat × Nat × Nat) :=
  [(1, 1, 7, 3), (2, 1, 7, 3), (3, 1, 7, 3), (4, 2, 15, 13), (6, 2, 15, 13), (8, 2, 15, 11), (10, 2, 15, 11), (12, 2, 15, 11), (14, 1, 7, 3), (15, 1, 7, 3),
   (16, 1, 7, 3), (17, 1, 7, 3), (18, 1, 7, 2), (20, 4, 31, 22), (24, 4, 31, 22), (28, 4, 31, 22), (32, 4, 31, 22), (36, 4, 31, 22), (40, 1, 7, 6),
   (41, 1, 7, 5), (46, 2, 15, 0), (48, 4, 31, 22), (52, 8, 63, 0), (60, 4, 31, 0)]
/-- The layer descriptor in 64 bytes (R198); w_loc and sc_loc with their upper bits, which only a network model may set (R205). -/
def parseLayer (bs : Bytes) : Layer :=
  let b := fun (o n hi : Nat) => bits (fld bs o n) hi 0
  { op := fld bs 0 1, inFmt := b 1 1 2, wFmt := b 2 1 2, outFmt := b 3 1 2, cIn := b 4 2 12, cOut := b 6 2 12,
    d := b 8 2 10, h := b 10 2 10, w := b 12 2 10, kd := b 14 1 2, kh := b 15 1 2, kw := b 16 1 2, stride := b 17 1 2,
    pad := b 18 1 1, act := fld bs 19 1, inLoc := b 20 4 21, wLoc := b 24 4 21, scLoc := b 28 4 21, outLoc := b 32 4 21,
    auxLoc := b 36 4 21, e0 := b 40 1 5, sCap := b 41 1 4, thHard := sfld bs 42 2, thRisk := sfld bs 44 2, stLoc := b 48 4 21,
    resOk := layerReserved.all fun r => bits (fld bs r.1 r.2.1) r.2.2.1 r.2.2.2 == 0 }

/-- A multiply-accumulate layer with weights. -/
def Layer.isMac (l : Layer) : Bool := l.op == 1 || l.op == 2 || l.op == 3
/-- An element-wise operation. -/
def Layer.isElt (l : Layer) : Bool := decide (6 ≤ l.op) && decide (l.op ≤ 9)
/-- Taps of the kernel. -/
def Layer.kvol (l : Layer) : Nat := l.kd * l.kh * l.kw
/-- Output size along one axis of input size `i` and kernel `k` (R199); 0 for a result below 1. -/
def Layer.outDim (l : Layer) (i k : Nat) : Nat :=
  if i + 2 * l.pad < k then 0 else (i + 2 * l.pad - k) / (max 1 l.stride) + 1
/-- Output depth, height and width. -/
def Layer.od (l : Layer) : Nat := l.outDim l.d l.kd
/-- Output height. -/
def Layer.oh (l : Layer) : Nat := l.outDim l.h l.kh
/-- Output width. -/
def Layer.ow (l : Layer) : Nat := l.outDim l.w l.kw
/-- Output positions M. -/
def Layer.m (l : Layer) : Nat := l.od * l.oh * l.ow
/-- Reduction length K (R199). -/
def Layer.k (l : Layer) : Nat :=
  match l.op with
  | 1 => l.cIn
  | 2 => l.cIn * l.kvol
  | 3 => l.kvol
  | 5 => l.kvol
  | 6 => 2
  | 7 => 1
  | _ => 0
/-- Kt of R190. -/
def Layer.kt (l : Layer) : Nat := if l.inFmt = 1 then 128 else 64
/-- Rows of one position of `c` channels in format `f` (R189); BITS positions take a quarter row. -/
def posRows (f c : Nat) : Nat :=
  match f with
  | 1 => (c + 127) / 128
  | 2 => (c + 63) / 64 + 1
  | 3 => (c + 15) / 16
  | _ => (c + 63) / 64
/-- Rows of a whole tensor of `m` positions. -/
def tensorRows (f c m : Nat) : Nat := if f = 4 then (m + 3) / 4 else m * posRows f c
/-- Bytes of a layer's weights (R190). -/
def Layer.wBytes (l : Layer) : Nat :=
  let ot := (l.cOut + 63) / 64
  match l.op with
  | 1 | 2 => ot * ((l.k + l.kt - 1) / l.kt) * (if l.inFmt = 2 then 4224 else 4096)
  | 3 => ot * ((l.kvol + l.kt - 1) / l.kt) * 4096
  | _ => 0
/-- Bytes of a layer's scale table. -/
def Layer.scBytes (l : Layer) : Nat := 8 * l.cOut
/-- Length of a layer in cycles without bank conflicts (R200). -/
def Layer.cycles (l : Layer) : Nat :=
  let e := if l.inFmt = 1 then 128 else 64
  let m := l.m
  let chunks := (m / 512) * 512 + (if m % 512 = 0 then 0 else max (m % 512) 8)
  let c := fun (a b : Nat) => (a + b - 1) / b
  if l.op = 1 ∨ l.op = 2 then 64 + c l.cOut 64 * c l.k l.kt * chunks
  else if l.op = 3 then 64 + c l.cOut e * c m 64 * c l.kvol e * e
  else if l.op = 4 ∨ l.op = 5 then 64 + c l.cOut e * m * l.kvol
  else 64 + 2 * c l.cOut e * m

/-- The fault code that a layer shows without its locations (R202): 0 none, 1 field out of range, 2 format, 6 K limit. -/
def Layer.shapeFault (l : Layer) : Nat :=
  let rng := l.resOk && decide (1 ≤ l.op) && decide (l.op ≤ 9) && decide (1 ≤ l.cIn) && decide (l.cIn ≤ 4096) && decide (1 ≤ l.cOut) &&
    decide (l.cOut ≤ 4096) && decide (1 ≤ l.d) && decide (l.d ≤ 1024) && decide (1 ≤ l.h) && decide (l.h ≤ 1024) &&
    decide (1 ≤ l.w) && decide (l.w ≤ 1024) && decide (l.d * l.h * l.w ≤ 65536) && decide (1 ≤ l.kd) && decide (l.kd ≤ 7) &&
    decide (1 ≤ l.kh) && decide (l.kh ≤ 7) && decide (1 ≤ l.kw) && decide (l.kw ≤ 7) && decide (1 ≤ l.stride) && decide (l.stride ≤ 7) &&
    (decide (l.act ≤ 3) || l.act == 0xff) && decide (l.e0 ≤ 62) && decide (l.sCap ≤ 20) && decide (1 ≤ l.m) &&
    (l.op == 1 || l.op == 2 || l.cOut == l.cIn) && (l.op != 1 || (l.kvol == 1 && l.stride == 1 && l.pad == 0)) &&
    (l.outFmt != 4 || (l.cOut == 64 && decide (l.thRisk ≤ l.thHard)))
  let fmt := decide (l.inFmt ≤ 2) && decide (l.outFmt ≤ 4) && (!l.isMac || l.wFmt == l.inFmt) &&
    (decide (l.op ≤ 2) || decide (l.inFmt ≤ 1)) && (l.inFmt != 2 || (l.cIn % 32 == 0 && decide (l.cIn ≤ 2048))) &&
    (l.outFmt != 2 || (l.cOut % 32 == 0 && decide (l.cOut ≤ 2048)))
  let kok := if l.op = 1 ∨ l.op = 2 then
      (if l.inFmt = 2 then decide (l.k ≤ min 65536 (2 ^ (29 - l.sCap))) else decide (l.k ≤ 65536)) else true
  if !rng then 1 else if !fmt then 2 else if !kok then 6 else 0

/-- Signed element `i` of a row of elements in format `f` at `a` (INT8, INT4 and BF8 mantissas). -/
def elemAt (mem : Mem) (f a i : Nat) : Int :=
  if f = 1 then sx 4 ((mget mem (a + i / 2)).toNat / (if i % 2 = 0 then 1 else 16)) else sx 8 (mget mem (a + i)).toNat
/-- Element (p, c) of an activation tensor at `a` (R189). -/
def actAt (mem : Mem) (f a ch p c : Nat) : Int :=
  let e := if f = 1 then 128 else 64
  elemAt mem f (a + (p * posRows f ch + c / e) * 64) (c % e)
/-- Shared exponent of the block of channel `c` at position `p` of a BF8 tensor. -/
def actExp (mem : Mem) (a ch p c : Nat) : Nat := (mget mem (a + (p * posRows 2 ch + (ch + 63) / 64) * 64 + c / 32)).toNat % 32
/-- Weight of output `o`, K index `k` (R190). -/
def weightAt (mem : Mem) (l : Layer) (a o k : Nat) : Int :=
  let nk := (l.k + l.kt - 1) / l.kt
  let tile := if l.inFmt = 2 then 4224 else 4096
  elemAt mem l.inFmt (a + ((o / 64) * nk + k / l.kt) * tile + (o % 64) * 64) (k % l.kt)
/-- Shared exponent of a BF8 weight block (R190). -/
def weightExp (mem : Mem) (l : Layer) (a o k : Nat) : Nat :=
  let nk := (l.k + l.kt - 1) / l.kt
  (mget mem (a + ((o / 64) * nk + k / 64) * 4224 + 4096 + 2 * (o % 64) + k % 64 / 32)).toNat % 32

/-- The input position under tap `t` of output position `p`, if inside the tensor (R199). -/
def tapPos (l : Layer) (p t : Nat) : Option Nat :=
  let ox := p % l.ow; let oy := p / l.ow % l.oh; let oz := p / l.ow / l.oh
  let kx := t % l.kw; let ky := t / l.kw % l.kh; let kz := t / l.kw / l.kh
  let f := fun (o k n : Nat) => let i := o * l.stride + k
    if l.pad ≤ i ∧ i - l.pad < n then some (i - l.pad) else none
  match f ox kx l.w, f oy ky l.h, f oz kz l.d with
  | some x, some y, some z => some (x + l.w * (y + l.h * z))
  | _, _, _ => none

/-- The term of one BF8 block under R191: the shifted sum and whether the shift was capped. -/
def bf8Term (p : Int) (ea ew e0 cap : Nat) : Int × Bool :=
  let s := (ea : Int) + ew - e0
  if s > cap then (p * 2 ^ cap, true)
  else if s ≥ 0 then (p * 2 ^ s.toNat, false) else (floorShr p (-s).toNat, false)

/-- Terms of an accumulator (R199) and whether a BF8 shift was capped. An element-wise operation takes the elements under its first tap. Log entry 106
DEDUCED. -/
def layerTerms (mem : Mem) (l : Layer) (inA wA auxA p o : Nat) (sc : Bytes) : List Int × Bool :=
  let bias := sfld sc 0 4
  let a := fun q c => actAt mem l.inFmt inA l.cIn q c
  let tapA := fun t c => match tapPos l p t with
    | some q => a q c
    | none => 0
  let aux := match tapPos l p 0 with
    | some q => actAt mem l.inFmt auxA l.cIn q o
    | none => 0
  match l.op with
  | 1 | 2 =>
    let src := fun t c => if l.op = 1 then a p c else tapA t c
    if l.inFmt = 2 then
      let r := (List.range (l.k / 32)).map fun b =>
        let t := b * 32 / l.cIn; let c0 := b * 32 % l.cIn
        let q := if l.op = 1 then some p else tapPos l p t
        let s := ((List.range 32).map fun j => src t (c0 + j) * weightAt mem l wA o (b * 32 + j)).sum
        match q with
        | some q => bf8Term s (actExp mem inA l.cIn q c0) (weightExp mem l wA o (b * 32)) l.e0 l.sCap
        | none => (0, false)
      (bias :: r.map Prod.fst, r.any Prod.snd)
    else (bias :: (List.range l.k).map (fun k => src (k / l.cIn) (k % l.cIn) * weightAt mem l wA o k), false)
  | 3 =>
    let g := (l.kvol + l.kt - 1) / l.kt
    (bias :: (List.range l.kvol).map (fun t =>
      tapA t o * elemAt mem l.inFmt (wA + (((o / 64) * g + t / l.kt) * 64 + o % 64) * 64) (t % l.kt)), false)
  | 4 => match (List.range l.kvol).map (fun t => tapA t o) with
    | [] => ([], false)
    | x :: xs => ([xs.foldl max x], false)
  | 5 => (bias :: (List.range l.kvol).map (fun t => tapA t o), false)
  | 6 => ([tapA 0 o * sfld sc 4 2 + aux * sfld sc 0 2], false)
  | 7 => ([bias, tapA 0 o * aux], false)
  | 8 => ([max (tapA 0 o) aux], false)
  | _ => ([min (tapA 0 o) aux], false)

/-- Requantisation (R194) and the table (R195): v, y and the clamps counted. -/
def requant (l : Layer) (tab : Nat → Nat) (sc : Bytes) (acc : Int) : Int × Int × Nat :=
  let mult := if l.op = 6 then 1 else sfld sc 4 2
  let sh := bits (fld sc 6 1) 5 0
  let v0 := floorShr (acc * mult + (if sh = 0 then 0 else 2 ^ (sh - 1))) sh
  let v := satS (if l.outFmt = 3 then 32 else 16) v0
  if l.act = 0xff then (v, v, b2n (v != v0))
  else
    let u := (v + 32768).toNat
    let e := tab (min 255 (u / 256))
    let y0 := sx 16 e + floorShr (sx 16 (e / 2 ^ 16) * (u % 256 : Nat)) 8
    let y := satS 16 y0
    (v, y, b2n (v != v0) + b2n (y != y0))

/-- Bytes of one output position in format `f` (R189, R196, R197), and the clamps counted. `vy` holds v and y by channel. -/
def packPos (l : Layer) (vy : List (Int × Int)) : Bytes × Nat :=
  let ys := vy.map Prod.snd
  match l.outFmt with
  | 3 => (fit (64 * posRows 3 l.cOut) (vy.flatMap fun p => sbytes 4 p.1), 0)
  | 4 =>
    let word := fun (f : Int → Bool) => (ys.zipIdx.map fun p => if f p.1 then 2 ^ p.2 else 0).sum
    (leBytes 8 (word fun y => decide (l.thHard ≤ y)) ++ leBytes 8 (word fun y => decide (l.thRisk ≤ y) && decide (y < l.thHard)), 0)
  | 2 =>
    let blocks := (List.range (l.cOut / 32)).map fun b => (ys.drop (32 * b)).take 32
    let fits := fun (e : Nat) (b : List Int) => b.all fun y => decide (-128 ≤ floorShr y e) && decide (floorShr y e ≤ 127)
    let es := blocks.map fun b => ((List.range 32).find? fun e => fits e b).getD 31
    let mant := (blocks.zip es).flatMap fun p => p.1.flatMap fun y => sbytes 1 (floorShr y p.2)
    (fit (64 * ((l.cOut + 63) / 64)) mant ++ fit 64 (es.flatMap fun e => leBytes 1 e), 0)
  | 1 =>
    let q := ys.map fun y => iclamp y (-8) 7
    let byte := fun i => leBytes 1 (tc 4 (q.getD (2 * i) 0) + 16 * tc 4 (q.getD (2 * i + 1) 0))
    (fit (64 * posRows 1 l.cOut) ((List.range ((l.cOut + 1) / 2)).flatMap byte), (List.zipWith (fun a b => b2n (a != b)) q ys).sum)
  | _ =>
    let q := ys.map fun y => iclamp y (-128) 127
    (fit (64 * posRows 0 l.cOut) (q.flatMap fun y => sbytes 1 y), (List.zipWith (fun a b => b2n (a != b)) q ys).sum)

/-- What a layer leaves: its output bytes, saturated readouts, clamps, and acc_sat. -/
structure LayerOut where
  out : Bytes := []
  sat : Nat := 0
  clamp : Nat := 0
  accSat : Bool := false
  deriving DecidableEq, Repr, Inhabited

/-- The output of a layer whose input, weights, scale table and aux input lie at the addresses given (R192 to R199). -/
def layerRun (mem : Mem) (l : Layer) (tab : Nat → Nat) (inA wA scA auxA : Nat) : LayerOut :=
  let r := (List.range l.m).foldl (fun (acc : LayerOut) p =>
    let chs := (List.range l.cOut).map fun o =>
      let sc := mgets mem (scA + 8 * o) 8
      let ts := layerTerms mem l inA wA auxA p o sc
      let a := tnsAcc ts.1
      let q := requant l tab sc a.1
      (q, a.2, ts.2)
    let pk := packPos l (chs.map fun c => (c.1.1, c.1.2.1))
    { out := acc.out ++ pk.1, sat := acc.sat + (chs.map fun c => b2n c.2.1).sum,
      clamp := acc.clamp + (chs.map fun c => c.1.2.2).sum + pk.2, accSat := acc.accSat || chs.any fun c => c.2.1 || c.2.2 }) {}
  { r with out := padTo 64 r.out }

/-- The 64-byte layer status record (R201). -/
def layerStatus (accSat : Bool) (fault sat clamp cycles : Nat) : Bytes :=
  leBytes 1 (b2n accSat + 2 * b2n (fault != 0)) ++ leBytes 1 fault ++ zeros 2 ++ leBytes 4 sat ++ leBytes 4 clamp ++
    leBytes 4 cycles ++ zeros 48

/-- The scale table of a layer is in range (R194, R198): shifts to 47, byte 7 zero, and bytes 2 and 3 zero for ELT_ADD. Log entry 106 DEDUCED. -/
def scalesOk (l : Layer) (entry : Nat → Bytes) : Bool :=
  (List.range l.cOut).all fun o =>
    let e := entry o
    decide (bits (fld e 6 1) 5 0 ≤ 47) && fld e 7 1 == 0 && (l.op != 6 || fld e 2 2 == 0)

/-- Two byte ranges share a byte. -/
def rangesMeet (a n b m : Nat) : Bool := decide (a < b + m) && decide (b < a + n) && decide (0 < n) && decide (0 < m)
/-- The rows from a 22-bit location lie inside their bank. -/
def locOk (v rows : Nat) : Bool := decide (bits v 17 0 + rows ≤ bankRows)

/-- The fault code of a layer on core `core` of die `die`, whose banks are those that `owned` lists, in memory as the core reads it (R202). Log entry 106
DEDUCED. -/
def layerFault (owned : Nat → Bool) (mem : Mem) (die core : Nat) (l : Layer) : Nat :=
  if l.shapeFault ≠ 0 then l.shapeFault else
  let inR := tensorRows l.inFmt l.cIn (l.d * l.h * l.w)
  let outR := tensorRows l.outFmt l.cOut l.m
  let wR := (l.wBytes + 63) / 64
  let scR := (l.scBytes + 63) / 64
  let loc := locOk l.inLoc inR && locOk l.outLoc outR && locOk l.stLoc 1 && (!l.isElt || locOk l.auxLoc inR) &&
    (!l.isMac || decide (l.wLoc + wR ≤ 131072)) && decide (l.scLoc + scR ≤ 131072)
  let bank := fun v => owned (bits v 21 18)
  let own := bank l.inLoc && bank l.outLoc && bank l.stLoc && (!l.isElt || bank l.auxLoc) && owned core
  let oA := rowField die l.outLoc
  let ov := rangesMeet oA (64 * outR) (rowField die l.inLoc) (64 * inR) ||
    (l.isElt && rangesMeet oA (64 * outR) (rowField die l.auxLoc) (64 * inR)) ||
    (l.isMac && rangesMeet oA (64 * outR) (rowAddr die core l.wLoc) (64 * wR))
  if !loc then 3 else if !own then 4 else if ov then 5
  else if !scalesOk l fun o => mgets mem (rowAddr die core l.scLoc + 8 * o) 8 then 1 else 0

/-! ### Network models -/

/-- Header fields of a network model (R205). -/
def netLayers (raw : Bytes) : List Layer := (List.range (fld raw 1 1)).map fun i => parseLayer (slice raw (64 + 64 * i) 64)
/-- Offset of the activation tables. -/
def netTabOff (raw : Bytes) : Nat := 64 + 64 * fld raw 1 1
/-- Offset of the weight blob. -/
def netBlobOff (raw : Bytes) : Nat := netTabOff raw + 1024 * fld raw 2 1
/-- Size that the header says the definition has. -/
def netSize (raw : Bytes) : Nat := netBlobOff raw + fld raw 8 4
/-- Entry `i` of activation table `t` of a network model. -/
def netTable (raw : Bytes) (t i : Nat) : Nat := fld raw (netTabOff raw + 1024 * t + 4 * i) 4
/-- Edges of a predictor's tile in cells: X, Y, Z (R211). -/
def predCells (raw : Bytes) : Nat × Nat × Nat := let e := bits (fld raw 3 1) 1 0; (64 / 2 ^ e, 64 / 2 ^ e, 16 / 2 ^ e)

/-- Buffers and formats: what a layer may read (R206): format, channels, depth, height, width by buffer. -/
def netFlow (raw : Bytes) : Bool :=
  let kind := fld raw 0 1
  let c := predCells raw; let r := fld raw 5 1
  let start : Tab (List Nat) := if kind = 3 then [(0, [0, 64, 1, 1, 256])]
    else [(0, [0, 4 * fld raw 4 1, c.2.2 + 2 * r, c.2.1 + 2 * r, c.1 + 2 * r])]
  ((netLayers raw).foldl (fun (acc : Bool × Tab (List Nat)) l =>
    let want := [l.inFmt, l.cIn, l.d, l.h, l.w]
    let ok := tget acc.2 (l.inLoc % 8) == some want && (!l.isElt || tget acc.2 (l.auxLoc % 8) == some want)
    (acc.1 && ok, tput acc.2 (l.outLoc % 8) [l.outFmt, l.cOut, l.od, l.oh, l.ow])) (true, start)).1

/-- R206: the definition of a network model breaks none of its rules. -/
def netOk (raw : Bytes) : Bool :=
  let kind := fld raw 0 1
  let ls := netLayers raw
  let last := ls.getLast?.getD default
  let c := predCells raw
  let hdr := decide (64 ≤ raw.length) && decide (1 ≤ fld raw 1 1) && decide (fld raw 1 1 ≤ 64) && decide (fld raw 2 1 ≤ 4) &&
    decide (fld raw 3 1 ≤ 2) && fld raw 8 4 % 64 == 0 && decide (fld raw 8 4 ≤ 268435456) && raw.length == netSize raw &&
    allZero (slice raw 12 52) && fld raw 7 1 == 0
  let perKind := if kind = 2 then
      decide (1 ≤ fld raw 4 1) && decide (fld raw 4 1 ≤ 16) && decide (fld raw 5 1 ≤ 8) && fld raw 6 1 == 0 &&
      last.outLoc % 8 == 1 && last.outFmt == 4 && last.cOut == 64 && last.ow == c.1 && last.oh == c.2.1 && last.od == c.2.2
    else
      fld raw 3 1 == 0 && fld raw 4 1 == 0 && fld raw 5 1 == 0 && decide (fld raw 6 1 ≤ 24) &&
      ls.all (fun l => (l.op == 1 || l.isElt) && l.w == 256) && last.outLoc % 8 == 1 && last.outFmt == 3 && last.cOut == 1
  let perLayer := ls.all fun l => l.shapeFault == 0 && decide (l.wBytes + l.scBytes ≤ 8388608) &&
    (l.act == 0xff || decide (l.act < fld raw 2 1)) && l.stLoc == 0 && decide (l.inLoc < 8) && decide (l.auxLoc < 8) && decide (l.outLoc < 8)
  hdr && perLayer && perKind && netFlow raw

/-- What running a network model gives: buffer 1's bytes, acc_sat in any layer, whether a layer was a descriptor fault, and what its layers count in the TNS
block: layers, MACs, saturated readouts, clamps, cycles lost in banks, and the last layer's length (R200, R217). -/
structure NetOut where
  out : Bytes := []
  accSat : Bool := false
  fault : Bool := false
  layers : Nat := 0
  macs : Nat := 0
  sat : Nat := 0
  clamp : Nat := 0
  lost : Nat := 0
  cyc : Nat := 0
  deriving DecidableEq, Repr, Inhabited
/-- MACs of a layer. -/
def Layer.macs (l : Layer) : Nat := if l.isMac then l.m * l.k * l.cOut else 0
/-- Running a network model: buffer 0 holds `input`; `batch` replaces in_w for a heuristic (R208). A layer with a descriptor fault leaves its output zero
(R202) and counts. Log entries 105 DESIGN CHOICE, 106 DEDUCED. -/
def netRun (raw input : Bytes) (batch : Option Nat) : NetOut :=
  let buf := fun b => (b + 1) * 2 ^ 40
  let blob := 9 * 2 ^ 40
  let mem0 := mputs (mputs [] blob (raw.drop (netBlobOff raw))) (buf 0) input
  let size := fun (l : Layer) => match batch with
    | some n => { l with w := n }
    | none => l
  let r := (netLayers raw).foldl (fun (acc : Mem × NetOut) l0 =>
    let l := size l0
    if l.shapeFault ≠ 0 || !scalesOk l fun o => mgets acc.1 (blob + 64 * l.scLoc + 8 * o) 8 then
      (mfill acc.1 (buf (l.outLoc % 8)) (64 * tensorRows l.outFmt l.cOut l.m) 0, { acc.2 with fault := true, layers := acc.2.layers + 1, cyc := 64 }) else
    let lost := Config.portLoss (raw, input, acc.2.layers)
    let o := layerRun acc.1 l (netTable raw l.act) (buf (l.inLoc % 8)) (blob + 64 * l.wLoc) (blob + 64 * l.scLoc) (buf (l.auxLoc % 8))
    (mputs acc.1 (buf (l.outLoc % 8)) o.out,
     { acc.2 with accSat := acc.2.accSat || o.accSat, layers := acc.2.layers + 1, macs := acc.2.macs + l.macs, sat := acc.2.sat + o.sat,
                  clamp := acc.2.clamp + o.clamp, lost := acc.2.lost + lost, cyc := l.cycles + lost })) (mem0, {})
  let last := size ((netLayers raw).getLast?.getD default)
  { r.2 with out := mgets r.1 (buf 1) (64 * tensorRows last.outFmt last.cOut last.m) }

/-- C_tile of a predictor model (R212). -/
def predTileCost (raw : Bytes) : Nat :=
  let c := predCells raw
  ((netLayers raw).map Layer.cycles).sum + 64 + c.1 * c.2.1 * c.2.2 / 2

end Sys2Proof.Machine
end

