-- ==== Sys2Proof/Machine/Store.lean ====
section
/-! DEFINITION. The world store (R28, R121, R144, R207, R213): what each object is charged, what is free; the program image's
header and predictor slots (R305, R212); pins and live versions (R113, R134, R142). -/
namespace Sys2Proof.Machine

/-! ### The active image (R305) -/

/-- The bytes of image slot `i`. -/
def imgRaw (d : Dev) (i : Nat) : Bytes := ((tget d.img.slots i).map (·.raw)).getD []
/-- The active image. -/
def actImg (d : Dev) : Bytes := imgRaw d d.img.active
/-- content_id of an image. -/
def imgContent (raw : Bytes) : Nat := fld raw 8 4
/-- Segments of an image. -/
def imgSegs (raw : Bytes) : Nat := bits (fld raw 2 2) 10 0
/-- Predictor slots of an image. -/
def imgPreds (raw : Bytes) : Nat := bits (fld raw 17 1) 3 0
/-- Byte offset of predictor slot record `i`. -/
def imgPredOff (raw : Bytes) (i : Nat) : Nat := 64 + 8 * imgSegs raw + 16 * i
/-- Byte offset of the first bundle. -/
def imgBundles (raw : Bytes) : Nat := imgPredOff raw (imgPreds raw)
/-- A predictor slot (R212): reserve, latency, tile limit, least live cores, cost limit. -/
structure PredSlot where
  rp : Nat
  lp : Nat
  pMax : Nat
  mMin : Nat
  cMax : Nat
  deriving DecidableEq, Repr, Inhabited
/-- Predictor slot `i` of an image. -/
def predSlot (raw : Bytes) (i : Nat) : PredSlot :=
  let o := imgPredOff raw i
  { rp := fld raw o 2, lp := fld raw (o + 2) 2, pMax := fld raw (o + 4) 2, mMin := fld raw (o + 6) 1, cMax := fld raw (o + 12) 4 }
/-- The counts field of an image (R307). -/
def imgCounts (raw : Bytes) : Nat := fld raw 36 2

/-! ### Versions and pins -/

/-- Queries that hold pins: admitted to work and not ended. -/
def liveQueries (d : Dev) : Tab QueryRec := tfilter (fun _ q => q.stage != .ended) d.q.recs
/-- A version of a map is pinned by a query. -/
def mapPinned (d : Dev) (h v : Nat) : Bool := (liveQueries d).any fun q => q.2.pinMaps.contains (h, v)
/-- A version of a model is pinned by a query. -/
def modelPinned (d : Dev) (h v : Nat) : Bool :=
  (liveQueries d).any fun q => q.2.pinModel == some (h, v) || q.2.pinHeur == some (h, v)
/-- A version of a set is pinned by a query. -/
def setPinned (d : Dev) (h v : Nat) : Bool := (liveQueries d).any fun q => q.2.pinSets.any fun s => s.2.1 == h && s.2.2 == v
/-- A live version of a lattice set was built from version `v` of model `h` (R134). -/
def builtFrom (d : Dev) (h v : Nat) : Bool :=
  d.world.sets.any fun s => s.2.vers.any fun x => fld x.raw 0 1 == 1 && x.buildOf == h && x.buildVer == v
/-- The current version of a model. -/
def curModel (m : ModelRec) : Option ModelVer := m.vers.getLast?
/-- Version `v` of model `h`. -/
def modelRaw (d : Dev) (h v : Nat) : Bytes :=
  (((tget d.world.models h).bind fun m => m.vers.find? fun x => x.ver == v).map (·.raw)).getD []
/-- The current definition of model `h`. -/
def curModelRaw (d : Dev) (h : Nat) : Bytes := (((tget d.world.models h).bind curModel).map (·.raw)).getD []
/-- The current version of a set. -/
def curSet (s : SetRec) : Option SetVer := s.vers.getLast?

/-! ### Charges -/

/-- Bytes of the world store (R28). -/
def storeBytes : Nat := 38050725888
/-- The reserve kept for version formation (R121). -/
def storeReserve : Nat := 1073741824

/-- The map's predictor slot, if it has one. -/
def mapSlot (m : MapRec) : Option Nat := m.pass.map (·.slot)
/-- The streams that feed map `h` and are open. -/
def feeding (d : Dev) (h : Nat) : Tab StreamRec := tfilter (fun _ s => s.kind ≤ 2 && s.target == h) d.world.streams
/-- The predictor region: the tiles that the coverage boxes of the map's streams meet (R213). -/
def predRegion (m : MapRec) (boxes : List (V3 × V3)) : List Nat :=
  sortBy (fun a b => decide (a ≤ b)) (metTiles m boxes)
/-- Bytes of predictor history of a map (R213). -/
def historyBytes (d : Dev) (h : Nat) (m : MapRec) (extra : List (V3 × V3)) : Nat :=
  match m.model with
  | none => 0
  | some k =>
    let raw := curModelRaw d k
    let c := predCells raw
    (predRegion m ((feeding d h).map (fun s => (s.2.coverMin, s.2.coverMax)) ++ extra)).length * (4 * fld raw 4 1 * (c.1 * c.2.1 * c.2.2))

/-- Bytes a version adds to those before it: bricks, tile nodes and a root table where it changes them; records where its statics differ. -/
def verBytes (tiles : Nat) (old : Option MapVer) (v : MapVer) : Nat :=
  let ob := (old.map (·.bricks)).getD []
  let chg := v.bricks.filter fun b => tget ob b.1 != some b.2
  let gone := ob.filter fun b => (tget v.bricks b.1).isNone
  let nodes := ((chg.map (·.1) ++ gone.map (·.1)).map fun k => k / 16 % 65536).eraseDups.length
  let statics := if (old.map (·.objs)) == some v.objs then 0 else 64 * v.objs.length + 64 * v.prims.length + 64 * v.bvh.length
  32768 * chg.length + 768 * nodes + (if nodes > 0 || old.isNone then 8 * tiles else 0) + statics
/-- Bytes of a list of versions, oldest first. -/
def versBytes (tiles : Nat) : Option MapVer → List MapVer → Nat
  | _, [] => 0
  | o, v :: t => verBytes tiles o v + versBytes tiles (some v) t
/-- Bytes of a footprint (R246). -/
def footBytes (f : Foot) : Nat := 32 + 16 * f.cells.length
/-- World store charged to map `h` (R121). -/
def mapCharge (d : Dev) (h : Nat) (m : MapRec) : Nat :=
  let t := mapTileCount m
  versBytes t none m.vers + m.deltas.length * ((4 * t + 7) / 8) + m.staged.bytes + historyBytes d h m [] +
    (((curVer m).map fun v => (v.foots.map fun f => footBytes f.2).foldl (· + ·) 0)).getD 0
/-- World store charged to a model (R144, R207). -/
def modelCharge (m : ModelRec) : Nat := (m.vers.map fun v => v.raw.length).foldl (· + ·) 0
/-- Bytes of one set version with its tables (R144). -/
def setVerBytes (raw model : Bytes) : Nat :=
  raw.length + (if fld raw 0 1 = 1 then fld raw 4 4 * fld raw 1 1 * ((12 * kinS model + 63) / 64) * 64 + 256 else 0)
/-- World store charged to a set. -/
def setCharge (s : SetRec) : Nat := (s.vers.map fun v => setVerBytes v.raw v.buildModel).foldl (· + ·) 0
/-- Sum of a list of numbers. -/
def total (l : List Nat) : Nat := l.foldl (· + ·) 0
/-- World store in use. -/
def storeUsed (d : Dev) : Nat :=
  total (d.world.maps.map fun m => mapCharge d m.1 m.2) + total (d.world.models.map fun m => modelCharge m.2) +
    total (d.world.sets.map fun s => setCharge s.2)
/-- World store charged to a polder. -/
def polderStore (d : Dev) (p : Nat) : Nat :=
  total ((d.world.maps.filter fun m => m.2.owner == p).map fun m => mapCharge d m.1 m.2) +
  total ((d.world.models.filter fun m => m.2.owner == p).map fun m => modelCharge m.2) +
  total ((d.world.sets.filter fun s => s.2.owner == p).map fun s => setCharge s.2)
/-- A command's data would leave less than the reserve free (R121). -/
def storeFull (d : Dev) (n : Nat) : Bool := decide (storeUsed d + n + storeReserve > storeBytes)
/-- A command's data would exceed the polder's store quota (R384). -/
def quotaFull (d : Dev) (p n : Nat) : Bool :=
  decide ((polder d p).quotaStore ≠ 0) && decide (polderStore d p + n > (polder d p).quotaStore * 1048576)

/-! ### The world store as bytes of bulk memory (R28, R29, R98, R100, R105) -/

/-- Address `a` lies in the `len` bytes from `at_` on. -/
def inItem (at_ len a : Nat) : Bool := decide (at_ ≤ a) && decide (a < at_ + len)
/-- Byte `a` of a row of items of `size` bytes from `at_` on. -/
def itemByte (at_ size a : Nat) (item : Nat → Bytes) : Byte := (item ((a - at_) / size)).getD ((a - at_) % size) 0
/-- The byte at a bulk-memory address that a map version's tables hold: root table, nodes, primitive and object records, tile nodes, words of bricks. -/
def verByte (m : MapRec) (v : MapVer) (a : Nat) : Option Byte :=
  let p := v.place
  if inItem p.root (8 * mapTileCount m) a then some (itemByte p.root 8 a fun t => leBytes 8 (tgetD p.tiles t 0))
  else if inItem p.node (64 * v.bvh.length) a then some (itemByte p.node 64 a fun i => nodeBytes (v.bvh.getD i default))
  else if inItem p.prim (64 * v.prims.length) a then some (itemByte p.prim 64 a fun i => primBytes (v.prims.getD i default))
  else if inItem p.obj (64 * v.objs.length) a then some (itemByte p.obj 64 a fun i => objBytes ((v.objs.getD i default).2))
  else match p.tiles.find? fun t => inItem t.2 768 a with
    | some t => some (itemByte t.2 16 a (brickEntry v t.1))
    | none => (p.bricks.find? fun b => inItem b.2 32768 a).map fun b =>
        itemByte b.2 8 a fun i => leBytes 8 (((tget v.bricks b.1).map fun (x : Brick) => tgetD x.words i 0).getD 0).toNat
/-- The byte of the world store at a bulk-memory address, the same on every die (R29): of map versions, models and sets; none where it holds nothing there. -/
def worldByte (d : Dev) (a : Nat) : Option Byte :=
  ((d.world.maps.findSome? fun m => m.2.vers.findSome? fun v => verByte m.2 v a).or
    (d.world.models.findSome? fun m => m.2.vers.findSome? fun v =>
      let r := Config.rootAddr 1 m.1 v.ver
      if inItem r v.raw.length a then some (v.raw.getD (a - r) 0) else none)).or
    (d.world.sets.findSome? fun s => s.2.vers.findSome? fun v =>
      let r := Config.rootAddr 2 s.1 v.ver
      if inItem r v.raw.length a then some (v.raw.getD (a - r) 0) else none)
/-- The brick whose words lie at an address. -/
def brickAt (d : Dev) (a : Nat) : Option Brick :=
  d.world.maps.findSome? fun m => m.2.vers.findSome? fun v => (v.place.bricks.find? fun b => b.2 == a).bind fun b => tget v.bricks b.1
/-- `n` bytes of a die's stack from address `a` on, as the compute plane reads them: the world store where it holds something, memory elsewhere. -/
def bulkGets (m : Mem) (d : Dev) (die a n : Nat) : Bytes := (List.range n).map fun i => (worldByte d (a + i)).getD (mget m (bulkBase die + a + i))
/-- The compute plane may reach `n` bytes from address `a` of a die's stack on: inside the 48 GiB (R27), and not in the host scratch of dies 2 to 7, which it
never reads (R28). Log entry 104 DEDUCED. -/
def bulkOk (die a n : Nat) : Bool := decide (a + n ≤ if die < 2 then bulkBytes else scratchFirst)

/-- The lowest number below `n` that the table does not list. -/
def lowestFree {α : Type} (t : Tab α) (n : Nat) : Option Nat := (List.range n).find? fun i => !thas t i
/-- The owner a command names (R93, R373): 0x1F is the issuing polder. -/
def ownerOf (c : Cmd) (v : Nat) : Nat := if v = 0x1f then c.polder else v
/-- A VF may name no owner but itself (R390). -/
def ownerBad (c : Cmd) (v : Nat) : Bool := decide (c.polder ≠ 0) && decide (ownerOf c v ≠ c.polder)

/-- A refusal that counts as a dike violation of the polder (R390). -/
def dikeRefuse (d : Dev) (c : Cmd) (det : Nat := 0) : Dev := answer (dike d c.polder) c stBadState det

/-- A charge in KiB, as a status record shows it (R129, R375). Log entry 91 DESIGN CHOICE. -/
def kib (b : Nat) : Nat := b / 1024 + b2n (decide (b % 1024 ≠ 0) && Config.kibUp b)

end Sys2Proof.Machine
end

