-- ==== Sys2Proof/Machine/World.lean ====
section
/-! DEFINITION. Commands on maps and streams (R92 to R129, R366): creation, updates, commits, grants, destruction; streams. -/
namespace Sys2Proof.Machine

/-! ### Maps -/

/-- A map's record changed. -/
def modMap (d : Dev) (h : Nat) (f : MapRec → MapRec) : Dev := { d with world := { d.world with maps := tmod d.world.maps h f } }
/-- A site box fits R94. -/
def boxOk (k : Nat) (lo hi : V3) : Bool :=
  let t := mapTiles { (default : MapRec) with k := k, boxMin := lo, boxMax := hi }
  V3.all2 (fun a b => decide (a < b)) lo hi && lo.x % 2 ^ (k + 6) == 0 && lo.y % 2 ^ (k + 6) == 0 && lo.z % 2 ^ (k + 4) == 0 &&
  hi.x % 2 ^ (k + 6) == 0 && hi.y % 2 ^ (k + 6) == 0 && hi.z % 2 ^ (k + 4) == 0 &&
  decide (t.x ≤ 1024) && decide (t.y ≤ 1024) && decide (t.z ≤ 64) && decide (t.x * t.y * t.z ≤ 65536)
/-- The predictor slots that maps hold. -/
def slotsUsed (d : Dev) : List Nat := d.world.maps.filterMap fun m => mapSlot m.2
/-- The lowest free predictor slot whose cost limit holds the model (R212). -/
def freeSlot (d : Dev) (raw : Bytes) : Option Nat :=
  (List.range (imgPreds (actImg d))).find? fun i => !(slotsUsed d).contains i && decide (predTileCost raw ≤ (predSlot (actImg d) i).cMax)
/-- A box lies inside the committed region (R519). -/
def inRegion (d : Dev) (lo hi : V3) : Bool :=
  match d.fab.region with
  | none => true
  | some r => V3.all2 (fun a b => decide (a ≤ b)) r.1 lo && V3.all2 (fun a b => decide (a ≤ b)) hi r.2
/-- Maps a polder owns. -/
def mapsOf (d : Dev) (p : Nat) : Nat := (d.world.maps.filter fun m => m.2.owner == p).length

/-- The record of the map that a MAP_CREATE block spells (R92 to R95, R212), 0 standing for the default of a field. -/
def mapCreateRec (d : Dev) (c : Cmd) : MapRec :=
  let b := c.block; let mod := fld b 4 2
  let sl := if fld b 2 2 = 0 then 50 else fld b 2 2
  { (default : MapRec) with
    owner := ownerOf c (fld b 0 1), boxMin := v3fld b 12, boxMax := v3fld b 24, k := if fld b 1 1 = 0 then 12 else fld b 1 1, sliceMs := sl,
    model := if mod = 0xffff then none else some mod,
    predPeriod := if fld b 6 2 = 0 then max 1 (sl * 1000000 / turnLen d) else fld b 6 2, pinHoldMax := if fld b 8 1 = 0 then 25 else fld b 8 1, build := .idle,
    pass := if mod = 0xffff then none else some { (default : PredPass) with slot := (freeSlot d (curModelRaw d mod)).getD 0 }, born := false }
/-- The tests of MAP_CREATE in the order of R572 (R92 to R95, R212). -/
def mapCreateTests (d : Dev) (c : Cmd) : List (Bool × Nat × Nat) :=
  let b := c.block; let m := mapCreateRec d c
  let owner := m.owner; let k := m.k; let sl := m.sliceMs; let pin := m.pinHoldMax; let lo := m.boxMin; let hi := m.boxMax
  let mod := fld b 4 2
  let bytes := 8 * (mapTileCount { (default : MapRec) with k := k, boxMin := lo, boxMax := hi })
  [
    (b.length != 36 || (decide (owner > 16)) || decide (k < 10) || decide (k > 16) || decide (sl < 5) || decide (sl > 500) ||
      decide (pin < 4) || decide (pin > 250) || !allZero (slice b 9 3) || !boxOk k lo hi || (decide (mod ≠ 0xffff) && decide (mod > 1023)), stBadRange, 0),
    (ownerBad c (fld b 0 1) || (polder d owner).state == 0 ||
      (mod != 0xffff && !(((tget d.world.models mod).map fun m => m.owner == owner && m.kind == 2 && !m.vers.isEmpty).getD false)) ||
      (mod != 0xffff && (freeSlot d (curModelRaw d mod)).isNone) || !inRegion d lo hi, stBadState, 0),
    ((lowestFree d.world.maps 64).isNone, stMap, 0), (storeFull d bytes, stStore, 0),
    (decide (mapsOf d owner ≥ (polder d owner).quotaMap), stMap, 1), (quotaFull d owner bytes, stStore, 1)]
/-- MAP_CREATE (R92 to R95, R212). -/
def fxMapCreate (d : Dev) (c : Cmd) : Dev :=
  match firstFail (mapCreateTests d c) with
  | some (st, det) => if ownerBad c (fld c.block 0 1) && st = stBadState then dikeRefuse d c else answer d c st det
  | none =>
    let h := (lowestFree d.world.maps 64).getD 0
    ok { d with world := { d.world with maps := tput d.world.maps h (mapCreateRec d c) } } c h

/-- A map that a command may name as its owner: present, not removed in this ledger, owned (R109, R119). -/
def ownMap (d : Dev) (c : Cmd) (h : Nat) : Option MapRec :=
  (tget d.world.maps h).bind fun m => if m.owner = c.polder && !m.removed then some m else none
/-- The fabric ids of the package's pair: its own and, by the committed fabric table, its twin's (R521, R527). -/
def pairIds (d : Dev) : List Nat :=
  d.fab.id :: (d.fab.members.filterMap fun m => if m.1 = d.fab.id && m.2.1 ≠ 0xff then some m.2.1 else none)
/-- The map is the local side of a mirror (R520). -/
def isMirrorLocal (d : Dev) (h : Nat) : Bool := d.fab.mirrors.any fun m => (pairIds d).contains m.subId && m.localMap == h
/-- The map is the source of a mirror. -/
def isMirrorSrc (d : Dev) (h : Nat) : Bool := d.fab.mirrors.any fun m => (pairIds d).contains m.srcId && m.srcMap == h
/-- The records of an update block (R108): operation, plane, body; none where the block is malformed. -/
def updRecs : Nat → Bytes → Option (List (Nat × Nat × Bytes))
  | 0, _ => none
  | fuel + 1, bs =>
    if bs.isEmpty then some []
    else
      let n := fld bs 4 4
      if bs.length < 8 + n || !allZero (slice bs 2 2) || fld bs 1 1 > 1 then none
      else (updRecs fuel (bs.drop (8 + n))).map fun t => (fld bs 0 1, fld bs 1 1, slice bs 8 n) :: t
/-- The triangles of a mesh record, in the object frame. -/
def meshTris (body : Bytes) (n : Nat) : List (V3 × V3 × V3) :=
  (List.range n).map fun i => (v3fld body (64 + 36 * i), v3fld body (76 + 36 * i), v3fld body (88 + 36 * i))
/-- The object of an object record (R96), none where a field is out of range. -/
def objOf (body : Bytes) : Option Obj :=
  let ty := fld body 0 1; let n := fld body 20 4
  let q := quatFld body 32
  let len := if ty = 3 then 64 + 36 * n else 64
  if ty < 1 || ty > 3 || body.length ≠ len || !allZero (slice body 2 2) || fld body 4 4 = 0xffffffff || !allZero (slice body 40 24) then none
  else if ty = 3 && (n = 0 || n > 65536) then none
  else if ty ≠ 3 && (fld body 20 4 > 2 ^ 24) then none
  else if ty = 2 && (fld body 24 4 > 2 ^ 24 || fld body 28 4 > 2 ^ 24) then none
  else if ty ≠ 2 && !allZero (slice body 24 8) then none
  else if ty = 1 && !allZero (slice body 32 8) then none
  else if ty ≠ 1 && !quatOk q then none
  else some { kind := ty, cls := fld body 1 1, id := fld body 4 4, centre := v3fld body 8,
              size := if ty = 3 then V3.of 0 else ⟨(fld body 20 4 : Nat), (fld body 24 4 : Nat), (fld body 28 4 : Nat)⟩,
              quat := if ty = 1 then [] else q, tris := if ty = 3 then meshTris body n else [] }
/-- Every primitive of an object lies in the site box (R97). -/
def objInBox (m : MapRec) (o : Obj) : Bool :=
  (objPrims 0 o).all fun p => let b := primBox p; V3.all2 (fun x y => decide (x ≤ y)) m.boxMin b.1 && V3.all2 (fun x y => decide (x < y)) b.2 m.boxMax
/-- One record applied to a staged set; the error is BAD_RANGE (0) or BAD_STATE (1) (R108, R109). A plane field that is not 0 on an object record, and plane 3
on any record, are BAD_RANGE. Log entry 100 DEDUCED. -/
def stageRec (m : MapRec) (st : Staged) (r : Nat × Nat × Bytes) : Except Bool Staged :=
  let n := r.2.2.length
  match r.1 with
  | 1 | 2 =>
    if r.2.1 ≠ 0 then .error false else
    match objOf r.2.2 with
    | none => .error false
    | some o =>
      if !objInBox m o then .error false
      else if thas st.objs o.id == (r.1 == 1) then .error true
      else .ok { st with bytes := st.bytes + n, statics := true, objs := tput st.objs o.id o, touched := o.id :: st.touched }
  | 3 =>
    if r.2.1 ≠ 0 || n ≠ 8 || !allZero (slice r.2.2 4 4) then .error false
    else if !thas st.objs (fld r.2.2 0 4) then .error true
    else .ok { st with bytes := st.bytes + n, statics := true, objs := tdel st.objs (fld r.2.2 0 4), touched := fld r.2.2 0 4 :: st.touched }
  | 4 | 5 =>
    if n ≠ 32 then .error false
    else .ok { st with bytes := st.bytes + n,
                       vox := st.vox ++ [{ op := r.1, plane := r.2.1, lo := v3fld r.2.2 0, hi := v3fld r.2.2 12, mask := BitVec.ofNat 64 (fld r.2.2 24 8) }] }
  | 6 => if n ≠ 0 then .error false else .ok { st with vox := st.vox ++ [{ (default : VoxRec) with op := 6, plane := r.2.1 }] }
  | _ => .error false
/-- All records, in order. -/
def stageAll (m : MapRec) (st : Staged) : List (Nat × Nat × Bytes) → Except Bool Staged
  | [] => .ok st
  | r :: t => match stageRec m st r with
    | .error e => .error e
    | .ok st => stageAll m st t
/-- A record meets the ranges of R91, R96, R97 and R108, whatever the objects of the map; of a map that does not exist the box is left out. Log entry 61 DEDUCED. -/
def recInRange (m : Option MapRec) (r : Nat × Nat × Bytes) : Bool :=
  match stageRec (m.getD { (default : MapRec) with boxMin := V3.of (-(2 ^ 40)), boxMax := V3.of (2 ^ 40) }) default r with
  | .error false => false
  | _ => true
/-- The committed objects of a map: those of the newest committed set that still waits to form, else those of the current version (R109, R114). -/
def committedObjs (m : MapRec) : Tab Obj :=
  let waiting := (m.pend.flatMap (·.changes) ++ m.events).filterMap fun e => match e.2 with
    | .commit _ (some s) => some s.2.1
    | _ => none
  (waiting.getLast?).getD (((curVer m).map (·.objs)).getD [])
/-- The staged set of a map as it stands, with the committed objects where nothing static is staged (R109). -/
def stagedOf (m : MapRec) : Staged := if m.staged.statics then m.staged else { m.staged with objs := committedObjs m }
/-- MAP_UPDATE (R102, R108 to R110, R572). Log entry 61 DEDUCED. -/
def fxMapUpdate (d : Dev) (c : Cmd) : Dev :=
  let h := fld c.block 0 2
  let body := c.block.drop 8
  match updRecs (body.length + 1) body with
  | none => answer d c stBadRange 0
  | some rs =>
    if c.block.length < 8 || !allZero (slice c.block 3 5) || h > 63 || !rs.all (recInRange (tget d.world.maps h)) then answer d c stBadRange 0 else
    match tget d.world.maps h with
    | none => answer d c stBadState 0
    | some m =>
      let st := stageAll m (stagedOf m) rs
      if m.removed || isMirrorLocal d h then answer d c stBadState 0
      else if m.owner ≠ c.polder then dikeRefuse d c
      else match st with
      | .error true => answer d c stBadState 0
      | .error false => answer d c stBadRange 0
      | .ok st =>
        let tris := total (st.objs.map fun o => o.2.tris.length)
        if st.objs.length > 1048576 || tris > 16777216 then answer d c stBadRange 0
        else if st.bytes > 67108864 then answer d c stStore 0
        else if storeFull d (st.bytes - m.staged.bytes) then answer d c stStore 0
        else if quotaFull d m.owner (st.bytes - m.staged.bytes) then answer d c stStore 1
        else
          let chg := rs.any fun r => r.1 ≤ 3
          ok (modMap d h fun m => { m with staged := st, build := if chg then .start (d.time.turn + 1) else m.build }) c rs.length

/-- The version number that a change of this turn will carry (R114). -/
def nextVer (m : MapRec) : Nat := match curVer m with
  | some v => (v.ver + 1) % 2 ^ 32
  | none => 0
/-- MAP_COMMIT (R110, R111, R114). Log entry 61 DEDUCED. -/
def fxMapCommit (d : Dev) (c : Cmd) : Dev :=
  let h := fld c.block 0 2
  if c.block.length ≠ 4 || !allZero (slice c.block 2 2) || h > 63 then answer d c stBadRange 0 else
  match tget d.world.maps h with
  | none => answer d c stBadState 0
  | some m =>
    if m.removed || isMirrorLocal d h then answer d c stBadState 0
    else if m.owner ≠ c.polder then dikeRefuse d c
    else
      match m.staged.statics, m.build with
      | true, .ready prims bvh =>
        ok (modMap d h fun x => { x with events := x.events ++ [(2, .commit m.staged.vox (some (m.staged.touched, m.staged.objs, prims, bvh)))],
                                         staged := default, build := .idle }) c (nextVer m)
      | true, _ => answer d c stBadState 0
      | false, _ =>
        ok (modMap d h fun x => { x with events := x.events ++ [(2, .commit m.staged.vox none)], staged := default }) c (nextVer m)

/-- MAP_GRANT and its revoke form (R118). -/
def fxMapGrant (d : Dev) (c : Cmd) (revoke : Bool) : Dev :=
  let b := c.block; let h := fld b 0 1; let p := fld b 1 1
  if b.length ≠ 4 || h > 63 || p > 16 || fld b 2 1 > 1 || fld b 3 1 ≠ 0 then answer d c stBadRange 0 else
  match tget d.world.maps h with
  | none => answer d c stBadState 0
  | some m =>
    if m.removed then answer d c stBadState 0
    else if m.owner ≠ c.polder && c.polder ≠ 0 then dikeRefuse d c
    else ok (modMap d h fun m => { m with grantNext := if revoke then m.grantNext.filter (· != p) else (m.grantNext.filter (· != p)) ++ [p] }) c

/-- A map is held: an agent, a stream, a pinned version or a mirror's source names it (R119); a stream closed earlier in the same ledger still feeds it. Log
entry 100 DEDUCED. -/
def mapHeld (d : Dev) (h : Nat) (m : MapRec) : Bool :=
  d.world.agents.any (fun a => a.2.bind.homeMap == h || (a.2.next.map (·.homeMap)) == some h) || !(feeding d h).isEmpty ||
    m.vers.any (fun v => mapPinned d h v.ver) || isMirrorSrc d h
/-- MAP_DESTROY (R119). -/
def fxMapDestroy (d : Dev) (c : Cmd) : Dev :=
  let h := fld c.block 0 2
  if c.block.length ≠ 4 || !allZero (slice c.block 2 2) || h > 63 then answer d c stBadRange 0 else
  match tget d.world.maps h with
  | none => answer d c stBadState 0
  | some m =>
    if m.removed then answer d c stBadState 0
    else if m.owner ≠ c.polder then dikeRefuse d c
    else if mapHeld d h m then answer d c stBadState 0
    else ok (modMap d h fun m => { m with removed := true }) c

/-! ### Streams -/

/-- The occupancy plane (R103) that a stream's blind_plane code names: 0 the risk plane, 1 the hard plane, 2 none (R124). -/
def blindPlaneOf (code : Nat) : Nat := if code = 0 then 1 else if code = 1 then 0 else 2
/-- A stream's record changed. -/
def modStream (d : Dev) (n : Nat) (f : StreamRec → StreamRec) : Dev := { d with world := { d.world with streams := tmod d.world.streams n f } }
/-- Streams a polder has open. -/
def streamsOf (d : Dev) (p : Nat) : Nat := (d.world.streams.filter fun s => s.2.polder == p).length
/-- The map that a stream's polder may feed: its own, live and with a prediction model (R122, R213). -/
def streamMapOk (d : Dev) (c : Cmd) : Bool :=
  (((tget d.world.maps (fld c.block 1 1)).map fun m => m.owner == c.polder && !m.removed && m.model.isSome).getD false)
/-- The record of the stream that a STREAM_OPEN block spells (R122, R123). -/
def streamRec (d : Dev) (c : Cmd) : StreamRec :=
  let b := c.block
  { (default : StreamRec) with
    kind := fld b 0 1, polder := c.polder, target := fld b 1 1, port := fld b 2 1, srcMac := fld b 4 6,
    rate := if fld b 12 4 = 0 then 1000 else fld b 12 4, timeoutMs := if fld b 16 2 = 0 then 100 else fld b 16 2,
    coverMin := v3fld b 24, coverMax := v3fld b 36, blindPlane := fld b 18 1, openTurn := d.time.turn, bucket := 16 * 1000000000,
    bucketAt := turnStart d (d.time.turn + 1), lastArr := turnStart d (d.time.turn + 1) }
/-- The tests of STREAM_OPEN in the order of R572 (R122 to R124, R213). -/
def streamOpenTests (d : Dev) (c : Cmd) : List (Bool × Nat × Nat) :=
  let b := c.block; let s := streamRec d c
  let kind := s.kind; let tm := s.target; let lo := s.coverMin; let hi := s.coverMax
  let map := tget d.world.maps tm
  let m := map.getD default
  let inMap := V3.all2 (fun x y => decide (x ≤ y)) m.boxMin lo && V3.all2 (fun x y => decide (x ≤ y)) hi m.boxMax && V3.all2 (fun x y => decide (x < y)) lo hi
  let slot := predSlot (actImg d) ((mapSlot m).getD 0)
  let region := predRegion m ((feeding d tm).map (fun s => (s.2.coverMin, s.2.coverMax)) ++ [(lo, hi)])
  let more := historyBytes d tm m [(lo, hi)] - historyBytes d tm m []
  [
    (b.length != 48 || decide (kind < 1) || decide (kind > 3) || decide (tm > 63) || (kind == 3 && (tm != 0 || !allZero (slice b 24 24))) || decide (fld b 2 1 > 7) ||
      !allZero (slice b 3 1) || !allZero (slice b 10 2) || decide (s.rate > 100000) || decide (s.timeoutMs > 10000) || decide (fld b 18 1 > 2) ||
      !allZero (slice b 19 5) || (decide (kind ≤ 2) && map.isSome && !inMap) ||
      (decide (kind ≤ 2) && streamMapOk d c && decide (region.length > slot.pMax)), stBadRange, 0),
    (decide (kind ≤ 2) && !streamMapOk d c, stBadState, 0),
    ((lowestFree d.world.streams 128).isNone, stStream, 0), (decide (kind ≤ 2) && decide (0 < more) && storeFull d more, stStore, 0),
    (decide (streamsOf d c.polder ≥ (polder d c.polder).quotaStream), stStream, 1), (decide (kind ≤ 2) && quotaFull d c.polder more, stStore, 1)]
/-- STREAM_OPEN (R122 to R124, R213). -/
def fxStreamOpen (d : Dev) (c : Cmd) : Dev :=
  match firstFail (streamOpenTests d c) with
  | some (st, det) =>
    if st = stBadState && (((tget d.world.maps (fld c.block 1 1)).map fun m => m.owner != c.polder).getD false) then dikeRefuse d c else answer d c st det
  | none =>
    let n := (lowestFree d.world.streams 128).getD 0
    ok { d with world := { d.world with streams := tput d.world.streams n (streamRec d c) } } c n

/-- Ending a running estimate (R439, R444): its outcome is placed two ledgers later (R434). -/
def endEstimate (d : Dev) (key result : Nat) : Dev :=
  match tget d.cal.est key with
  | none => d
  | some e =>
    if e.state = 0 then d else
    let e := { e with state := 0, result := result, ends := d.time.turn, used := if e.kind = 1 then e.kinSamples.length else e.timeSamples.length }
    { d with cal := { d.cal with est := tput d.cal.est key e, outcomes := d.cal.outcomes ++ [(d.time.turn + 2, e)] } }

/-- A binding names the stream (R123). -/
def streamHeld (d : Dev) (n : Nat) : Bool := d.world.agents.any fun a => a.2.bind.stream == n && !a.2.leaving || (a.2.next.map (·.stream)) == some n
/-- STREAM_CLOSE (R123, R444). -/
def fxStreamClose (d : Dev) (c : Cmd) : Dev :=
  let n := fld c.block 0 2
  if c.block.length ≠ 4 || !allZero (slice c.block 2 2) || n > 127 then answer d c stBadRange 0 else
  match tget d.world.streams n with
  | none => answer d c stBadState 0
  | some s =>
    if s.polder ≠ c.polder then dikeRefuse d c
    else if s.closeTurn.isSome || streamHeld d n then answer d c stBadState 0
    else ok (endEstimate (modStream d n fun s => { s with closeTurn := some d.time.turn }) (1024 + n) 8) c

/-! ### Status records (R129) -/

/-- The 48-byte map status record. -/
def mapStatus (d : Dev) (h : Nat) (m : MapRec) : Bytes :=
  let cv := curVer m
  let busy := match m.build with
    | .start t => decide (t ≤ d.time.turn)
    | _ => false
  let rdy := match m.build with
    | .ready _ _ => true
    | _ => false
  leBytes 1 h ++ leBytes 1 m.owner ++
  leBytes 1 (b2n busy + 2 * b2n rdy + 4 * b2n (!m.pend.isEmpty) + 8 * b2n m.model.isSome) ++ leBytes 1 m.vers.length ++
  leBytes 4 ((cv.map (·.ver)).getD 0) ++ leBytes 4 ((m.vers.head?.map (·.ver)).getD 0) ++ leBytes 4 m.deferTurns ++ leBytes 4 m.expiryCnt ++
  leBytes 4 m.predSkip ++ leBytes 4 ((cv.map fun v => v.objs.length).getD 0) ++
  leBytes 4 ((cv.map fun v => total (v.objs.map fun o => o.2.tris.length)).getD 0) ++ leBytes 4 m.staged.bytes ++
  leBytes 4 (kib (mapCharge d h m)) ++ leBytes 3 (total (m.grants.map fun p => 2 ^ p)) ++ zeros 5
/-- The 40-byte stream status record. -/
def streamStatus (n : Nat) (s : StreamRec) : Bytes :=
  leBytes 1 n ++ leBytes 1 s.kind ++ leBytes 1 s.polder ++ leBytes 1 (1 + 2 * b2n s.timedOut) ++ leBytes 4 (s.lastCtr.getD 0) ++
  leBytes 4 s.accepted ++ leBytes 4 s.crcErr ++ leBytes 4 s.rateDrop ++ leBytes 4 s.orderDrop ++ leBytes 4 s.timeDrop ++ leBytes 4 s.rangeDrop ++
  leBytes 4 s.gapCnt ++ leBytes 4 s.timeoutCnt

end Sys2Proof.Machine
end

