-- ==== Sys2Proof/Machine/Sluice.lean ====
section
/-! DEFINITION. What the sluice and the berm compute (R380 to R406): slices, capacities, class-0 charges and shares; the end of a
query and its reply (R18, R364). -/
namespace Sys2Proof.Machine

/-! ### The berm (R401 to R406) -/

/-- Berm length B (R401). -/
def bermLen (d : Dev) : Nat := turnCycles d * bits (rget d 0x100800) 7 0 / 100
/-- Existing polders in ascending number, with the slices their values name (R401). -/
def rawSlices (d : Dev) : List (Nat × Nat) :=
  (0, bits (rget d 0x100808) 16 0) :: ((List.range 16).filterMap fun i =>
    if (polder d (i + 1)).state = 0 then none else some (i + 1, (polder d (i + 1)).slice))
/-- Slices cut to what remains of B, with their first cycles: polder, start, length (R401). -/
def cutSlices (left at_ : Nat) : List (Nat × Nat) → List (Nat × Nat × Nat)
  | [] => []
  | (p, n) :: t => let n := min n left; (p, at_, n) :: cutSlices (left - n) (at_ + n) t
/-- The slice of polder `p`: start and length. -/
def sliceOfP (d : Dev) (p : Nat) : Nat × Nat :=
  (((cutSlices (bermLen d) 0 (rawSlices d)).find? fun s => s.1 == p).map (·.2)).getD (0, 0)
/-- Sum of the slices as set. -/
def sliceSum (d : Dev) : Nat := total ((rawSlices d).map (·.2))
/-- Berm cycles not assigned (R401). -/
def bermFree (d : Dev) : Nat := bermLen d - sliceSum d
/-- Tiles that the fullest core holds. -/
def tilesPerCore (d : Dev) : Nat := if d.pkg.m = 0 then 0 else (128 + d.pkg.m - 1) / d.pkg.m
/-- The berm is derated (R406). Log entry 89 DEDUCED. -/
def derated (d : Dev) : Bool := d.pin.ready && (d.pkg.m == 0 || decide (tilesPerCore d > bits (rget d 0x100800) 11 8))
/-- BERM_DERATED is present while the berm is derated (R406). Log entry 89 DEDUCED. -/
def deratedCheck (d : Dev) : Dev := setLive d 0x016 0 0xE0 0 (derated d)
/-- The divisor of capacities (R403, R406). -/
def bermDiv (d : Dev) : Nat := if derated d then tilesPerCore d else bits (rget d 0x100800) 11 8
/-- Capacity of one tile in a slice of `n` cycles (R403, R406). -/
def capOf (d : Dev) (n : Nat) : Nat :=
  if derated d && d.pkg.m == 0 then 0 else n / max 1 (bermDiv d) - bits (rget d 0x100800) 23 12
/-- Capacity of one tile in the slice of polder `p`. -/
def capP (d : Dev) (p : Nat) : Nat := capOf d (sliceOfP d p).2
/-- Class-0 slots of polder `p` on each die (R401). -/
def c0Share (d : Dev) (p : Nat) : Nat := if bermLen d = 0 then 0 else 64 * (sliceOfP d p).2 / bermLen d

/-- Joints and spheres of a kinematic definition give the ladder charge (R403). -/
def ladderCharge (d : Dev) (model : Bytes) (rungs : Nat) : Nat :=
  let a := rget d 0x100810; let b := rget d 0x100814
  bits a 15 0 + rungs * (bits a 31 16 + bits b 7 0 * kinS model + bits b 15 8 * kinN model)
/-- Ladder charges reserved on tile `t` in the slice of polder `p`, agent `skip` left out (R403). Log entry 58 DEDUCED. -/
def reserved (d : Dev) (p t : Nat) (skip : Option Nat) : Nat :=
  total ((d.world.agents.filter fun a => a.2.polder == p && a.2.tile == t && some a.1 != skip).map fun a => max a.2.charge a.2.chargeNext)
/-- The tile with the least reserved charge, the lowest on ties (R404). -/
def bestTile (d : Dev) (p : Nat) : Nat :=
  (List.range 128).foldl (fun b t => if reserved d p t none < reserved d p b none then t else b) 0
/-- Each tile of polder `p` keeps its reservations within a slice of `n` cycles (R385). -/
def sliceHolds (d : Dev) (p n : Nat) : Bool :=
  (List.range 128).all fun t => reserved d p t none = 0 || decide (reserved d p t none ≤ capOf d n)

/-- The core that holds logical tile `t`, as die and core (R30). -/
def tileCore (d : Dev) (t : Nat) : Nat × Nat := let v := d.pkg.map.getD (t % 128) 0; (v / 16, v % 16)
/-- The die of logical tile `t`. -/
def tileDie (d : Dev) (t : Nat) : Nat := (tileCore d t).1

/-! ### Queries -/

/-- A query's record changed. -/
def modQ (d : Dev) (n : Nat) (f : QueryRec → QueryRec) : Dev := { d with q := { d.q with recs := tmod d.q.recs n f } }
/-- A query ends with a status, a detail word and a result; its reply is due after the turn's end (R364). In the safe state it completes
with INVALID_SAFE, detail 3 (R471). -/
def endQuery (d : Dev) (n st det : Nat) (res : Option Bytes := none) (released : Nat := 0) : Dev :=
  match tget d.q.recs n with
  | none => d
  | some q =>
    if q.stage = .ended then d else
    let st' := if d.wdn.safe.on then 0x301 else st
    let det' := if d.wdn.safe.on then 3 else det
    let d := modQ d n fun q => { q with stage := .ended, endTurn := d.time.turn, relTurn := released, status := st', detail := det', result := res.getD [], tiles := [] }
    if q.kind = .stopVerify && st' = 0 && !d.ldg.replay && (match q.cmd.origin with | .field _ _ => true | _ => false) then d
    else reply d q.cmd st' det' res q.admTurn released d.time.turn q.admIndex
/-- A query starts again from stage 1 with its stamp, pins, budget and deadline; one that waits for a slot goes on waiting (R32, R342). -/
def restartQ (q : QueryRec) : QueryRec :=
  { q with stage := (match q.stage with
             | .entered => .entered
             | .spilled => .spilled
             | .ended => .ended
             | _ => if q.kind = .plan then .goal else .compute),
           goalQ := none, tiles := [], expansions := 0, endNode := none, goalReached := false, partialEnd := false, timeLimited := false, accSat := false,
           pivot := false, nodeFull := false, ikDegraded := false, stop := none, cut := false, foots := [] }
/-- Several queries end alike. -/
def endQueries (d : Dev) (ns : List Nat) (st det : Nat) : Dev := ns.foldl (fun d n => endQuery d n st det) d
/-- Live queries of an agent. -/
def queriesOf (d : Dev) (ag : Nat) : List Nat :=
  ((liveQueries d).filter fun q => (q.2.kind == .plan || q.2.kind == .stopVerify) && q.2.agent == ag).map (·.1)
/-- Live queries of classes 1 to 3 of an agent. -/
def plansOf (d : Dev) (ag : Nat) : List Nat :=
  ((liveQueries d).filter fun q => q.2.kind == .plan && q.2.agent == ag && q.2.cmd.cls != 0).map (·.1)
/-- Live queries of a polder. -/
def queriesOfPolder (d : Dev) (p : Nat) : List Nat := ((liveQueries d).filter fun q => q.2.cmd.polder == p).map (·.1)
/-- Queries of classes 1 to 3 of a polder that have not ended (R384). -/
def useQ (d : Dev) (p : Nat) : Nat := ((liveQueries d).filter fun q => q.2.cmd.polder == p && q.2.cmd.cls != 0).length

/-! ### Results that wait for the twin (R18, R492, R493) -/

/-- The reply that waits with a frame becomes due: as it stands, or with another status and detail word; in the safe state its result is still written (R471).
Log entry 65 DEDUCED. -/
def repOut (d : Dev) (f : EgFrame) (ovr : Option (Nat × Nat)) : Dev :=
  match f.rep with
  | none => d
  | some (c, r) =>
    match ovr with
    | none => reply d c r.status r.detail r.result r.admitted r.released r.due r.idx
    | some (st, det) => reply d c st det r.result r.admitted 0 r.due r.idx
/-- Frames that `p` picks are discarded, and the replies that wait with them carry a status. -/
def dropFrames (d : Dev) (p : EgFrame → Bool) (st det : Nat) : Dev :=
  (d.host.egress.filter p).foldl (fun d f => repOut d f (some (st, det))) { d with host := { d.host with egress := d.host.egress.filter fun f => !p f } }
/-- Every held frame leaves without comparison (R493, R494). -/
def letGo (d : Dev) : Dev :=
  (d.host.egress.filter (·.waits)).foldl (fun d f => repOut d f none)
    { d with host := { d.host with egress := d.host.egress.map fun f => if f.waits then { f with waits := false, rep := none } else f } }
/-- A frame's bytes with its byte 20 and bytes 22 and 23 replaced and its CRC computed again. -/
def restamp (body : Bytes) (flags gen : Nat) : Bytes :=
  if body.length < 28 then body else
  let b := body.take 20 ++ leBytes 1 flags ++ slice body 21 1 ++ leBytes 2 gen ++ (body.take (body.length - 4)).drop 24
  b ++ leBytes 4 (crc32c b)

end Sys2Proof.Machine
end

