-- ==== Sys2Proof/Machine/RegWrite.lean ====
section
/-! DEFINITION. Storing a value in a register: the writable bits, the values a write is taken as (R10, R379, R402, R409, R448, R483, R533, R558). -/
namespace Sys2Proof.Machine

/-- A value held between limits. -/
def clampN (lo hi v : Nat) : Nat := min hi (max lo v)
/-- The field [hi:lo] of `v` replaced by `x`. -/
def setBits (v hi lo x : Nat) : Nat := v - bits v hi lo * 2 ^ lo + x * 2 ^ lo
/-- What a value written to the register at key `o` is taken as, `old` being what stands there. -/
def fixVal (d : Dev) (o old v : Nat) : Nat :=
  if o = 0x500004 then setBits (setBits v 11 8 (max 1 (bits v 11 8))) 7 0 (clampN 4 20 (bits v 7 0))
  else if o = 0x600000 then (if bits v 2 0 > 4 then setBits v 2 0 (bits old 2 0) else v)
  else if o = 0x100800 then setBits (setBits v 11 8 (clampN 1 8 (bits v 11 8))) 7 0 (clampN 5 50 (bits v 7 0))
  else if o = 0x100808 then min (bermLen d) (bits v 16 0)
  else if o = 0x200028 then max 10 (bits v 15 0)
  else if o = 0x400000 then setBits v 15 8 (max 1 (bits v 15 8))
  else if o = 0x400008 then (List.range 4).foldl (fun v p => if bits v (8 * p + 2) (8 * p + 1) = 3 then setBits v (8 * p + 2) (8 * p + 1) 0 else v) v
  else if 0x401100 ≤ o ∧ o < 0x401200 ∧ (o - 0x401100) % 0x20 = 0 then (if bits v 4 3 = 3 then setBits v 4 3 2 else v)
  else if 0x201000 ≤ o ∧ o < 0x202000 ∧ o % 8 = 4 then setBits v 15 0 (max 1 (bits v 15 0))
  else if 0x01000000 ≤ o ∧ o < 0x09000000 then
    let w := o % 0x01000000
    if w = 0x40000 then setBits v 3 0 (clampN 1 8 (bits v 3 0))
    else if w = 0x40008 then setBits (setBits v 31 24 (clampN 1 100 (bits v 31 24))) 11 0 (max 16 (bits v 11 0))
    else if w = 0x4000C then max 1000 v
    else if w = 0x11004 then max 1 (bits v 15 0)
    else if w = 0x20000 then setBits v 15 8 (min 64 (bits v 15 8))
    else v
  else if (regHit o).any (fun h => h.row.base == 0x1020) then max 16 (bits v 15 0)
  else if (regHit o).any (fun h => h.row.base == 0x1008 || h.row.base == 0x1010 || h.row.base == 0x1018) then v / 4096 * 4096
  else v
/-- `v` stored in the bits of `mask`; the other bits keep what stands there. -/
def maskPut (d : Dev) (o mask v : Nat) : Dev :=
  let old := rget d o
  rset d o ((old &&& (0xffffffff - mask)) ||| (fixVal d o old v &&& mask))
/-- A value stored in every writable bit of a register, whatever its lock (R571). -/
def regPut (d : Dev) (o v : Nat) : Dev :=
  match regHit o with
  | none => d
  | some h => maskPut d o h.row.rw v
/-- Registers that a configuration bundle may name (R526, R570). -/
def cfgReg (o : Nat) : Bool :=
  o == 0x500004 || o == 0x100800 || o == 0x100808 || o == 0x100810 || o == 0x100814 || o == 0x100818 ||
  o == 0x01040000 || o == 0x01040004 || o == 0x01040008 || o == 0x0104000C ||
  (decide (0x201080 ≤ o) && decide (o < 0x202000) && o % 4 == 0) || o == 0x200000 || o == 0x200028 || o == 0x20002C || o == 0x200030
/-- One pair of a register set applied past its lock; of WDN_CTL only safe_auto (R531, R571). -/
def cfgPut (d : Dev) (o v : Nat) : Dev := if o = 0x200000 then maskPut d o 2 v else regPut d o v

end Sys2Proof.Machine
end

