-- ==== Sys2Proof/Machine/Models.lean ====
section
/-! DEFINITION. Commands on models and primitive sets (R130 to R144, R205 to R212, R368, R373) and the forming of their versions. -/
namespace Sys2Proof.Machine

/-- BAD_OPCODE. -/
def stBadOpcode : Nat := 0x100
/-- A command that only the physical function may give (R366, R390). -/
def pfOnly (d : Dev) (c : Cmd) (f : Dev → Cmd → Dev) : Dev :=
  if c.polder ≠ 0 && (match c.origin with | .internal _ => false | _ => true) then answer (dike d c.polder) c stBadOpcode 0 else f d c

/-- The committed bundle holds an object of a kind (2 model, 3 set) and handle (R528). -/
def cfgHolds (d : Dev) (kind h : Nat) : Bool :=
  ((d.fab.cfg.map fun b => b.secs.any fun s => s.1 == kind && s.2.1 == h)).getD false
/-- The definition a model stands at: its current version, or the one that forms at this turn's end. -/
def modelDef (m : ModelRec) : Bytes := ((curModel m).map (·.raw)).getD ((m.due.orElse fun _ => m.pend).getD [])
/-- A model's record changed. -/
def modModel (d : Dev) (h : Nat) (f : ModelRec → ModelRec) : Dev := { d with world := { d.world with models := tmod d.world.models h f } }
/-- A set's record changed. -/
def modSet (d : Dev) (h : Nat) (f : SetRec → SetRec) : Dev := { d with world := { d.world with sets := tmod d.world.sets h f } }
/-- What a redefinition of a kinematic model must keep (R133). -/
def kinShape (raw : Bytes) : List Nat := [fld raw 0 1, kinN raw, kinS raw, b2n (kinBase raw)] ++ (List.range (kinN raw)).map fun j => fld raw (kinJ j) 1
/-- The new definition fits the current one (R133, R206, R212). -/
def redefOk (d : Dev) (h : Nat) (m : ModelRec) (raw : Bytes) : Bool :=
  let old := modelDef m
  if m.kind = 1 then kinShape old == kinShape raw
  else fld raw 0 1 == m.kind &&
    (m.kind != 2 || d.world.maps.all fun x => x.2.model != some h || ((mapSlot x.2).map fun s => decide (predTileCost raw ≤ (predSlot (actImg d) s).cMax)).getD true)
/-- The owner that a model or set command names, and whether the issuer may not name it or an object that another polder owns (R390). -/
def modelDefineBad (d : Dev) (c : Cmd) : Bool :=
  ownerBad c (fld c.block 2 1) || (((tget d.world.models (fld c.block 0 2)).map fun m => m.owner != ownerOf c (fld c.block 2 1)).getD false)
/-- The tests of MODEL_DEFINE in the order of R572 (R130 to R134, R205 to R207, R373). Log entry 61 DEDUCED. -/
def modelDefineTests (d : Dev) (c : Cmd) : List (Bool × Nat × Nat) :=
  let b := c.block; let h := fld b 0 2; let raw := b.drop 8; let k := fld raw 0 1
  let owner := ownerOf c (fld b 2 1)
  let old := tget d.world.models h
  [
    (decide (b.length < 8) || !allZero (slice b 3 5) || (decide (h > 1023) && h != 0xffff) || (decide (owner > 16)) ||
      !(if k = 1 then kinOk raw else (k == 2 || k == 3) && netOk raw), stBadRange, 0),
    (modelDefineBad d c || (polder d owner).state == 0 || cfgHolds d 2 h || (h != 0xffff && ((old.map fun m => m.removed || !redefOk d h m raw).getD true)), stBadState, 0),
    (h == 0xffff && (lowestFree d.world.models 1024).isNone, stModel, 0), (storeFull d raw.length, stStore, 0),
    (quotaFull d owner raw.length, stStore, 1)]
/-- MODEL_DEFINE (R130 to R134, R205 to R207, R373). -/
def fxModelDefine (d : Dev) (c : Cmd) : Dev :=
  let b := c.block; let h := fld b 0 2; let raw := b.drop 8
  match firstFail (modelDefineTests d c) with
  | some (st, det) => if st = stBadState && modelDefineBad d c then dikeRefuse d c else answer d c st det
  | none =>
    if h = 0xffff then
      let h := (lowestFree d.world.models 1024).getD 0
      let m : ModelRec := { (default : ModelRec) with owner := ownerOf c (fld b 2 1), kind := fld raw 0 1, due := some raw }
      ok { d with world := { d.world with models := tput d.world.models h m } } c h
    else ok (modModel d h fun m => { m with due := some raw }) c h

/-- The issuer may not name the owner, the set or the model (R390). -/
def primsetLoadBad (d : Dev) (c : Cmd) : Bool :=
  let owner := ownerOf c (fld c.block 2 1)
  ownerBad c (fld c.block 2 1) || (((tget d.world.sets (fld c.block 0 2)).map fun s => s.owner != owner).getD false) ||
    (((tget d.world.models (fld (c.block.drop 8) 8 2)).map fun m => m.owner != owner).getD false)
/-- The tests of PRIMSET_LOAD in the order of R572 (R135 to R141, R373). Log entry 61 DEDUCED. -/
def primsetLoadTests (d : Dev) (c : Cmd) : List (Bool × Nat × Nat) :=
  let b := c.block; let h := fld b 0 2; let raw := b.drop 8
  let owner := ownerOf c (fld b 2 1); let k := fld raw 0 1
  let old := tget d.world.sets h
  let mod := tget d.world.models (fld raw 8 2)
  let mdef := (mod.map modelDef).getD []
  let modBad := (mod.map fun m => m.owner != owner || m.removed).getD true
  let bytes := setVerBytes raw mdef
  [
    (decide (b.length < 8) || !allZero (slice b 3 5) || (decide (h > 255) && h != 0xffff) || decide (owner > 16) || !setOk raw, stBadRange, 0),
    (primsetLoadBad d c || (polder d owner).state == 0 || cfgHolds d 3 h || (h != 0xffff && ((old.map fun s => s.removed).getD true)) || modBad ||
      ((mod.map fun m => m.kind != 1).getD true) || fld raw 12 1 != kinN mdef || (k == 1 && !kinBase mdef) || (k == 2 && kinN mdef == 0), stBadState, 0),
    (h == 0xffff && (lowestFree d.world.sets 256).isNone, stSet, 0), (storeFull d bytes, stStore, 0), (quotaFull d owner bytes, stStore, 1)]
/-- The handle that a PRIMSET_LOAD loads. -/
def primsetSlot (d : Dev) (c : Cmd) : Nat := if fld c.block 0 2 = 0xffff then (lowestFree d.world.sets 256).getD 0 else fld c.block 0 2
/-- The record of a set after PRIMSET_LOAD: a lattice set waits for its build, a joint set's version forms at the turn's end (R140). -/
def primsetRec (d : Dev) (c : Cmd) : SetRec :=
  let raw := c.block.drop 8
  let s : SetRec := (tget d.world.sets (fld c.block 0 2)).getD { (default : SetRec) with owner := ownerOf c (fld c.block 2 1) }
  let s := { s with model := fld raw 8 2, kind := fld raw 0 1, loaded := raw }
  if fld raw 0 1 = 1 then { s with build := some { (default : SetBuild) with start := d.time.turn + 1, raw := raw } }
  else { s with build := none, due := some { (default : SetVer) with raw := raw } }
/-- PRIMSET_LOAD (R135 to R141, R373). -/
def fxPrimsetLoad (d : Dev) (c : Cmd) : Dev :=
  match firstFail (primsetLoadTests d c) with
  | some (st, det) => if st = stBadState && primsetLoadBad d c then dikeRefuse d c else answer d c st det
  | none => ok { d with world := { d.world with sets := tput d.world.sets (primsetSlot d c) (primsetRec d c) } } c (primsetSlot d c)

/-- A model is held: a configuration, an agent, a set or a live version of one, a map or a pinned version names it (R368). Log entry 61 DEDUCED. -/
def modelHeld (d : Dev) (h : Nat) (m : ModelRec) : Bool :=
  m.removed || cfgHolds d 2 h || d.world.agents.any (fun a => a.2.bind.model == h || (a.2.next.map (·.model)) == some h) ||
    d.world.sets.any (fun s => (s.2.model == h || s.2.vers.any fun v => fld v.raw 0 1 == 1 && v.buildOf == h) && !s.2.removed) || d.world.maps.any (fun x => x.2.model == some h) ||
    m.vers.any (fun v => modelPinned d h v.ver)
/-- A set is held: a configuration, an agent or a pinned version names it (R368). -/
def setHeld (d : Dev) (h : Nat) (s : SetRec) : Bool :=
  s.removed || cfgHolds d 3 h || d.world.agents.any (fun a => a.2.bind.sets.contains h || ((a.2.next.map (·.sets)).getD []).contains h) ||
    s.vers.any (fun v => setPinned d h v.ver)
/-- MODEL_FREE (R368). Log entry 61 DEDUCED. -/
def fxModelFree (d : Dev) (c : Cmd) : Dev :=
  let h := fld c.block 0 2
  if c.block.length ≠ 4 || !allZero (slice c.block 2 2) || h > 1023 then answer d c stBadRange 0 else
  match tget d.world.models h with
  | none => answer d c stBadState 0
  | some m =>
    if m.owner ≠ c.polder then dikeRefuse d c
    else if modelHeld d h m then answer d c stBadState 0
    else ok (modModel d h fun m => { m with removed := true }) c
/-- PRIMSET_FREE (R368). -/
def fxPrimsetFree (d : Dev) (c : Cmd) : Dev :=
  let h := fld c.block 0 2
  if c.block.length ≠ 4 || !allZero (slice c.block 2 2) || h > 255 then answer d c stBadRange 0 else
  match tget d.world.sets h with
  | none => answer d c stBadState 0
  | some s =>
    if s.owner ≠ c.polder then dikeRefuse d c
    else if setHeld d h s then answer d c stBadState 0
    else ok (modSet d h fun s => { s with removed := true }) c

/-! ### Versions at a turn end (R133, R134, R140 to R142) -/

/-- Versions of a model that stay live: the current one, those pinned and those that a live set version was built from (R134). -/
def modelLive (d : Dev) (h : Nat) (vs : List ModelVer) : List ModelVer :=
  vs.filter fun v => some v.ver == vs.getLast?.map (·.ver) || modelPinned d h v.ver || builtFrom d h v.ver
/-- Versions of a set that stay live. -/
def setAlive (d : Dev) (h : Nat) (vs : List SetVer) : List SetVer :=
  vs.filter fun v => some v.ver == vs.getLast?.map (·.ver) || setPinned d h v.ver
/-- The number of the next version (R116). -/
def verAfter (o : Option Nat) : Nat := match o with
  | some v => (v + 1) % 2 ^ 32
  | none => 0
/-- A lattice set starts its build, or starts it again, in turn `t` (R141). -/
def rebuildSets (d : Dev) (h t : Nat) : Dev :=
  { d with world := { d.world with sets := tmap (fun _ s =>
      if s.model = h ∧ s.kind = 1 ∧ !s.removed then { s with build := some { (default : SetBuild) with start := t, raw := s.loaded } } else s) d.world.sets } }
/-- A model at a turn end: the waiting definition forms when fewer than four versions are live (R134). -/
def formModel (d : Dev) (h : Nat) : Dev :=
  match tget d.world.models h with
  | none => d
  | some m =>
    let pend := m.due.orElse fun _ => m.pend
    let vs := modelLive d h m.vers
    match pend with
    | none => modModel d h fun m => { m with vers := vs }
    | some raw =>
      -- the version replaced by the new one retires too where nothing holds it
      let vs' := m.vers.filter fun v => modelPinned d h v.ver || builtFrom d h v.ver
      if vs'.length ≥ 4 then modModel d h fun m => { m with vers := vs, due := none, pend := some raw }
      else
        let n := verAfter (m.vers.getLast?.map (·.ver))
        rebuildSets (modModel d h fun m => { m with vers := vs' ++ [{ ver := n, raw := raw }], due := none, pend := none }) h (d.time.turn + 1)
/-- A set at a turn end (R140, R142). -/
def formSet (d : Dev) (h : Nat) : Dev :=
  match tget d.world.sets h with
  | none => d
  | some s =>
    match s.due.orElse fun _ => s.pend with
    | none => modSet d h fun s => { s with vers := setAlive d h s.vers }
    | some v =>
      let vs := s.vers.filter fun x => setPinned d h x.ver
      if vs.length ≥ 4 then modSet d h fun s => { s with due := none, pend := some v }
      else modSet d h fun s => { s with vers := vs ++ [{ v with ver := verAfter (s.vers.getLast?.map (·.ver)) }], due := none, pend := none }

/-- SET_BUILD_END: the build of a lattice set ends; its version forms at the end of this turn (R140). -/
def fxSetBuildEnd (d : Dev) (h : Nat) : Dev :=
  match tget d.world.sets h with
  | none => d
  | some s =>
    match s.build with
    | none => d
    | some b =>
      match b.modelVer with
      | none => d
      | some (v, m) => modSet d h fun s => { s with build := none, due := some { ver := 0, raw := b.raw, buildOf := s.model, buildVer := v, buildModel := m } }
/-- A build starts at the start of its turn and takes the model version current then (R140). -/
def startSetBuilds (d : Dev) : Dev :=
  { d with world := { d.world with sets := tmap (fun _ s => { s with build := s.build.map fun b =>
      if b.start = d.time.turn ∧ b.modelVer.isNone then
        { b with modelVer := ((tget d.world.models s.model).bind curModel).map fun v => (v.ver, v.raw) } else b }) d.world.sets } }

/-- NOP. -/
def execNop (c : Cmd) (s : State) : Host.Outcome State Fault Refusal := onDev s fun d => ok d c
/-- MODEL_DEFINE. -/
def execModelDefine (c : Cmd) (s : State) : Host.Outcome State Fault Refusal := onDev s fun d => fxModelDefine d c
/-- PRIMSET_LOAD. -/
def execPrimsetLoad (c : Cmd) (s : State) : Host.Outcome State Fault Refusal := onDev s fun d => fxPrimsetLoad d c
/-- MODEL_FREE. -/
def execModelFree (c : Cmd) (s : State) : Host.Outcome State Fault Refusal := onDev s fun d => fxModelFree d c
/-- PRIMSET_FREE. -/
def execPrimsetFree (c : Cmd) (s : State) : Host.Outcome State Fault Refusal := onDev s fun d => fxPrimsetFree d c
/-- SET_BUILD_END. -/
def execSetBuildEnd (set : Nat) (s : State) : Host.Outcome State Fault Refusal := onDev s fun d => fxSetBuildEnd d set
/-- MAP_CREATE. -/
def execMapCreate (c : Cmd) (s : State) : Host.Outcome State Fault Refusal := onDev s fun d => fxMapCreate d c
/-- MAP_UPDATE. -/
def execMapUpdate (c : Cmd) (s : State) : Host.Outcome State Fault Refusal := onDev s fun d => fxMapUpdate d c
/-- MAP_COMMIT. -/
def execMapCommit (c : Cmd) (s : State) : Host.Outcome State Fault Refusal := onDev s fun d => fxMapCommit d c
/-- MAP_GRANT with its revoke flag clear. -/
def execMapGrant (c : Cmd) (s : State) : Host.Outcome State Fault Refusal := onDev s fun d => fxMapGrant d c (bitAt (fld c.block 2 1) 0)
/-- MAP_GRANT with the revoke flag. -/
def execMapGrantRevoke (c : Cmd) (s : State) : Host.Outcome State Fault Refusal := onDev s fun d => fxMapGrant d c true
/-- MAP_DESTROY. -/
def execMapDestroy (c : Cmd) (s : State) : Host.Outcome State Fault Refusal := onDev s fun d => fxMapDestroy d c
/-- STREAM_OPEN. -/
def execStreamOpen (c : Cmd) (s : State) : Host.Outcome State Fault Refusal := onDev s fun d => fxStreamOpen d c
/-- STREAM_CLOSE. -/
def execStreamClose (c : Cmd) (s : State) : Host.Outcome State Fault Refusal := onDev s fun d => fxStreamClose d c

end Sys2Proof.Machine
end

