-- ==== Sys2Proof/Machine/Agents.lean ====
section
/-! DEFINITION. Commands on agents (R145 to R154, R237, R372, R403, R404, R474) and the status records of QUERY_STATUS (R375). -/
namespace Sys2Proof.Machine

/-- An agent's record changed. -/
def modAgent (d : Dev) (a : Nat) (f : AgentRec → AgentRec) : Dev := { d with world := { d.world with agents := tmod d.world.agents a f } }
/-- The binding that an AGENT_BIND block spells (R372). -/
def bindOf (b : Bytes) : Bind :=
  { model := fld b 4 2, homeMap := fld b 6 1, stream := fld b 7 1, sets := (List.range 4).map fun i => fld b (8 + 2 * i) 2,
    ctrlPort := fld b 16 1, ctrlMac := fld b 18 6, ctrlVlan := fld b 24 2, rungs := fld b 3 1,
    baseDecel := (List.range 4).map fun i => fld b (32 + 4 * i) 4, jointDecel := (List.range 4).map fun i => fld b (48 + 2 * i) 2 }
/-- Set slots of a binding that are used. -/
def usedSets (b : Bind) : List Nat := b.sets.filter (· != 0xffff)
/-- Ranges of an AGENT_BIND block that binds (R146, R372). -/
def bindRangeOk (d : Dev) (b : Bytes) : Bool :=
  let x := bindOf b
  let base := ((tget d.world.models x.model).map fun m => kinBase (modelDef m)).getD true
  b.length == 64 && (decide (fld b 0 2 ≤ 4095) || fld b 0 2 == 0xffff) && decide (1 ≤ x.rungs) && decide (x.rungs ≤ 4) && decide (x.model ≤ 1023) &&
  decide (x.homeMap ≤ 63) && decide (x.stream ≤ 127) && x.sets.getD 0 0xffff != 0xffff && x.sets.all (fun s => decide (s ≤ 255) || s == 0xffff) &&
  decide (x.ctrlPort ≤ 7) && fld b 17 1 == 0 && x.ctrlMac != 0 && decide (1 ≤ x.ctrlVlan) && decide (x.ctrlVlan ≤ 4094) &&
  allZero (slice b 26 6) && allZero (slice b 56 8) &&
  (List.range 4).all fun r =>
    let bd := x.baseDecel.getD r 0; let jd := x.jointDecel.getD r 0
    if r < x.rungs then decide (1 ≤ jd) && (if base then decide (1 ≤ bd) && decide (bd ≤ 2 ^ 24) else bd == 0) else bd == 0 && jd == 0
/-- The objects that a binding names belong to the polder and fit (R146). -/
def bindRefsOk (d : Dev) (p : Nat) (self : Option Nat) (x : Bind) : Bool :=
  ((tget d.world.models x.model).map fun m => m.owner == p && m.kind == 1 && !m.removed).getD false &&
  ((tget d.world.maps x.homeMap).map fun m => m.owner == p && !m.removed).getD false &&
  ((tget d.world.streams x.stream).map fun s => s.polder == p && s.kind == 3 && s.closeTurn.isNone).getD false &&
  (d.world.agents.all fun a => some a.1 == self || (a.2.bind.stream != x.stream && a.2.next.map (·.stream) != some x.stream)) &&
  (usedSets x).all fun h => ((tget d.world.sets h).map fun s => s.owner == p && s.model == x.model && !s.removed).getD false
/-- The agent's spheres keep the band of the fabric table (R519). -/
def bandOk (d : Dev) (x : Bind) : Bool :=
  match d.fab.band with
  | none => true
  | some b =>
    let m := ((tget d.world.models x.model).map modelDef).getD []
    let r := (List.range (kinS m)).foldl (fun a i => max a (kinRho m i)) 0
    decide (2 * r ≤ (b : Int))
/-- Registered VLANs of a field port (R474). -/
def portVlans (d : Dev) (port : Nat) : List Nat :=
  ((d.world.agents.filter fun a => a.2.bind.ctrlPort == port).map fun a => a.2.bind.ctrlVlan).eraseDups
/-- The binding would register a 65th VLAN on its port (R474). -/
def vlanFull (d : Dev) (self : Option Nat) (x : Bind) : Bool :=
  let l := ((d.world.agents.flatMap fun a =>
      (if some a.1 = self then [] else [a.2.bind]) ++ (if some a.1 = self then [] else a.2.next.toList)).filter fun b => b.ctrlPort == x.ctrlPort).map
      (fun b : Bind => b.ctrlVlan) |>.eraseDups
  !l.contains x.ctrlVlan && decide (l.length ≥ 64)
/-- Agents of a polder. -/
def agentsOf (d : Dev) (p : Nat) : Nat := (d.world.agents.filter fun a => a.2.polder == p).length

/-- The agent's number that a binding keeps, none for a new agent. -/
def bindSelf (c : Cmd) : Option Nat := if fld c.block 0 2 = 0xffff then none else some (fld c.block 0 2)
/-- The class-0 charge of a binding (R237). -/
def bindCharge (d : Dev) (c : Cmd) : Nat :=
  let x := bindOf c.block
  ladderCharge d (((tget d.world.models x.model).map modelDef).getD []) x.rungs
/-- A binding names an agent or an object that is not the polder's (R146, R390). -/
def bindRefBad (d : Dev) (c : Cmd) : Bool :=
  (fld c.block 0 2 != 0xffff && ((tget d.world.agents (fld c.block 0 2)).map fun a => a.polder != c.polder).getD true) ||
    !bindRefsOk d c.polder (bindSelf c) (bindOf c.block)
/-- The tests of AGENT_BIND in the order of R572 (R145 to R147, R237, R404); an agent that leaves in this ledger takes no binding. Log entry 99 DEDUCED. -/
def agentBindTests (d : Dev) (c : Cmd) : List (Bool × Nat × Nat) :=
  let b := c.block; let h := fld b 0 2; let x := bindOf b
  let old := tget d.world.agents h
  let gone := (old.map (·.leaving)).getD false && h != 0xffff
  let tile := if h = 0xffff then bestTile d c.polder else (old.map (·.tile)).getD 0
  let same := (old.map fun a => let cur := a.next.getD a.bind; cur.model == x.model && cur.rungs == x.rungs).getD false && h != 0xffff
  [
    (!bindRangeOk d b, stBadRange, 0), (bindRefBad d c || gone || !bandOk d x, stBadState, 0), (vlanFull d (bindSelf c) x, stBadState, 5),
    (h == 0xffff && (lowestFree d.world.agents 4096).isNone, stAgent, 0),
    (h == 0xffff && decide (agentsOf d c.polder ≥ (polder d c.polder).quotaAgent), stAgent, 1),
    (!same && decide (reserved d c.polder tile (bindSelf c) + bindCharge d c > capP d c.polder), stClass0, 0)]
/-- AGENT_BIND with unbind clear (R145 to R147, R237, R404). -/
def fxAgentBind (d : Dev) (c : Cmd) : Dev :=
  let h := fld c.block 0 2; let x := bindOf c.block
  match firstFail (agentBindTests d c) with
  | some (st, det) => if st = stBadState && det = 0 && bindRefBad d c then dikeRefuse d c else answer d c st det
  | none =>
    if h = 0xffff then
      let n := (lowestFree d.world.agents 4096).getD 0
      let a : AgentRec := { (default : AgentRec) with
        polder := c.polder, bind := x, tile := bestTile d c.polder, charge := bindCharge d c, chargeNext := bindCharge d c, fresh := true }
      ok { d with world := { d.world with agents := tput d.world.agents n a } } c n
    else ok (modAgent d h fun a => { a with next := some x, chargeNext := bindCharge d c }) c h

/-- An agent is unbound: its queries end, its estimates end, it is removed at the turn's end (R148, R439). -/
def unbindAgent (d : Dev) (h : Nat) : Dev :=
  let d := endQueries d (queriesOf d h) stCancelled 0
  let d := (d.cal.est.filter fun e => e.2.kind == 1 && e.2.agent == h && e.2.state != 0).foldl (fun d e => endEstimate d e.1 8) d
  modAgent d h fun a => { a with leaving := true }
/-- AGENT_BIND with unbind set (R148). -/
def fxAgentUnbind (d : Dev) (c : Cmd) : Dev :=
  let h := fld c.block 0 2
  if c.block.length ≠ 64 || h > 4095 || fld c.block 2 1 > 1 then answer d c stBadRange 0 else
  match tget d.world.agents h with
  | none => dikeRefuse d c
  | some a => if a.polder ≠ c.polder then dikeRefuse d c else if a.leaving then answer d c stBadState 0 else ok (unbindAgent d h) c h
/-- AGENT_BIND as its unbind field says. -/
def fxBind (d : Dev) (c : Cmd) : Dev :=
  if fld c.block 2 1 > 1 then answer d c stBadRange 0 else if bitAt (fld c.block 2 1) 0 then fxAgentUnbind d c else fxAgentBind d c

/-! ### Status records (R154, R375) -/

/-- The 40-byte agent status record (R154). -/
def agentStatus (d : Dev) (n : Nat) (a : AgentRec) : Bytes :=
  let mv := (((tget d.world.models a.bind.model).bind curModel).map (·.ver)).getD 0
  leBytes 2 (n % 4096) ++ leBytes 1 a.polder ++ leBytes 1 (a.state + 8 * a.rung) ++ leBytes 2 a.bind.model ++ leBytes 1 a.bind.homeMap ++
  leBytes 1 a.bind.stream ++ leBytes 4 mv ++ leBytes 6 a.lastTurn ++ zeros 2 ++ leBytes 4 a.staleCnt ++ leBytes 4 a.released ++
  leBytes 4 a.stopsReleased ++ leBytes 4 a.invalidated ++ leBytes 4 a.rungFalls
/-- The state of a query as selector 4 shows it. -/
def queryState (q : QueryRec) : Nat := match q.stage with
  | .entered => if q.replanned && q.actTurn != 0 then 3 else 0
  | .spilled => 0
  | .ready => 2
  | .ended => 4
  | _ => 1
/-- The 32-byte query record. -/
def queryRecord (q : QueryRec) : Bytes :=
  leBytes 4 q.cmd.tag ++ leBytes 1 (queryState q) ++ leBytes 1 q.cmd.cls ++ leBytes 1 q.cmd.polder ++ zeros 1 ++ leBytes 6 q.admTurn ++ zeros 2 ++
  leBytes 4 q.expansions ++ leBytes 4 ((q.pinMaps.head?.map (·.2)).getD 0) ++ zeros 8
/-- The 32-byte record of a model or set. -/
def objRecord (h kind owner ver live : Nat) (pend : Bool) (charge : Nat) : Bytes :=
  leBytes 2 h ++ leBytes 1 kind ++ leBytes 1 owner ++ leBytes 4 ver ++ leBytes 1 live ++ leBytes 1 (b2n pend) ++ zeros 2 ++
  leBytes 4 (kib charge) ++ zeros 16
/-- The query that a tag names for a polder: its own, or for the physical function that of any polder, the lowest first (R375). -/
def queryByTag (d : Dev) (p tag : Nat) : Option (Nat × QueryRec) :=
  let l := d.q.recs.filter fun q => q.2.cmd.tag == tag
  (l.find? fun q => q.2.cmd.polder == p).orElse fun _ =>
    if p = 0 then (List.range 17).findSome? fun k => l.find? fun q => q.2.cmd.polder == k else none
/-- The owner and the record that a selector names (R375). -/
def statusRecord (d : Dev) (c : Cmd) : Option (Nat × Bytes) :=
  let h := fld c.block 2 2
  match fld c.block 0 1 with
  | 1 => (tget d.world.maps h).map fun m => (if m.grants.contains c.polder then c.polder else m.owner, mapStatus d h m)
  | 2 => (tget d.world.streams h).map fun s => (s.polder, streamStatus h s)
  | 3 => (tget d.world.agents h).map fun a => (a.polder, agentStatus d h a)
  | 4 => (queryByTag d c.polder (fld c.block 4 4)).map fun q => (q.2.cmd.polder, queryRecord q.2)
  | 5 => (tget d.world.models h).map fun m =>
      (m.owner, objRecord h m.kind m.owner (((curModel m).map (·.ver)).getD 0) m.vers.length (m.pend.isSome || m.due.isSome) (modelCharge m))
  | 6 => (tget d.world.sets h).map fun s =>
      (s.owner, objRecord h s.kind s.owner (((curSet s).map (·.ver)).getD 0) s.vers.length (s.pend.isSome || s.build.isSome) (setCharge s))
  | _ => none
/-- A QUERY_STATUS block is in range (R370). -/
def askOk (c : Cmd) : Bool := c.block.length == 8 && decide (1 ≤ fld c.block 0 1) && decide (fld c.block 0 1 ≤ 6) && fld c.block 1 1 == 0
/-- The answer of QUERY_STATUS from the state as it is, ordered at ledger index `idx` (R375). -/
def answerAsk (d : Dev) (c : Cmd) (idx : Nat) (inLedger : Bool := true) : Dev :=
  let adm := if inLedger then d.time.turn else 0
  let due := if inLedger then d.time.turn else 0
  if !askOk c then reply d c stBadRange 0 none adm 0 due idx
  else match statusRecord d c with
  | none => reply d c stBadState 0 none adm 0 due idx
  | some (o, r) =>
    if o ≠ c.polder && c.polder ≠ 0 then reply (dike d c.polder) c stBadState 0 none adm 0 due idx
    else reply d c 0 0 (some r) adm 0 due idx
/-- QUERY_STATUS: it is answered with the state at the end of its ledger turn, during replay at once (R367, R375). -/
def fxQueryStatus (d : Dev) (c : Cmd) : Dev :=
  if d.ldg.replay then answerAsk d c 0 false
  else { d with ldg := { d.ldg with asks := d.ldg.asks ++ [(c, d.ldg.pos)] } }

/-- QUERY_STATUS. -/
def execQueryStatus (c : Cmd) (s : State) : Host.Outcome State Fault Refusal := onDev s fun d => fxQueryStatus d c
/-- AGENT_BIND. -/
def execAgentBind (c : Cmd) (s : State) : Host.Outcome State Fault Refusal := onDev s fun d => fxBind d c
/-- AGENT_BIND with unbind set. -/
def execAgentUnbind (c : Cmd) (s : State) : Host.Outcome State Fault Refusal := onDev s fun d => fxAgentUnbind d c

end Sys2Proof.Machine
end

