-- ==== Sys2Proof/Machine/Polders.lean ====
section
/-! DEFINITION. Commands on polders (R380 to R391) and what a reset or a destruction does at once and at the turn's end; queue pairs as
a whole: enabling, disabling, withdrawing interrupts (R351, R357, R359). -/
namespace Sys2Proof.Machine

/-! ### Queue pairs -/

/-- A queue pair's record changed; a pair that is not listed is as after reset. -/
def modPair (d : Dev) (p q : Nat) (f : PairRec → PairRec) : Dev :=
  { d with host := { d.host with pairs := tput d.host.pairs (pairKey p q) (f (tgetD d.host.pairs (pairKey p q) default)) } }
/-- The record of a queue pair. -/
def pairOf (d : Dev) (p q : Nat) : PairRec := tgetD d.host.pairs (pairKey p q) default
/-- Entries of the SQ of a pair (R351). -/
def sqSize (d : Dev) (p q : Nat) : Nat := 2 ^ bits (rget d (pageReg p q 0)) 4 1
/-- Entries of the CQ of a pair. -/
def cqSize (d : Dev) (p q : Nat) : Nat := 2 ^ bits (rget d (pageReg p q 0)) 8 5
/-- The enable bit of a pair cleared in its register. -/
def clearEnable (d : Dev) (p q : Nat) : Dev := rfield d (pageReg p q 0) 0 0 0
/-- A run of chunks is cut: its mark goes into the next ledger sealed (R61). Log entry 82 DEDUCED. -/
def cutRun (d : Dev) (p q : Nat) : Dev :=
  match (pairOf d p q).chunk with
  | none => d
  | some (e, _) =>
    { modPair d p q (fun x => { x with chunk := none }) with ldg := { d.ldg with cuts := d.ldg.cuts ++ [(e.source, e.ctr)] } }
/-- A pair is disabled and its replies are discarded (R387, R350, R554). Log entry 82 DEDUCED. -/
def killPair (d : Dev) (p q : Nat) : Dev :=
  let d := cutRun d p q
  if (tget d.host.pairs (pairKey p q)).isNone then clearEnable d p q else
  modPair (clearEnable d p q) p q fun x =>
    { x with enabled := false, busy := false, lost := some x.fetchCtr, outstanding := 0, waiting := [], coal := 0, timer := false, chunk := none }
/-- A pair stops as though its enable had been cleared, but for the replies still due, which are discarded: a run of chunks in progress is fetched to its
end first (R61, R350, R357). -/
def stopPair (d : Dev) (p q : Nat) : Dev :=
  if (tget d.host.pairs (pairKey p q)).isNone then clearEnable d p q else
  modPair (clearEnable d p q) p q fun x =>
    { x with enabled := false, busy := x.chunk.isSome, lost := some x.fetchCtr, outstanding := 0, waiting := [], coal := 0, timer := false }
/-- Every pair of a polder. -/
def killPairs (d : Dev) (p : Nat) : Dev := (List.range 8).foldl (fun d q => killPair d p q) d
/-- The pending interrupts of a function are withdrawn (R359). -/
def withdraw (d : Dev) (fn : Nat) : Dev := { d with host := { d.host with pba := d.host.pba.filter fun k => k / 64 != fn } }

/-! ### Polder commands -/

/-- Values of a POLDER_CREATE or POLDER_MODIFY block: weight, rate, slice, query, map, stream, agent and store quotas (R370). -/
def polderVals (b : Bytes) : List Nat := [fld b 2 2, fld b 4 4, fld b 8 2, fld b 10 2, fld b 12 1, fld b 13 1, fld b 14 2, fld b 16 4]
/-- The values are in range (R370, R384). -/
def polderRange (b : Bytes) : Bool :=
  b.length == 20 && fld b 1 1 == 0 && decide (1 ≤ fld b 2 2) && decide (1 ≤ fld b 4 4) && decide (fld b 4 4 ≤ 1000000) && decide (fld b 10 2 ≤ 16384) &&
  decide (fld b 12 1 ≤ 64) && decide (fld b 13 1 ≤ 128) && decide (fld b 14 2 ≤ 4096) && decide (fld b 16 4 ≤ 36288)
/-- A polder takes its values (R382, R385). -/
def setVals (x : PolderRec) (v : List Nat) : PolderRec :=
  { x with weight := v.getD 0 0, rate := v.getD 1 0, slice := v.getD 2 0, quotaQ := v.getD 3 0, quotaMap := v.getD 4 0, quotaStream := v.getD 5 0,
           quotaAgent := v.getD 6 0, quotaStore := v.getD 7 0, next := none }
/-- The slices that are due for the next turn, polder `skip` left out. -/
def slicesDue (d : Dev) (skip : Nat) : Nat :=
  total ((d.pld.filter fun x => x.1 != skip && x.1 != 0 && (x.2.state != 0 || x.2.creating)).map fun x => match x.2.next with
    | some v => v.getD 2 0
    | none => x.2.slice) + bits (rget d 0x100808) 16 0
/-- The bundle's polder table names the polder (R528). -/
def cfgPolder (d : Dev) (p : Nat) : Bool :=
  ((d.fab.cfg.map fun b => b.secs.any fun s => s.1 == 4 && (List.range 16).any fun i => p != 0 && fld s.2.2.2 (20 * i) 1 == p)).getD false
/-- POLDER_CREATE (R382). -/
def fxPolderCreate (d : Dev) (c : Cmd) : Dev :=
  let b := c.block; let n := fld b 0 1
  let free := (List.range 16).find? fun i => (polder d (i + 1)).state == 0 && !(polder d (i + 1)).creating
  let p := if n = 0xff then (free.map (· + 1)).getD 0 else n
  match firstFail [
    (!polderRange b || ((n == 0 || decide (n > 16)) && n != 0xff), stBadRange, 0),
    (n != 0xff && ((polder d n).state != 0 || (polder d n).creating), stBadState, 0),
    (cfgPolder d p || (!(n == 0xff && free.isNone) && decide (slicesDue d 99 + fld b 8 2 > bermLen d)), stBadState, 0),
    (n == 0xff && free.isNone, stPolder, 0)] with
  | some (st, det) => answer d c st det
  | none => ok (modPolder d p fun x => { (default : PolderRec) with state := x.state, creating := true, next := some (polderVals b), resetCnt := x.resetCnt }) c p
/-- POLDER_MODIFY (R385). -/
def fxPolderModify (d : Dev) (c : Cmd) : Dev :=
  let b := c.block; let p := fld b 0 1; let x := polder d p
  match firstFail [
    (!polderRange b || p == 0 || decide (p > 16), stBadRange, 0),
    (x.state == 0 || x.state == 3 || cfgPolder d p || decide (fld b 10 2 < useQ d p) || decide (fld b 12 1 < mapsOf d p) || decide (fld b 13 1 < streamsOf d p) ||
      decide (fld b 14 2 < agentsOf d p) || (fld b 16 4 != 0 && decide (fld b 16 4 * 1048576 < polderStore d p)), stBadState, 0),
    (decide (slicesDue d p + fld b 8 2 > bermLen d) || !sliceHolds d p (fld b 8 2), stClass0, 0)] with
  | some (st, det) => answer d c st det
  | none => ok (modPolder d p fun x => { x with next := some (polderVals b) }) c

/-- What a reset does at the position of its entry (R387 items 1 to 5, R436). -/
def resetPolder (d : Dev) (p : Nat) : Dev :=
  let d := endQueries d (queriesOfPolder d p) stCancelled 0
  let d := killPairs d p
  let d := withdraw d p
  let d := (d.world.agents.filter fun a => a.2.polder == p && !a.2.leaving).foldl (fun d a => modAgent d a.1 fun a => { a with leaving := true }) d
  let d := { d with cal := { d.cal with est := tmap (fun _ e => if e.polder = p ∧ e.state ≠ 0 then { e with state := 0 } else e) d.cal.est,
                                        outcomes := d.cal.outcomes.filter fun o => !(o.2.polder == p && decide (o.1 > d.time.turn)) } }
  modPolder d p fun x => { x with state := 2, deficit := 0, resetCnt := (x.resetCnt + 1) % 2 ^ 32 }
/-- POLDER_RESET (R386, R387); the internal form of an FLR has no reply. Log entry 61 DEDUCED. -/
def fxPolderReset (d : Dev) (c : Cmd) : Dev :=
  let p := fld c.block 0 1
  if c.block.length ≠ 4 || p = 0 || p > 16 || !allZero (slice c.block 1 3) then answer d c stBadRange 0 else
  match (polder d p).state with
  | 0 => answer d c stBadState 0
  | 1 => ok (resetPolder d p) c
  | _ => ok d c
/-- A query of another polder pins a version of one of the polder's maps (R389). -/
def foreignPin (d : Dev) (p : Nat) : Bool :=
  (liveQueries d).any fun q => q.2.cmd.polder != p && q.2.pinMaps.any fun m => ((tget d.world.maps m.1).map fun x => x.owner == p).getD false
/-- POLDER_DESTROY (R389). -/
def fxPolderDestroy (d : Dev) (c : Cmd) : Dev :=
  let p := fld c.block 0 1
  if c.block.length ≠ 4 || p = 0 || p > 16 || !allZero (slice c.block 1 3) then answer d c stBadRange 0
  else if (polder d p).state = 0 || (polder d p).state = 3 || cfgPolder d p || foreignPin d p then answer d c stBadState 0
  else ok (modPolder (if (polder d p).state = 1 then resetPolder d p else d) p fun x => { x with state := 3 }) c

/-! ### At the turn's end (R120, R387, R389) -/

/-- The blind fill of a polder's streams that feed map `h`, to be removed at its next formation (R120). Log entry 55 DEDUCED. -/
def fillsOf (d : Dev) (p h : Nat) : List VoxRec :=
  ((feeding d h).filter fun s => s.2.polder == p && decide (s.2.blindPlane ≤ 1) && (s.2.timedOut || s.2.resumeTurn != 0)).map fun s =>
    { op := 5, plane := blindPlaneOf s.2.blindPlane, lo := s.2.coverMin, hi := s.2.coverMax, mask := BitVec.allOnes 64 }
/-- The objects of a polder that has been reset: staged sets, builds and streams with their blind fill (R120). Log entry 55 DEDUCED. -/
def dropStaged (d : Dev) (p : Nat) : Dev :=
  { d with world := { d.world with
      maps := tmap (fun h m => if m.owner = p then { m with staged := default, build := .idle, unfill := m.unfill ++ fillsOf d p h } else m) d.world.maps,
      streams := tmap (fun _ s => if s.polder = p then { s with closeTurn := some (s.closeTurn.getD d.time.turn) } else s) d.world.streams } }
/-- The objects of a destroyed polder leave: maps, models, sets, and the grants it held (R389). -/
def dropObjects (d : Dev) (p : Nat) : Dev :=
  { d with world := { d.world with
      maps := tmap (fun _ m => { m with grants := m.grants.filter (· != p), grantNext := m.grantNext.filter (· != p) }) (tfilter (fun _ m => m.owner != p) d.world.maps),
      models := tfilter (fun _ m => m.owner != p) d.world.models, sets := tfilter (fun _ s => s.owner != p) d.world.sets } }
/-- One polder at the turn's end: a reset ends (PF vector 63 signals it), a destroyed polder leaves. -/
def polderEnd (d : Dev) (p : Nat) : Dev :=
  match (polder d p).state with
  | 2 => irq (modPolder (dropStaged d p) p fun x => { x with state := 1 }) 0 63
  | 3 => irq (modPolder (dropObjects (dropStaged d p) p) p fun x => { (default : PolderRec) with resetCnt := x.resetCnt }) 0 63
  | _ => d
/-- The bucket of a polder refilled up to time `t`, in 10^-9 requests (R394). -/
def refill (x : PolderRec) (t : Nat) : PolderRec :=
  { x with bucket := min (max 16 ((x.rate + 999) / 1000) * 1000000000) (x.bucket + (t - x.bucketAt) * x.rate), bucketAt := max t x.bucketAt }
/-- New and changed values from the start of the next turn; the bucket has filled at the old rate until then (R382, R385, R394). -/
def polderNext (d : Dev) (p : Nat) : Dev :=
  match (polder d p).next with
  | none => d
  | some v => modPolder d p fun x =>
      if x.creating then
        { setVals x v with state := 1, creating := false, deficit := 0, resetCnt := 0, bucket := max 16 ((v.getD 1 0 + 999) / 1000) * 1000000000, bucketAt := d.time.now }
      else setVals (refill x d.time.now) v

/-- POLDER_CREATE. -/
def execPolderCreate (c : Cmd) (s : State) : Host.Outcome State Fault Refusal := onDev s fun d => pfOnly d c fxPolderCreate
/-- POLDER_MODIFY. -/
def execPolderModify (c : Cmd) (s : State) : Host.Outcome State Fault Refusal := onDev s fun d => pfOnly d c fxPolderModify
/-- POLDER_RESET. -/
def execPolderReset (c : Cmd) (s : State) : Host.Outcome State Fault Refusal := onDev s fun d => pfOnly d c fxPolderReset
/-- POLDER_DESTROY. -/
def execPolderDestroy (c : Cmd) (s : State) : Host.Outcome State Fault Refusal := onDev s fun d => pfOnly d c fxPolderDestroy

end Sys2Proof.Machine
end

