-- ==== Sys2Proof/Machine/Select.lean ====
section
/-! DEFINITION. The select engine: compare keys and order (R285, R286), the four operations and their sums (R288 to R291),
descriptors and status records (R293 to R296), and the SELECT block (R297 to R300). -/
namespace Sys2Proof.Machine

/-- A key and its payload (R284). -/
abbrev Elem := Nat × Nat
/-- The element in 8 bytes at offset `o`. -/
def elemFld (bs : Bytes) (o : Nat) : Elem := (fld bs o 4, fld bs (o + 4) 4)
/-- The first `n` elements of a byte sequence. -/
def elemsOf : Nat → Bytes → List Elem
  | 0, _ => []
  | n + 1, bs => elemFld bs 0 :: elemsOf n (bs.drop 8)
/-- The bytes of elements. -/
def elemBytes (l : List Elem) : Bytes := l.flatMap fun e => leBytes 4 e.1 ++ leBytes 4 e.2
/-- The compare key of R285 in mode `md` (bit 0 signed, bit 1 descending). -/
def cmpKey (md key : Nat) : Nat :=
  let k := if bitAt md 0 then key ^^^ 0x80000000 else key
  if bitAt md 1 then k ^^^ 0xffffffff else k
/-- The key as the sums of R291 take it. -/
def keyVal (md key : Nat) : Int := if bitAt md 0 then sx 32 key else key
/-- Stable order on the compare key (R286). -/
def selOrder (md : Nat) (l : List Elem) : List Elem := sortBy (fun a b => decide (cmpKey md a.1 ≤ cmpKey md b.1)) l
/-- One element per distinct key of an ordered list, with the number of occurrences (R288). -/
def selUniq : List Elem → List Elem
  | [] => []
  | e :: t =>
    match selUniq t with
    | [] => [(e.1, 1)]
    | u :: us => if u.1 = e.1 then (e.1, u.2 + 1) :: us else (e.1, 1) :: u :: us
/-- The first place where a list breaks its order (R290): the index of the element below the one before it. -/
def selBreak (md : Nat) : List Elem → Nat → Option Nat
  | a :: b :: t, i => if cmpKey md b.1 < cmpKey md a.1 then some (i + 1) else selBreak md (b :: t) (i + 1)
  | _, _ => none

/-- The result of an operation: the output, the two sums and acc_sat; or where a MERGE list broke its order. -/
structure SelOut where
  out : List Elem := []
  sel : Int := 0
  left : Int := 0
  sat : Bool := false
  broke : Option (Nat × Nat) := none
  deriving DecidableEq, Repr, Inhabited

/-- The four operations (R288 to R291): 1 SORT, 2 TOPK, 3 UNIQ, 4 MERGE of `lists`. -/
def selRun (op md k : Nat) (lists : List (List Elem)) : SelOut :=
  let all := lists.flatten
  let broke := if op = 4 then lists.zipIdx.findSome? fun l => (selBreak md l.1 0).map fun i => (l.2, i) else none
  match broke with
  | some b => { broke := some b }
  | none =>
    let srt := selOrder md all
    let out := match op with
      | 2 => srt.take k
      | 3 => selUniq srt
      | _ => srt
    let vals := out.map fun e => keyVal md e.1
    let s := slvAcc vals
    let l := slvAcc (all.map (fun e => keyVal md e.1) ++ vals.map fun v => -v)
    { out := out, sel := s.1, left := l.1, sat := s.2 || l.2 }

/-- ceil(log_b n), on fuel. -/
def clogFrom (b : Nat) : Nat → Nat → Nat
  | 0, _ => 0
  | f + 1, n => if n ≤ 1 then 0 else 1 + clogFrom b f ((n + b - 1) / b)
/-- The cycles of an operation without conflicts (R292). -/
def selCycles (op n k lists : Nat) : Nat :=
  let p := (n + 63) / 64
  let c8 := fun x => (x + 7) / 8
  let srt := 32 + p + clogFrom 16 64 p * (16 + c8 n)
  match op with
  | 1 => srt
  | 2 => if k ≤ 64 then 32 + p + 8 * clogFrom 2 64 p + c8 (min k n) else (k + 63) / 64 * (40 + p + 8 * clogFrom 2 64 p)
  | 3 => srt + c8 n
  | _ => 16 + lists + c8 n

/-- A unit-operation descriptor (R293). -/
structure SelDesc where
  mode : Nat
  lists : Nat
  n : Nat
  k : Nat
  src : Nat
  dst : Nat
  tmp : Nat
  st : Nat
  rows : List Nat
  ok : Bool
  deriving DecidableEq, Repr, Inhabited

/-- The descriptor read from its 64 bytes, for operation `op` (R293), with the range checks of R295. -/
def parseSel (op : Nat) (bs : Bytes) : SelDesc :=
  let lists := bits (fld bs 1 1) 4 0
  let hi := fld bs 2 2
  let n := fld bs 4 4; let k := fld bs 8 4
  let rows := if op = 4 then (List.range lists).map fun i => fld bs (32 + 2 * i) 2 + 65536 * b2n (bitAt hi i) + 1 else [(n + 7) / 8]
  let tot := rows.sum
  { mode := fld bs 0 1 % 4, lists := lists, n := n, k := k, src := fld bs 12 4, dst := fld bs 16 4, tmp := fld bs 20 4, st := fld bs 24 4,
    rows := rows,
    ok := decide (fld bs 0 1 < 4) && decide (1 ≤ n) && decide (n ≤ 1048576) &&
      (if op = 4 then decide (1 ≤ fld bs 1 1) && decide (fld bs 1 1 ≤ 16) && tot == (n + 7) / 8 else fld bs 1 1 == 1 && hi == 0) &&
      (if op = 2 then decide (1 ≤ k) && decide (k ≤ 1024) else k == 0) &&
      decide (fld bs 12 4 < 2 ^ 22) && decide (fld bs 16 4 < 2 ^ 22) && decide (fld bs 20 4 < 2 ^ 22) && decide (fld bs 24 4 < 2 ^ 22) &&
      decide (fld bs 31 1 = 0) }

/-- The lists of a MERGE, or the one row of the others: list i starts at the row after list i - 1 ends (R293). -/
def selLists : Nat → List Nat → List Elem → List (List Elem)
  | _, [], _ => []
  | left, r :: rs, es => let c := min left (8 * r); es.take c :: selLists (left - c) rs (es.drop c)

/-- The 32-byte status record (R296). -/
def selStatus (o : SelOut) (fault : Bool) (cycles : Nat) : Bytes :=
  let b := o.broke.getD (0, 0)
  leBytes 1 (b2n o.sat + 2 * b2n fault + 4 * b2n o.broke.isSome) ++ leBytes 1 b.1 ++ zeros 2 ++ leBytes 4 o.out.length ++
    sbytes 8 o.sel ++ sbytes 8 o.left ++ leBytes 4 cycles ++ leBytes 4 b.2

/-- A unit operation on core banks that `owned` lists (R288 to R296): the memory, the result, whether it faulted, its length; a faulted one takes 16 cycles, and
so does an unknown code, which ends as a descriptor fault does. Log entry 50 DEDUCED. -/
def selUnit (mem : Mem) (owned : Nat → Bool) (die op addr : Nat) (conflicts : Nat) : Mem × SelDesc × SelOut × Bool × Nat :=
  let d := parseSel op (mgets mem addr 64)
  let rows := (d.n + 7) / 8
  let loc := fun v r => decide (bits v 17 0 + r ≤ bankRows) && owned (bits v 21 18)
  let outRows := if op = 2 then (min d.k d.n + 7) / 8 else rows
  let needTmp := op == 1 || op == 3
  let ok := decide (1 ≤ op) && decide (op ≤ 4) && d.ok && loc d.src rows && loc d.dst outRows && loc d.st 1 && (!needTmp || loc d.tmp rows) &&
    !(decide (rowField die d.dst < rowField die d.src + 64 * rows) && decide (rowField die d.src < rowField die d.dst + 64 * outRows)) &&
    !(needTmp && decide (rowField die d.dst < rowField die d.tmp + 64 * rows) && decide (rowField die d.tmp < rowField die d.dst + 64 * outRows))
  let cyc := selCycles op d.n d.k d.lists + conflicts
  if !ok then
    let m := if loc d.st 1 then mputs mem (rowField die d.st) (selStatus {} true 16) else mem
    (m, d, {}, true, 16)
  else
    let o := selRun op d.mode d.k (selLists d.n d.rows (elemsOf d.n (mgets mem (rowField die d.src) (8 * d.n))))
    let m := mputs mem (rowField die d.dst) (elemBytes o.out)
    (mputs m (rowField die d.st) (selStatus o false cyc), d, o, false, cyc)

/-! ### The SELECT block (R297 to R300) -/

/-- Length of the block up to the elements. -/
def selBlkHead (b : Bytes) : Nat := 64 + (if fld b 0 1 = 4 then (4 * fld b 2 2 + 7) / 8 * 8 else 0)
/-- The list lengths of a SELECT block. -/
def selBlkLens (b : Bytes) : List Nat :=
  if fld b 0 1 = 4 then (List.range (fld b 2 2)).map fun i => fld b (64 + 4 * i) 4 else [fld b 4 4]
/-- Cutting a row into lists of given lengths. -/
def cutLens : List Nat → List Elem → List (List Elem)
  | [], _ => []
  | n :: ns, es => es.take n :: cutLens ns (es.drop n)
/-- R297, R301: the block's fields are in range; `cls0` adds the class-0 limits. -/
def selBlkOk (b : Bytes) (cls0 : Bool) : Bool :=
  let op := fld b 0 1; let n := fld b 4 4; let k := fld b 8 4; let lists := fld b 2 2
  let t0 := fld b 12 1; let nt := fld b 13 1
  decide (64 ≤ b.length) && decide (1 ≤ op) && decide (op ≤ 4) && decide (fld b 1 1 < 4) &&
  (if op = 4 then decide (1 ≤ lists) && decide (lists ≤ 256) && (selBlkLens b).all (fun l => decide (1 ≤ l)) else lists == 1) &&
  decide (1 ≤ n) && decide (n ≤ 65536) && (if op = 2 then decide (1 ≤ k) && decide (k ≤ 65536) else k == 0) &&
  decide (1 ≤ nt) && decide (nt ≤ 32) && decide (t0 + nt ≤ 128) && allZero (slice b 14 50) && (selBlkLens b).sum == n &&
  b.length == selBlkHead b + 8 * n && allZero (slice b (64 + 4 * (if op = 4 then lists else 0)) (selBlkHead b - 64 - 4 * (if op = 4 then lists else 0))) &&
  (!cls0 || (op != 4 && decide (n ≤ 4096) && nt == 1 && decide (k ≤ 64)))
/-- The operation of a SELECT block over the whole row: R298 makes the result independent of n_t. -/
def selBlkRun (b : Bytes) : SelOut :=
  selRun (fld b 0 1) (fld b 1 1) (fld b 8 4) (cutLens (selBlkLens b) (elemsOf (fld b 4 4) (b.drop (selBlkHead b))))
/-- The result block (R300). -/
def selResult (b : Bytes) (o : SelOut) (timeLimited : Bool) : Bytes :=
  let els := if timeLimited then [] else elemBytes o.out
  let hdr := leBytes 1 (fld b 0 1) ++ leBytes 1 (b2n o.sat + 2 * b2n timeLimited) ++ zeros 2 ++
    leBytes 4 (if timeLimited then 0 else o.out.length) ++ sbytes 8 o.sel ++ sbytes 8 o.left
  hdr ++ leBytes 8 (crc64 0 (hdr ++ els)) ++ els

end Sys2Proof.Machine
end

