-- ==== Sys2Proof/Machine/Ledger.lean ====
section
/-! DEFINITION. Ledger entries (R54 to R64): their bytes, the shares of the ledger budget, placing them; commands as entries carry them
(R360, R366). -/
namespace Sys2Proof.Machine

/-- Source field of R64. Log entry 66 DESIGN CHOICE. -/
def srcField (port stream : Nat) : Nat := port * 1024 + stream
/-- Source of a host queue. -/
def srcHost (p q : Nat) : Nat := 8192 + p * 8 + q
/-- Source of a fabric id. -/
def srcFabric (id : Nat) : Nat := 16384 + id
/-- Internal source of a unit. -/
def srcUnit (u : Nat) : Nat := 24576 + u

/-- The 32-byte header of an entry at ledger index `i` (R62). -/
def entryHead (e : Entry) (i : Nat) : Bytes :=
  let h := leBytes 1 e.kind ++ leBytes 1 (b2n e.internal + 2 * b2n e.more) ++ leBytes 2 e.source ++ leBytes 4 e.ctr ++ leBytes 8 e.ts ++
    leBytes 4 e.payload.length ++ leBytes 1 e.polder ++ leBytes 1 e.cls ++ leBytes 2 i
  h ++ leBytes 4 (crc32c (h ++ e.payload)) ++ zeros 4
/-- Bytes of an entry in its ledger: header and padded payload. -/
def entryBytes (e : Entry) : Nat := 32 + (e.payload.length + 7) / 8 * 8

/-- The ledger budget V (R56). -/
def ldgBudget (fz : Fuses) (d : Dev) : Nat :=
  max (bits (rget d 0x500004) 7 0 * 1024 * (turnLen d / 1000)) (16384 * popDies fz + 32768)
/-- The part of V outside the class-0 reserve. -/
def ldgRest (fz : Fuses) (d : Dev) : Nat := ldgBudget fz d - 16384 * (liveDies d).length
/-- The field share. -/
def fieldShare (fz : Fuses) (d : Dev) : Nat := ldgRest fz d * bits (rget d 0x500004) 11 8 / 16
/-- The host share. -/
def hostShare (fz : Fuses) (d : Dev) : Nat := ldgRest fz d - fieldShare fz d
/-- The share an entry takes: 0 none, 1 the class-0 reserve, 2 the field share, 3 the host share, which holds every cancel (R56). -/
def shareOf (e : Entry) : Nat :=
  if e.internal then 0 else if e.kind = 3 && e.cls = 0 then 1 else if e.kind = 4 then 3 else if e.source / 8192 = 0 then 2 else 3
/-- Entries of an open ledger. Log entry 43 DESIGN CHOICE. -/
def openLedger (d : Dev) (turn : Nat) : List Entry := tgetD d.ldg.opened turn []
/-- Bytes of a share in use in a ledger. -/
def shareUsed (d : Dev) (turn k : Nat) : Nat := total (((openLedger d turn).filter fun e => shareOf e == k).map entryBytes)
/-- Bytes of the field share still open. -/
def fieldOpen (fz : Fuses) (d : Dev) (turn : Nat) : Nat := fieldShare fz d - shareUsed d turn 2
/-- Bytes of the host share still open. -/
def hostOpen (fz : Fuses) (d : Dev) (turn : Nat) : Nat := hostShare fz d - shareUsed d turn 3
/-- A message on the twin link, while the package is twin-configured and the link is up (R484). -/
def twinSend (d : Dev) (m : TwinMsg) : Dev :=
  if d.pkg.twin && d.twin.linkUp then
    { d with twin := { d.twin with txSeq := d.twin.txSeq + 1 }, out := d.out ++ [.twin d.twin.gen d.twin.txSeq m] }
  else d
/-- An entry placed in the ledger of a turn. -/
def placeEntry (d : Dev) (turn : Nat) (e : Entry) : Dev :=
  let d := { d with ldg := { d.ldg with opened := tput d.ldg.opened turn (openLedger d turn ++ [e]) } }
  if d.twin.role = .lead || (d.twin.role = .solo && d.twin.attach ≥ 2) then twinSend d (.entry turn e) else d

/-! ### Commands in entries -/

/-- Opcodes that are queries (R392). -/
def isQuery (op : Nat) : Bool := op == 0x500 || op == 0x501 || op == 0x600 || op == 0x700
/-- Ledger kind of an opcode (R63, R366). -/
def kindOf (op : Nat) : Nat :=
  if isQuery op then 3 else if op = 0x502 then 4 else if op / 256 = 3 then 5 else if op / 256 = 9 then 6 else 7
/-- Opcodes of R366. -/
def opcodes : List Nat :=
  [0, 1, 0x100, 0x101, 0x200, 0x201, 0x202, 0x203, 0x300, 0x301, 0x302, 0x303, 0x304, 0x400, 0x401, 0x402, 0x500, 0x501, 0x502, 0x600, 0x700, 0x800,
   0x900, 0x901, 0x902, 0xA00, 0xA01, 0xA02, 0xA03, 0xB00, 0xB01, 0xB02, 0xC00, 0xC01, 0xC02, 0xC03, 0xC04, 0xD00]
/-- Opcodes that only the PF may use (R366). -/
def pfOp (op : Nat) : Bool := op / 256 == 1 || op == 0x800 || op == 0x902 || decide (op / 256 ≥ 0xA)
/-- Shortest and longest parameter block of an opcode, in bytes (R369 to R374). -/
def blockRange (op : Nat) : Nat × Nat :=
  match op with
  | 1 => (8, 8) | 0x100 => (64, 4194304) | 0x101 => (8, 8) | 0x200 => (72, 268443720) | 0x201 => (72, 536870920) | 0x202 => (4, 4) | 0x203 => (4, 4)
  | 0x300 => (36, 36) | 0x301 => (8, 67108872) | 0x302 => (4, 4) | 0x303 => (4, 4) | 0x304 => (4, 4) | 0x400 => (48, 48) | 0x401 => (4, 4)
  | 0x402 => (64, 64) | 0x500 => (96, 96) | 0x501 => (4, 4) | 0x502 => (4, 4) | 0x600 => (64, 4194304) | 0x700 => (64, 525376) | 0x800 => (32, 32)
  | 0x900 => (8, 8) | 0x901 => (4, 4) | 0x902 => (8, 8) | 0xA00 => (20, 20) | 0xA01 => (20, 20) | 0xA02 => (4, 4) | 0xA03 => (4, 4)
  | 0xB02 => (12, 12) | 0xC00 => (4, 4) | 0xC01 => (12, 12) | 0xC03 => (72, 536870920) | 0xC04 => (12, 12) | 0xD00 => (4, 4)
  | _ => (0, 0)
/-- Opcodes whose block is taken indirectly only (R369, R371, R372). -/
def indirectOp (op : Nat) : Bool := op == 0x500 || op == 0x400 || op == 0x402
/-- The command that a packet and its block spell (R360). -/
def cmdOf (o : Origin) (p : Nat) (packet block : Bytes) : Cmd :=
  { origin := o, polder := p, op := fld packet 0 2, tag := fld packet 4 4, cls := bits (fld packet 2 1) 1 0, deadline := fld packet 8 8,
    budget := fld packet 16 4, noIrq := bitAt (fld packet 2 1) 3, block := block }
/-- The packet has the indirect flag. -/
def isIndirect (packet : Bytes) : Bool := bitAt (fld packet 2 1) 2
/-- Its block length. -/
def blockLen (packet : Bytes) : Nat := fld packet 56 4
/-- The block of a packet: inline bytes, or what was fetched. -/
def blockOf (packet block : Bytes) : Bytes := if isIndirect packet then fit (blockLen packet) block else slice packet 20 (blockLen packet)
/-- Origin of an entry of type 1 or of a field request (R64, R376). -/
def originOf (d : Dev) (e : Entry) : Origin :=
  match e.source / 8192 with
  | 0 =>
    let n := e.source % 128
    .field (bits e.source 12 10) ((((d.world.agents.find? fun a => a.2.bind.stream == n).map (·.1)).getD 0))
  | 1 => .host (bits e.source 7 3) (e.source % 8)
  | 2 => .fabric (e.source % 64)
  | _ => .internal (e.source % 256)
/-- The command that a run of entries spells: packet then block (R60). -/
def cmdOfRun (d : Dev) (es : List Entry) : Cmd :=
  let raw := es.flatMap (·.payload)
  let e := es.headD default
  { cmdOf (originOf d e) e.polder (raw.take 64) (blockOf (raw.take 64) (raw.drop 64)) with seq := e.ctr }

/-! ### Class-0 work and capacity (R396, R399, R403) -/

/-- Spillway places of a query with a block of `n` bytes (R399). -/
def placesOf (n : Nat) : Nat := (64 + n + 131071) / 131072
/-- Block length of the command that an entry opens. -/
def entryBlockLen (e : Entry) : Nat := blockLen e.payload
/-- Query entries that wait in ledgers not executed yet, or as the head of a run of chunks that is not complete (R60). -/
def waitingQueries (d : Dev) : List Entry :=
  ((d.ldg.opened.flatMap (·.2)) ++ ((d.ldg.ready.map (·.entries)).getD []) ++ d.ldg.runs.filterMap (·.2.head?)).filter fun e => e.kind == 3
/-- The agent's class-0 tile of a STOP_VERIFY. -/
def agentTile (d : Dev) (b : Bytes) : Option Nat := (tget d.world.agents (fld b 0 2)).map (·.tile)
/-- Lane cycles of one problem, row-read losses apart (R277). -/
def solveCycles (m hdr rec : Bytes) (evals : Nat) : Nat :=
  let n := kinN m; let fl := fld hdr 1 1; let link := fld hdr 12 1
  let q4 := fun x => (x + 3) / 4
  let dof := (dofSet m (fld hdr 10 2) (bitAt fl 1)).length
  let rows := (12 * kinS m + 63) / 64
  let mm := bits (fld rec 2 1) 4 0; let r := if bitAt fl 2 then 6 else 3
  64 + 32 * n + match fld hdr 0 1 with
    | 1 => (match bits fl 4 3 with
      | 0 => 16 + q4 (fkMacs m link [link])
      | 1 => 16 + q4 (fkMacs m n [])
      | _ => 16 + q4 (fkMacs m n (sphereLinks m)) + rows)
    | 2 => 16 + q4 (fkMacs m link [link]) + 8 + q4 (6 * dof)
    | 3 => evals * (48 + q4 (fkMacs m link [link] + dof * (r * r + 3 * r + 6)) + 12 * r)
    | 4 => bits (fld rec 0 2) 11 0 * (16 + q4 (96 * n + 24))
    | 5 => 20 * (bits (fld rec 0 2) 11 0 + 1) * (if kinBase m then n + 3 else n)
    | _ => 48 + q4 (bits (fld rec 0 2) 8 0 * mm * (mm + 3) / 2 + mm * mm * mm) + 12 * mm

/-- The charges of a class-0 query by tile (R403). -/
def c0Charges (d : Dev) (c : Cmd) : List (Nat × Nat) :=
  let misc := rget d 0x100818
  match c.op with
  | 0x501 => (agentTile d c.block).toList.map fun t => (t, bits misc 7 0)
  | 0x600 =>
    let m := ((tget d.world.models (fld c.block 2 2)).map modelDef).getD []
    let n := max 1 (fld c.block 7 1); let cnt := fld c.block 8 2; let rl := fld c.block 48 4
    (List.range (min n cnt)).map fun j =>
      let cyc := total (((List.range cnt).filter fun i => i % n == j).map fun i => solveCycles m c.block (slice c.block (64 + rl * i) rl) 1)
      ((fld c.block 6 1 + j) % 128, bits misc 15 8 + (cyc + 15) / 16)
  | 0x700 =>
    [(fld c.block 12 1 % 128, bits misc 23 16 + selCycles (fld c.block 0 1) (fld c.block 4 4) (fld c.block 8 4) 1)]
  | _ => []
/-- The die of a query (R395). -/
def queryDie (d : Dev) (c : Cmd) : Nat :=
  match c.op with
  | 0x500 => tileDie d (fld c.block 6 1)
  | 0x501 => ((agentTile d c.block).map (tileDie d)).getD 0
  | 0x600 => tileDie d (fld c.block 6 1)
  | _ => tileDie d (fld c.block 12 1)
/-- Class-0 commands placed in the ledger of a turn. -/
def c0Placed (d : Dev) (turn : Nat) : List Cmd :=
  ((openLedger d turn).filter fun e => e.kind == 3 && e.cls == 0).map fun e => cmdOfRun d [e]
/-- The first check of R396 that a class-0 query fails. -/
def c0Fail (d : Dev) (turn : Nat) (c : Cmd) : Option Nat :=
  let l := c0Placed d turn
  let die := queryDie d c
  let onDie := l.filter fun x => queryDie d x == die
  let port := if c.op = 0x501 then (tget d.world.agents (fld c.block 0 2)).map fun a => a.bind.ctrlPort else none
  if (onDie.filter fun x => x.polder == c.polder).length ≥ c0Share d c.polder then some 1
  else if onDie.length ≥ 64 then some 2
  else if !(c0Charges d c).all fun tc =>
      decide (reserved d c.polder tc.1 none + tc.2 +
        total ((l.filter fun x => x.polder == c.polder).flatMap fun x => ((c0Charges d x).filter fun y => y.1 == tc.1).map (·.2)) ≤ capP d c.polder) then some 3
  else match port with
    | none => none
    | some q =>
      if (l.filter fun x => x.op == 0x501 && (tget d.world.agents (fld x.block 0 2)).map (fun a => a.bind.ctrlPort) == some q).length ≥ 64 then some 4 else none
/-- Places held by spilled queries (R399). -/
def placesHeld (d : Dev) : Nat := total ((d.q.recs.filter fun q => q.2.stage == .spilled).map fun q => q.2.places)
/-- Places promised to queries that wait for their first active slot. -/
def placesPromised (d : Dev) : Nat :=
  total ((d.q.recs.filter fun q => q.2.stage == .entered && q.2.actTurn == 0).map fun q => q.2.places) +
  total ((waitingQueries d).filter (fun e => e.cls != 0) |>.map fun e => placesOf (entryBlockLen e))

/-- Largest result of a command in bytes (R355). -/
def maxResult (d : Dev) (c : Cmd) : Nat :=
  match c.op with
  | 1 => match fld c.block 0 1 with
    | 1 => 48
    | 2 => 40
    | 3 => 40
    | _ => 32
  | 0x500 => 1408
  | 0x501 => 64
  | 0x600 =>
    let m := ((tget d.world.models (fld c.block 2 2)).map modelDef).getD []
    32 + fld c.block 8 2 * solveBodyLen m c.block (slice c.block 64 (fld c.block 48 4))
  | 0x700 => 32 + 8 * (if fld c.block 0 1 = 2 then min (fld c.block 8 4) (fld c.block 4 4) else fld c.block 4 4)
  | 0x900 => 128
  | 0x901 => 128
  | 0x902 => 128
  | _ => 0
/-- Bytes rounded up to a multiple of 64. -/
def up64 (n : Nat) : Nat := (n + 63) / 64 * 64
/-- Free slots of die 0's scheduler serve the command (R362 check 5, R419). -/
def threadOk (d : Dev) (c : Cmd) : Bool :=
  let used := (((tget d.ctc.scheds 0).map fun s => (s.threads.filter fun t => t.2.state != .free).length)).getD 0
  if isQuery c.op && c.cls = 0 then decide (used < 256) else decide (256 - used > bits (rget d 0x01020000) 15 8)
/-- BAD_STATE and the like of R362 check 4. -/
def modeRefusal (d : Dev) (op : Nat) : Option (Nat × Nat) :=
  if d.twin.role = .quarantined && d.pkg.twin && !(op == 0 || op == 1 || op == 0xB00 || op == 0xB01) then some (0x303, 0)
  else if d.ldg.replay && !(op == 0 || op == 1 || op == 0x800) then some (stBadState, 7)
  else if d.pkg.twin && d.twin.role = .detached && isQuery op then some (stBadState, 6)
  else none
/-- Queries of classes 1 to 3 of a polder placed in a ledger and not yet ended (R384). -/
def placedQ (d : Dev) (p : Nat) : Nat := useQ d p + ((waitingQueries d).filter fun e => e.polder == p && e.cls != 0).length
/-- Checks 1 to 7 of R362 on a packet that would enter the ledger of `turn` at time `t`: the refusal, if any, and the polder's record
after the rate check. Log entry 37 DESIGN CHOICE. -/
def fetchCheck (d : Dev) (turn t : Nat) (c : Cmd) (packet : Bytes) (ring : Option Nat) : Option (Nat × Nat × Nat) × Dev :=
  let p := c.polder
  let r := blockRange c.op
  let len := blockLen packet
  let ind := isIndirect packet
  let need := up64 (maxResult d c) + 64
  let c0 := isQuery c.op && c.cls == 0
  if crc32c (packet.take 60) ≠ fld packet 60 4 || packet.length ≠ 64 then (some (stBadCheck, 0, 1), d)
  else if !opcodes.contains c.op || (p ≠ 0 && pfOp c.op) then (some (stBadOpcode, 0, 2), dike d p)
  else if len < r.1 || len > r.2 || (!ind && len > 36) || (!ind && indirectOp c.op) || bits (fld packet 2 1) 7 4 ≠ 0 || fld packet 3 1 ≠ 0 ||
      (!ind && !allZero (slice packet (20 + len) (36 - len))) || (ind && (fld packet 20 8 % 8 ≠ 0 && ring.isSome || !allZero (slice packet 28 28))) ||
      (isQuery c.op && c.budget = 0) || (c0 && 32 + (64 + len + 7) / 8 * 8 > 256) then (some (stBadRange, 0, 3), d)
  else if (ring.map fun z => decide (need > z)).getD false then (some (stBadRange, (need + 4095) / 4096 * 4096, 3), d)
  else match modeRefusal d c.op with
  | some (st, det) => (some (st, det, 4), d)
  | none =>
    if !threadOk d c then (some (stThread, 0, 5), d)
    else
      let x := refill (polder d p) t
      if x.state = 0 then (some (0x209, 0, 6), d)
      else if !c0 && x.bucket < 1000000000 then (some (0x209, 0, 6), modPolder d p fun _ => { x with violRate := satInc x.violRate 1 })
      else
        let d := modPolder d p fun _ => if c0 then x else { x with bucket := x.bucket - 1000000000 }
        if c0 then match c0Fail d turn c with
          | some k => (some (stClass0, k, 7), cnt (modPolder d p fun x => { x with c0Refuse := satInc x.c0Refuse 1 }) 0x100034)
          | none => (none, d)
        else if isQuery c.op && placesOf len + placesHeld d + placesPromised d > 65536 then (some (0x20A, 0, 7), cnt d 0x100038)
        else if isQuery c.op && placedQ d p ≥ x.quotaQ then (some (0x20A, 1, 7), d)
        else (none, d)

/-! ### Order of entries (R54, R397) -/

/-- The section that an entry stands in (R54). -/
def secOf (e : Entry) : Nat :=
  if e.source / 8192 = 3 then 1 else
  match e.kind with
  | 1 => 2
  | 2 => 2
  | 3 => 4
  | 4 => 5
  | _ => 3
/-- What entries are ordered by. -/
def entryKey (e : Entry) : List Nat :=
  match secOf e with
  | 1 => [1, e.kind, e.source, e.ctr]
  | 4 => [4, e.cls, e.polder, e.ts, e.source, e.ctr]
  | n => [n, e.ts, e.source, e.ctr]
/-- The entries of a ledger in their order. -/
def orderEntries (es : List Entry) : List Entry := sortBy (fun (a b : Entry) => decide (entryKey a ≤ entryKey b)) es

/-! ### Seals (R65, R66) -/

/-- Bytes of the entries of a ledger. -/
def ledgerBytes (es : List Entry) : Nat := total (es.map entryBytes)
/-- Seal bytes 0 to 15 (R65). -/
def sealHead (d : Dev) (turn : Nat) (gap replayed : Bool) (es : List Entry) : Bytes :=
  leBytes 6 turn ++ leBytes 1 (b2n gap + 2 * b2n replayed + 4 * b2n (simplex d)) ++ leBytes 1 (bits (rget d 0x600000) 2 0) ++ leBytes 4 es.length ++
  leBytes 4 (ledgerBytes es)
/-- The chained digest of a ledger (R66). -/
def ledgerDigest (d : Dev) (turn : Nat) (gap replayed : Bool) (prev : Nat) (es : List Entry) : Nat :=
  crc64 prev (sealHead d turn gap replayed es ++ es.zipIdx.flatMap fun e => entryHead e.1 e.2 ++ e.1.payload)

end Sys2Proof.Machine
end

