-- ==== Sys2Proof/Machine/HostPairs.lean ====
section
/-! DEFINITION. The host interface (R347 to R359): doorbells, enabling and draining queue pairs, writing replies and results, interrupts,
resets of functions and of the link. -/
namespace Sys2Proof.Machine

/-- HIF_SQ_TAIL (R352, R379): index in bits 11 to 0. -/
def fxSqTail (d : Dev) (p q v : Nat) : Dev :=
  let i := v % 4096
  if i ≥ sqSize d p q then stick d 0x700008 1 else modPair d p q fun x => { x with sqTail := i }
/-- HIF_CQ_HEAD (R354): the entries up to the index are released (running numbers, so that a full queue can be told from an empty one). Log entry 73 DEDUCED. -/
def fxCqHead (d : Dev) (p q v : Nat) : Dev :=
  let i := v % 4096; let n := cqSize d p q
  if i ≥ n then d else
  modPair d p q fun x =>
    let used := x.cqNext - x.cqHost
    let k := (i + n - x.cqHost % n) % n
    let k := if k = 0 && used = n then n else k
    if k ≤ used then { x with cqHost := x.cqHost + k } else x
/-- The value HIF_Q_CFG takes: vectors of 56 to 63 are 0, sizes the nearer limit (R358, R379). -/
def qCfg (v : Nat) : Nat :=
  let lg := fun x : Nat => min 12 (max 4 x)
  v % 2 + 2 * lg (bits v 4 1) + 32 * lg (bits v 8 5) + 512 * (if bits v 14 9 ≥ 56 then 0 else bits v 14 9) + 32768 * bits v 15 15
/-- HIF_Q_CFG with enable set while it was clear (R351, R354, R379). Log entry 73 DEDUCED. -/
def fxPairEnable (d : Dev) (p q v : Nat) : Dev :=
  let x := pairOf d p q
  if x.enabled || x.busy || !bitAt v 0 then d else
  modPair (rset (rset d (pageReg p q 0) (qCfg v)) (pageReg p q 0x24) 0) p q fun _ => { (default : PairRec) with enabled := true, phase := true, fetchCtr := x.fetchCtr, lost := x.lost }
/-- HIF_Q_CFG of a pair that is enabled or drains: irq_en takes its bit, the sizes and the vector keep theirs and a change of them counts (R570,
R571). -/
def qCfgLocked (d : Dev) (p q v : Nat) : Dev :=
  let o := pageReg p q 0
  let d := if bits (qCfg v) 14 1 = bits (rget d o) 14 1 then d else cnt d 0x10
  rfield d o 15 15 (bits v 15 15)
/-- HIF_Q_CFG with enable clear while it was set: the pair drains (R11, R357). -/
def fxPairDisable (d : Dev) (p q v : Nat) : Dev :=
  let x := pairOf d p q
  if !x.enabled || bitAt v 0 then d else
  modPair (clearEnable (qCfgLocked d p q v) p q) p q fun x => { x with enabled := false, busy := decide (0 < x.outstanding) || x.chunk.isSome }
/-- A write of HIF_Q_CFG (R351, R357, R379): it enables the pair, drains it, or sets what its lock leaves free. Log entry 73 DEDUCED. -/
def fxPairCfg (d : Dev) (p q v : Nat) : Dev :=
  let x := pairOf d p q
  if x.enabled then (if bitAt v 0 then qCfgLocked d p q v else fxPairDisable d p q v)
  else if x.busy then qCfgLocked d p q v
  else if bitAt v 0 then fxPairEnable d p q v
  else rset d (pageReg p q 0) (qCfg v)
/-- The last reply of a draining pair has been written (R357). -/
def fxPairDrained (d : Dev) (p q : Nat) : Dev :=
  let x := pairOf d p q
  if x.busy && x.outstanding = 0 && x.chunk.isNone then modPair d p q fun x => { x with busy := false } else d
/-- A PCIe error on a fetch or a write of a pair (R357): AER and HIF_DMA report it; an error on a fetch cuts the run of chunks that it was for (R61).
Log entry 85 DESIGN CHOICE. -/
def fxDmaError (d : Dev) (p q : Nat) (write : Bool) : Dev :=
  if (tget d.host.pairs (pairKey p q)).isNone then d else
  let d := stick d 0x700008 (if write then 4 else 2)
  raise (modPair (if write then stopPair d p q else killPair d p q) p q fun x => { x with dmaErr := true }) 0x01C 0 0xC0 (pairKey p q)

/-- Result ring bytes of a pair (R355). -/
def ringSize (d : Dev) (p q : Nat) : Nat := bits (rget d (pageReg p q 0x20)) 15 0 * 4096
/-- Where `n` bytes (a multiple of 64) of a result go: the offset and the new head, if there is room (R355). -/
def ringPlace (size head tail n : Nat) : Option (Nat × Nat) :=
  let used := (head + size - tail % size) % size
  if head + n ≤ size then (if used + n < size then some (head, (head + n) % size) else none)
  else if used + (size - head) + n < size then some (0, n % size) else none
/-- A pair register pair as one host address. -/
def pairAddr (d : Dev) (p q o : Nat) : Nat := rget d (pageReg p q o) / 4096 * 4096 + 2 ^ 32 * rget d (pageReg p q (o + 4))
/-- The CQ of a pair has no free entry. Log entry 73 DEDUCED. -/
def cqFull (d : Dev) (p q : Nat) : Bool := decide (cqSize d p q ≤ (pairOf d p q).cqNext - (pairOf d p q).cqHost)
/-- A reply is due now (R364); in replay from the end of its virtual turn on. -/
def replyDue (d : Dev) (r : Reply) : Bool :=
  r.due == 0 || decide (r.due < d.time.turn) || !running d || (d.ldg.replay && d.ldg.prepared.isSome && decide (r.due ≤ d.time.turn))
/-- The CQ's vector is signalled and the coalescing count starts again (R359). -/
def cqSignal (d : Dev) (p q : Nat) : Dev :=
  modPair (if bitAt (rget d (pageReg p q 0)) 15 then irq d p (bits (rget d (pageReg p q 0)) 14 9) else d) p q fun x => { x with coal := 0, timer := false }
/-- A reply counts towards coalescing (R359). -/
def coalesce (d : Dev) (p q : Nat) (noIrq : Bool) : Dev :=
  if noIrq || !bitAt (rget d (pageReg p q 0)) 15 then d else
  let v := rget d (pageReg p q 0x30)
  let x := pairOf d p q
  if bits v 7 0 = 0 || x.coal + 1 ≥ bits v 7 0 then cqSignal d p q
  else modPair d p q fun x => { x with coal := x.coal + 1, timer := x.timer || bits v 23 8 != 0 }
/-- The oldest due reply of a pair finds its CQ or its result ring full: the turn counts, once (R356). -/
def stallNow (d : Dev) (p q : Nat) : Dev :=
  let x := pairOf d p q
  match x.waiting with
  | [] => d
  | r :: _ =>
    let full := cqFull d p q
    let ring := (r.result.map fun b => !b.isEmpty && (ringPlace (ringSize d p q) x.resHead (rget d (pageReg p q 0x24)) (up64 b.length)).isNone).getD false
    if !running d || !replyDue d r || !(full || ring) || x.stalled == some d.time.turn then d
    else cnt (modPair d p q fun x => { x with stalled := some d.time.turn }) (if full then 0x700014 else 0x700018)
/-- Every pair, at the start and at the end of a turn. -/
def stallAll (d : Dev) : Dev := d.host.pairs.foldl (fun d p => stallNow d (p.1 / 8) (p.1 % 8)) d
/-- STATUS_REPLY_WRITE (R354 to R356, R364): the oldest due reply of the pair, when the CQ and the ring have room. -/
def fxReplyWrite (d : Dev) (p q : Nat) : Dev :=
  let x := pairOf d p q
  match x.waiting with
  | [] => d
  | r :: rest =>
    if !replyDue d r || cqFull d p q then d else
    let place := match r.result with
      | none => some (0xffffffff, x.resHead)
      | some b => if b.isEmpty then some (0xffffffff, x.resHead) else ringPlace (ringSize d p q) x.resHead (rget d (pageReg p q 0x24)) (up64 b.length)
    match place with
    | none => d
    | some (off, head) =>
      let n := cqSize d p q
      let b := replyBytes d r (x.cqNext / n % 2 == 0) q off
      let d := match r.result with
        | none => d
        | some res => if res.isEmpty then d else send d (.hostWrite (pairAddr d p q 0x18 + off) (padTo 64 res))
      let d := send d (.hostWrite (pairAddr d p q 0x10 + 32 * (x.cqNext % n)) b)
      let d := modPair d p q fun x => { x with waiting := rest, cqNext := x.cqNext + 1, phase := decide ((x.cqNext + 1) / n % 2 = 0), resHead := head, outstanding := x.outstanding - 1 }
      let d := { d with q := { d.q with recs := tfilter (fun _ y => !(y.stage == .ended && y.cmd.tag == r.tag && y.cmd.origin == .host p q)) d.q.recs } }
      stallNow (coalesce d p q r.noIrq) p q
/-- CQ_COAL_TIMEOUT (R359). -/
def fxCoalTimeout (d : Dev) (p q : Nat) : Dev := if (pairOf d p q).timer then cqSignal d p q else d
/-- MSIX_UNMASK (R359). -/
def fxUnmask (d : Dev) (fn vec : Nat) : Dev :=
  let k := fn * 64 + vec
  let d := { d with host := { d.host with masked := d.host.masked.filter (· != k) } }
  if d.host.pba.contains k then send { d with host := { d.host with pba := d.host.pba.filter (· != k) } } (.irq fn vec) else d
/-- FLR of VF p: an internal POLDER_RESET entry at its arrival (R386). -/
def fxFlrVf (d : Dev) (p t : Nat) : Dev :=
  if p = 0 || p > 16 || (polder d p).state = 0 then d else
  let d := atTime d t
  let packet := leBytes 2 0xA02 ++ zeros 18 ++ fit 36 (leBytes 4 p) ++ leBytes 4 4
  let e : Entry := { (default : Entry) with kind := 7, internal := true, source := srcHost p 0, ctr := d.ldg.intern + 1, ts := stamp t, polder := p,
                                            payload := packet ++ leBytes 4 (crc32c packet) }
  placeEntry { d with ldg := { d.ldg with intern := d.ldg.intern + 1 } } (entryTurn d t) e
/-- FLR of the PF: polder 0's pairs are disabled and its pending interrupts withdrawn; no ledger is touched, so no run of chunks is cut (R61, R350). -/
def fxFlrPf (d : Dev) : Dev := withdraw ((List.range 8).foldl (fun d q => stopPair d 0 q) d) 0
/-- A host-link reset (R554): every pair of every function, interrupts, HIF_CTL.fetch_en, link state. -/
def fxHostLinkReset (d : Dev) : Dev :=
  let d := (List.range 17).foldl (fun d p => withdraw (killPairs d p) p) d
  rset (rfield { d with host := { d.host with hostUp := false } } 0x700000 0 0 0) 0x700004 0
/-- PCIE_LINK_UP (R347): speed code, lanes and VFs show in HIF_STAT. Log entry 85 DESIGN CHOICE. -/
def fxLinkUp (d : Dev) (speed width vfs : Nat) : Dev :=
  rset { d with host := { d.host with hostUp := true } } 0x700004 (speed % 16 + 16 * (width % 32) + 512 * (vfs % 32) + 16384)

/-- HIF_SQ_TAIL. -/
def execHifSqTail (p q v : Nat) (s : State) : Host.Outcome State Fault Refusal := onDev s fun d => fxSqTail d p q v
/-- HIF_CQ_HEAD. -/
def execHifCqHead (p q v : Nat) (s : State) : Host.Outcome State Fault Refusal := onDev s fun d => fxCqHead d p q v
/-- QUEUE_PAIR_ENABLE. -/
def execQueuePairEnable (p q v : Nat) (s : State) : Host.Outcome State Fault Refusal := onDev s fun d => fxPairEnable d p q v
/-- QUEUE_PAIR_DISABLE. -/
def execQueuePairDisable (p q v : Nat) (s : State) : Host.Outcome State Fault Refusal := onDev s fun d => fxPairDisable d p q v
/-- QUEUE_PAIR_DRAINED. -/
def execQueuePairDrained (p q : Nat) (s : State) : Host.Outcome State Fault Refusal := onDev s fun d => fxPairDrained d p q
/-- STATUS_REPLY_WRITE. -/
def execStatusReplyWrite (p q : Nat) (s : State) : Host.Outcome State Fault Refusal := onDev s fun d => fxReplyWrite d p q
/-- CQ_COAL_TIMEOUT. -/
def execCqCoalTimeout (p q : Nat) (s : State) : Host.Outcome State Fault Refusal := onDev s fun d => fxCoalTimeout d p q
/-- MSIX_UNMASK. -/
def execMsixUnmask (fn vec : Nat) (s : State) : Host.Outcome State Fault Refusal := onDev s fun d => fxUnmask d fn vec
/-- HIF_DMA_ERROR. -/
def execHifDmaError (p q : Nat) (write : Bool) (s : State) : Host.Outcome State Fault Refusal := onDev s fun d => fxDmaError d p q write
/-- FLR_VF. -/
def execFlrVf (p t : Nat) (s : State) : Host.Outcome State Fault Refusal := onDev s fun d => fxFlrVf d p t
/-- FLR_PF. -/
def execFlrPf (s : State) : Host.Outcome State Fault Refusal := onDev s fun d => fxFlrPf d
/-- HOST_LINK_RESET. -/
def execHostLinkReset (s : State) : Host.Outcome State Fault Refusal := onDev s fun d => fxHostLinkReset d
/-- PCIE_LINK_UP. -/
def execPcieLinkUp (speed width vfs : Nat) (s : State) : Host.Outcome State Fault Refusal := onDev s fun d => fxLinkUp d speed width vfs

end Sys2Proof.Machine
end

