-- ==== Sys2Proof/Machine/Ingress.lean ====
section
/-! DEFINITION. Field-port ingress (R125 to R127, R149, R150, R376, R542): the checks of stream frames, agent states and requests, and
their ledger entries. -/
namespace Sys2Proof.Machine

/-- FLD counter `k` of port `p`: 0 received, 1 sent, 2 unmatched, 3 bad FCS, 4 discarded before sending. -/
def fldCnt (d : Dev) (p k : Nat) : Dev := cnt d (0x401104 + 0x20 * (p % 8) + 4 * k)
/-- A port is enabled (R558). -/
def portEn (d : Dev) (p : Nat) : Bool := decide (p < 8) && bitAt (rget d (0x401100 + 0x20 * p)) 0
/-- More bytes than a field frame holds, and so more than 36 tracks or 184 voxel runs (R125, R126): it is no field frame and is dropped as unmatched. Log
entry 102 DEDUCED. -/
def frameLong (f : Bytes) : Bool := decide (f.length > 1500)
/-- The frame's own CRC is right (R125). -/
def frameCrcOk (f : Bytes) : Bool :=
  let n := fld f 16 2
  f.length == 28 + n && crc32c (f.take (24 + n)) == fld f (24 + n) 4
/-- Frame counters advance (R127 check 4). -/
def ctrOk (last : Option Nat) (ctr : Nat) : Bool :=
  match last with
  | none => true
  | some l => let k := (ctr + 2 ^ 32 - l) % 2 ^ 32; decide (1 ≤ k) && decide (k < 2 ^ 31)
/-- A timestamp lies within 5 ms of the arrival (R127 check 5). -/
def timeOk (ts : Int) (t : Nat) : Bool := decide (ts - (t : Int) ≤ 5000000) && decide ((t : Int) - ts ≤ 5000000)
/-- Records of a frame. -/
def frameRecs (f : Bytes) (size : Nat) : List Bytes := (List.range (fld f 18 2)).map fun i => slice f (24 + size * i) size
/-- A voxel run lies inside the coverage box (R127 check 6). Log entry 74 DEDUCED. -/
def runInBox (m : MapRec) (lo hi : V3) (r : Bytes) : Bool :=
  let ix := fld r 0 2; let iy := fld r 2 2; let z := fld r 4 4; let iz := bits z 11 0; let run := bits z 23 12
  let e : Int := 2 ^ m.k
  let a : V3 := m.boxMin.add ⟨ix * e, iy * e, iz * e⟩
  let b : V3 := m.boxMin.add ⟨(ix + run) * e, (iy + 1) * e, (iz + 1) * e⟩
  decide (1 ≤ run) && V3.all2 (fun x y => decide (x ≤ y)) lo a && V3.all2 (fun x y => decide (x ≤ y)) b hi
/-- An AGENT_STATE record fits the agent's current model (R150). -/
def stateOk (d : Dev) (ag : AgentRec) (r : Bytes) : Bool :=
  let raw := curModelRaw d ag.bind.model
  let n := kinN raw
  let m := tgetD d.world.maps ag.bind.homeMap default
  fld r 0 1 == n && r.length == 32 + 8 * n &&
  (!kinBase raw || (let x := sfld r 8 4; let y := sfld r 12 4; let w := sfld r 16 4
    decide (m.boxMin.x ≤ x) && decide (x < m.boxMax.x) && decide (m.boxMin.y ≤ y) && decide (y < m.boxMax.y) &&
    decide (-1686629713 ≤ w) && decide (w ≤ 1686629713))) &&
  (List.range n).all fun j =>
    let q := sfld r (32 + 8 * j) 4 + kinZero raw j
    decide (kinQmin raw j - kinQtol raw j ≤ q) && decide (q ≤ kinQmax raw j + kinQtol raw j)
/-- Check 6 of R127 by the stream's kind. -/
def rangeOk (d : Dev) (s : StreamRec) (ag : Option AgentRec) (f : Bytes) : Bool :=
  match s.kind with
  | 1 => (frameRecs f 40).all fun r => inBox s.coverMin s.coverMax (v3fld r 8) && decide (fld r 5 1 ≤ 1)
  | 2 => (frameRecs f 8).all fun r => runInBox (tgetD d.world.maps s.target default) s.coverMin s.coverMax r
  | _ => (ag.map fun a => stateOk d a (slice f 24 (fld f 16 2))).getD false
/-- The offset that a frame placed in the ledger of `turn` reads: what outcomes in earlier ledgers give, sealed ones not yet executed included (R442). Log entry 109
DEDUCED. -/
def offsFor (d : Dev) (turn n : Nat) (s : StreamRec) : Int :=
  ((d.cal.outcomes.filter fun o => decide (o.1 < turn) && o.2.kind == 2 && o.2.result == 1 && o.2.handle == n).map (·.2.r)).foldl (· + ·) (s.offsNext.getD s.offs)
/-- A stream frame that has passed checks 1 and 2: rate, order, time, range, space, then its entry (R127). -/
def streamAccept (fz : Fuses) (d : Dev) (n : Nat) (s : StreamRec) (ag : Option AgentRec) (t : Nat) (f : Bytes) : Dev :=
  let turn := entryTurn d t
  let level := min 16000000000 (s.bucket + (t - s.bucketAt) * s.rate)
  let s' := { s with bucket := level, bucketAt := max t s.bucketAt }
  let put := fun (d : Dev) (x : StreamRec) => if d.twin.role = .follow || d.twin.role = .attaching then d else modStream d n fun _ => x
  let e : Entry := { (default : Entry) with kind := if s.kind = 3 then 2 else 1, source := srcField s.port n, ctr := fld f 4 4, ts := stamp t,
                                            polder := s.polder, payload := f }
  if level < 1000000000 then modPolder (put d { s' with rateDrop := satInc s.rateDrop 1 }) s.polder fun x => { x with violStream := satInc x.violStream 1 }
  else
    let s' := { s' with bucket := level - 1000000000 }
    if !ctrOk s.lastCtr (fld f 4 4) then put d { s' with orderDrop := satInc s.orderDrop 1 }
    else if !timeOk (fld f 8 8 + offsFor d turn n s) t then raise (put d { s' with timeDrop := satInc s.timeDrop 1 }) 0x081 (s.port / 4) (0xC8 + s.port) n
    else if !rangeOk d s ag f then raise (put d { s' with rangeDrop := satInc s.rangeDrop 1 }) 0x082 (s.port / 4) (0xC8 + s.port) n
    else if entryBytes e > fieldOpen fz d turn then cnt (put d s') 0x500020
    else
      let gap := (s.lastCtr.map fun l => decide ((fld f 4 4 + 2 ^ 32 - l) % 2 ^ 32 > 5)).getD false
      let s' := { s' with lastCtr := some (fld f 4 4), lastArr := t, timeoutSince := false, accepted := satInc s.accepted 1,
                          gapCnt := if gap then satInc s.gapCnt 1 else s.gapCnt }
      let d := put d s'
      placeEntry (if gap then raise d 0x083 (s.port / 4) (0xC8 + s.port) n else d) turn e
/-- A field frame of type 0x01 to 0x03 at ingress (R127, R149, R542). -/
def fxFrame (fz : Fuses) (d : Dev) (port src t : Nat) (f : Bytes) : Dev :=
  if !portEn d port || d.ldg.replay then d else
  let d := fldCnt (atTime d t) port 0
  let ty := fld f 1 1; let n := fld f 2 1 % 128
  if bits (fld f 0 1) 3 0 ≠ 1 || ty < 1 || ty > 3 || frameLong f then fldCnt d port 2 else
  let s := tget d.world.streams n
  let ag := (d.world.agents.find? fun a => a.2.bind.stream == n).map (·.2)
  let size := match ty with
    | 1 => 40
    | 2 => 8
    | _ => ((ag.map fun a => 32 + 8 * kinN (curModelRaw d a.bind.model)).getD (fld f 16 2))
  if !frameCrcOk f || fld f 16 2 ≠ fld f 18 2 * size || (ty = 3 && fld f 18 2 ≠ 1) then
    raise (modStream d n fun s => { s with crcErr := satInc s.crcErr 1 }) 0x080 (port / 4) (0xC8 + port) n
  else match s with
  | none => fldCnt d port 2
  | some s =>
    let turn := entryTurn d t
    let isOpen := decide (s.openTurn < turn) && (match s.closeTurn with
      | none => true
      | some c => decide (turn ≤ c))
    if !isOpen || s.port ≠ port || (s.srcMac ≠ 0 && s.srcMac ≠ src) || s.kind ≠ ty || (ty = 3 && ag.isNone) then fldCnt d port 2
    else streamAccept fz d n s ag t f

/-- A REQUEST frame (R376). Log entry 66 DESIGN CHOICE. -/
def fxRequest (fz : Fuses) (d : Dev) (port src t : Nat) (f : Bytes) : Dev :=
  if !portEn d port || d.ldg.replay then d else
  let d := fldCnt (atTime d t) port 0
  if bits (fld f 0 1) 3 0 ≠ 1 || fld f 1 1 ≠ 0x10 || frameLong f then fldCnt d port 2 else
  let n := fld f 2 2 % 4096
  let packet := slice f 24 64
  let ind := isIndirect packet
  let len := fld f 16 2
  let drop := cnt d 0x700020
  let blk := if ind then slice f 88 (len - 64) else slice packet 20 (min 36 (blockLen packet))
  match tget d.world.agents n with
  | none => drop
  | some a =>
    if !frameCrcOk f || len ≠ (if ind then 64 + blockLen packet else 64) || (ind && blockLen packet > 1408) then drop
    else if !bitAt (rget d 0x700000) 1 || a.bind.ctrlPort ≠ port || a.bind.ctrlMac ≠ src then drop
    else if !(fld packet 0 2 == 0x500 || fld packet 0 2 == 0x501 || fld packet 0 2 == 0x502) then drop
    else if !ctrOk a.reqCtr (fld f 4 4) then drop
    else if !timeOk (fld f 8 8) t then drop
    else
      let d := modAgent d n fun a => { a with reqCtr := some (fld f 4 4) }
      let turn := entryTurn d t
      let c := cmdOf (.field port n) a.polder packet blk
      let other := crc32c (packet.take 60) == fld packet 60 4 && (c.op == 0x500 || c.op == 0x501) && fld blk 0 2 != n
      let r := if other then (some (stBadRange, 0, 3), d) else fetchCheck d turn t c packet none
      match r with
      | (some (st, det, _), d) => reply (cnt d 0x700010) c st det none 0 0 0 0
      | (none, d) =>
        let e : Entry := { (default : Entry) with kind := kindOf c.op, source := srcField port a.bind.stream, ctr := fld f 4 4, ts := stamp t,
                                                  polder := a.polder, cls := if isQuery c.op then c.cls else 0, payload := packet ++ (if ind then blk else []) }
        if (shareOf e = 2 && entryBytes e > fieldOpen fz d turn) || (shareOf e = 3 && entryBytes e > hostOpen fz d turn) then cnt d 0x500020
        else placeEntry (cnt d 0x70001C) turn e
/-- A frame of another kind or with a bad frame check sequence (R542). Log entry 85 DESIGN CHOICE. -/
def fxUnmatched (d : Dev) (port : Nat) (fcs : Bool) : Dev :=
  if !portEn d port then d else
  let d := fldCnt d port 0
  if fcs then fldCnt d port 3 else fldCnt d port 2

/-- STREAM_FRAME_INGRESS. -/
def execStreamFrameIngress (port src t : Nat) (frame : Bytes) (s : State) : Host.Outcome State Fault Refusal :=
  onFz s fun fz d => fxFrame fz d port src t frame
/-- AGENT_STATE_INGRESS. -/
def execAgentStateIngress (port src t : Nat) (frame : Bytes) (s : State) : Host.Outcome State Fault Refusal :=
  onFz s fun fz d => fxFrame fz d port src t frame
/-- REQUEST_INGRESS. -/
def execRequestIngress (port src t : Nat) (frame : Bytes) (s : State) : Host.Outcome State Fault Refusal :=
  onFz s fun fz d => fxRequest fz d port src t frame
/-- UNMATCHED_FRAME. -/
def execUnmatchedFrame (port : Nat) (fcs : Bool) (s : State) : Host.Outcome State Fault Refusal := onDev s fun d => fxUnmatched d port fcs

end Sys2Proof.Machine
end

