-- ==== Sys2Proof/Machine/Clock.lean ====
section
/-! DEFINITION. Time (R40, R41, R45 to R49, R540, R543): PTP, PPS, holdover, the clock monitors, the start of turns, and the lock of the
safety configuration that it brings (R456). -/
namespace Sys2Proof.Machine

/-- The time record changed. -/
def modTime (d : Dev) (f : TimeRec → TimeRec) : Dev := { d with time := f d.time }
/-- Bytes of the safety configuration in register order: the model's order, the spec gives none (R456). Log entry 75 DEDUCED. -/
def wdnCfgBytes (d : Dev) : Bytes :=
  ((List.range 512).flatMap fun s => leBytes 4 (rget d (0x201000 + 8 * s)) ++ leBytes 4 (rget d (0x201004 + 8 * s))) ++
  leBytes 4 (rget d 0x200000 / 2 % 2 * 2) ++ leBytes 4 (rget d 0x200028) ++ leBytes 4 (rget d 0x20002C) ++ leBytes 4 (rget d 0x200030)
/-- The safety configuration is locked and its CRC taken (R456). Log entry 75 DEDUCED. -/
def lockWdn (d : Dev) : Dev :=
  if bitAt (rget d 0x200000) 0 then d else rset (rfield d 0x200000 0 0 1) 0x200034 (crc32c (wdnCfgBytes d))
/-- TCLK is disciplined: bit 3 of PKG_CLK_STAT. -/
def disciplined (d : Dev) : Bool := bitAt (rget d 0x18) 3
/-- The first turn whose cutoff lies after `t` (R49). -/
def firstTurn (d : Dev) (t : Nat) : Nat := (t + 2000) / turnLen d + 1
/-- Turns start from time `t`: the first ledger holds what arrives from `t` on; what was fetched before counts as arriving at `t` (R49). Log entry 43
DEDUCED. -/
def startRun (d : Dev) (t : Nat) : Dev :=
  let s := firstTurn d t
  let early := (openLedger d 0).map fun e => { e with ts := max e.ts (stamp t) }
  let opened := if early.isEmpty then d.ldg.opened else tput (tdel d.ldg.opened 0) s (early ++ openLedger d s)
  modTime { d with ldg := { d.ldg with opened := opened } } fun x =>
    { x with running := true, waiting := false, first := s, sealedTo := s - 1, turn := s - 1, now := max x.now t }
/-- The discipline of TCLK begins: a waiting start takes this moment (R49). -/
def setDisc (d : Dev) (on : Bool) (t : Nat) : Dev :=
  let d := rfield d 0x18 3 3 (b2n on)
  if on && d.time.waiting && !d.time.running then startRun d t else d
/-- TRN_CTL.run written 1 at `t` (R49, R456): it locks configuration; on undisciplined time the start waits, but in simplex with
free_run. -/
def fxTrnRun (d : Dev) (t : Nat) : Dev :=
  if bitAt (rget d 0x600004) 0 then d else
  let d := lockWdn (rfield (atTime d t) 0x600004 0 0 1)
  if disciplined d || (simplex d && bitAt (rget d 0x600000) 9) then startRun d t else modTime d fun x => { x with waiting := true }
/-- TRN_TAI committed before run: TCLK steps (R47); after run the write is ignored, and counts where the value differs from the present one (R11, R88). -/
def fxTaiSet (d : Dev) (v : Nat) : Dev :=
  if bitAt (rget d 0x600004) 0 then (if v % 2 ^ 64 = d.time.now % 2 ^ 64 then d else cnt d 0x10) else
  modTime (rset (rset d 0x600018 v) 0x60001C (v / 2 ^ 32)) fun x => { x with now := v % 2 ^ 64 }
/-- A measured offset of TCLK from its reference: a step before run, slewing after, and the warden's conditions (R47, R48). -/
def measured (d : Dev) (t : Nat) (o : Int) : Dev :=
  let d := rset d 0x60000C (tc 32 (satS 32 o))
  let run := bitAt (rget d 0x600004) 0
  let d := modTime d fun x => { x with holdover := none, refSeen := true, slewing := run && o != 0, now := if run then x.now else ((t : Int) - o).toNat }
  let far := run && (decide (o > 1000000) || decide (o < -1000000))
  let d := clearLive (setLive (modTime d fun x => { x with offFault := far }) 0x019 0 0xF0 0 far) 0x01A 0 0xF0 0
  let d := rfield d 0x401008 1 1 (b2n (decide (-1000 ≤ o) && decide (o ≤ 1000)))
  setDisc d true (if run then t else ((t : Int) - o).toNat)
/-- The port PTP runs on (R543). -/
def ptpPort (d : Dev) : Nat := let v := rget d 0x401004; if bitAt (rget d 0x401008) 2 then bits v 14 12 else bits v 10 8
/-- A PTP frame on a port: an Announce, or a message that completes a measurement with its offset (R543). -/
def fxPtp (d : Dev) (port t : Nat) (announce : Bool) (offset : Option Int) : Dev :=
  if !portEn d port then d else
  let d := fldCnt (atTime d t) port 0
  if port ≠ ptpPort d || !bitAt (rget d 0x401004) 0 || bitAt (rget d 0x600000) 8 then d else
  let d := if announce then rfield d 0x401008 0 0 1 else d
  match offset with
  | none => d
  | some o => measured d t o
/-- The reference is lost: holdover from now on (R48). -/
def loseRef (d : Dev) : Dev :=
  let d := rfield (rfield d 0x401008 1 1 0) 0x18 3 3 0
  modTime d fun x => { x with refSeen := false, slewing := false, holdover := some (x.holdover.getD x.now) }
/-- PPS_IN edges have stopped: TCLK follows PPS_IN, a second has passed without an edge, and the part takes the reference for lost; the spec names no
time for it (R48, R540). Log entry 96 DESIGN CHOICE. -/
def ppsLost (d : Dev) : Bool :=
  bitAt (rget d 0x600000) 8 && d.time.refSeen && decide (d.time.ppsLast.getD 0 + 1000000000 < d.time.now) &&
    Config.ppsLoss (d.time.now - d.time.ppsLast.getD 0)
/-- A lost PPS_IN leads to holdover (R48). -/
def ppsCheck (d : Dev) : Dev := if ppsLost d then loseRef d else d
/-- A write of FLD_PTP that switches PTP off leaves TCLK to holdover, where PTP was its reference (R48, R558). -/
def ptpWritten (old d : Dev) : Dev :=
  if bitAt (rget old 0x401004) 0 && !bitAt (rget d 0x401004) 0 && !bitAt (rget d 0x600000) 8 && d.time.refSeen then loseRef (rfield d 0x401008 0 0 0) else d
/-- Three Announce intervals without an Announce: the backup port, or the reference is lost (R543). -/
def fxAnnounceTimeout (d : Dev) : Dev :=
  if bitAt (rget d 0x600000) 8 || !bitAt (rget d 0x401004) 0 then d else
  let d := rfield d 0x401008 0 0 0
  if !bitAt (rget d 0x401008) 2 && bitAt (rget d 0x401004) 15 then rfield d 0x401008 2 2 1 else loseRef d
/-- A rising edge of PPS_IN at `t`: the reference second is the nearest one (R47, R540). -/
def fxPps (d : Dev) (t : Nat) : Dev :=
  if !bitAt (rget d 0x600000) 8 then d else
  let k := (t + 500000000) / 1000000000 * 1000000000
  { measured (atTime d t) t ((t : Int) - k) with time := { (measured (atTime d t) t ((t : Int) - k)).time with ppsLast := some t } }
/-- Holdover has lasted longer than TRN_HOLD_MAX (R48). -/
def fxHoldExpiry (d : Dev) : Dev :=
  let d := ppsCheck d
  if d.time.holdover.isNone || bits (rget d 0x600028) 15 0 = 0 then d else assertLive d 0x01A 0 0xF0 0
/-- A 1,000 µs window of the clock monitors ends (R40): a count out of range, or a failed monitor, is a privileged source. -/
def fxClockWindow (d : Dev) (cclk : Nat) (ctOk tOk : Bool) : Dev :=
  let good := decide (1498500 ≤ cclk) && decide (cclk ≤ 1501500)
  let d := rset (ppsCheck d) 0x1C cclk
  let d := rfield d 0x18 2 0 (b2n good + 2 * b2n ctOk + 4 * b2n tOk)
  let d := if good then d else raise d 0x002 0 0xE8 cclk
  let d := if ctOk then d else raise d 0x003 0 0xE8 0
  if tOk then d else raise d 0x004 0 0xE8 0

/-- PTP_FRAME. -/
def execPtpFrame (port t : Nat) (announce : Bool) (offset : Option Int) (s : State) : Host.Outcome State Fault Refusal :=
  onDev s fun d => fxPtp d port t announce offset
/-- PTP_ANNOUNCE_TIMEOUT. -/
def execPtpAnnounceTimeout (s : State) : Host.Outcome State Fault Refusal := onDev s fxAnnounceTimeout
/-- PPS_IN_EDGE. -/
def execPpsInEdge (t : Nat) (s : State) : Host.Outcome State Fault Refusal := onDev s fun d => fxPps d t
/-- HOLDOVER_EXPIRY. -/
def execHoldoverExpiry (s : State) : Host.Outcome State Fault Refusal := onDev s fxHoldExpiry
/-- CLOCK_MONITOR_WINDOW. -/
def execClockMonitorWindow (cclk : Nat) (ctclkOk tclkOk : Bool) (s : State) : Host.Outcome State Fault Refusal :=
  onDev s fun d => fxClockWindow d cclk ctclkOk tclkOk
/-- TRN_RUN. -/
def execTrnRun (t : Nat) (s : State) : Host.Outcome State Fault Refusal := onDev s fun d => fxTrnRun d t
/-- TRN_TAI_SET. -/
def execTrnTaiSet (v : Nat) (s : State) : Host.Outcome State Fault Refusal := onDev s fun d => fxTaiSet d v

end Sys2Proof.Machine
end

