-- ==== Sys2Proof/Machine/Sweep.lean ====
section
/-! DEFINITION. The sweep engine: staging a window half (R157 to R164) and checking a batch (R165 to R177). -/
namespace Sys2Proof.Machine

/-- The grid of a map, with no content: what the addressing functions need of it. -/
def gridMap (k : Nat) (lo hi : V3) : MapRec := { (default : MapRec) with k := k, boxMin := lo, boxMax := hi }
/-- Squared distance from `c` to the closed box `lo` to `hi` (R171). -/
def boxDist2 (c lo hi : V3) : Int :=
  let e := fun (c l h : Int) => c - iclamp c l h
  let a := e c.x lo.x hi.x; let b := e c.y lo.y hi.y; let d := e c.z lo.z hi.z
  a * a + b * b + d * d
/-- Two closed boxes share a point. -/
def boxMeet (a b : V3 × V3) : Bool :=
  V3.all2 (fun x y => decide (x ≤ y)) a.1 b.2 && V3.all2 (fun x y => decide (x ≤ y)) b.1 a.2

/-- One map entry of a stage descriptor (R157). -/
structure StageEntry where
  handle : Nat
  planes : Nat
  k : Nat
  version : Nat
  root : Nat
  node : Nat
  prim : Nat
  obj : Nat
  boxMin : V3
  boxMax : V3
  deriving DecidableEq, Repr, Inhabited
/-- The header of a stage descriptor (R157). -/
structure StageDesc where
  maps : Nat
  g : Nat
  sliceMs : Nat
  origin : V3
  cells : V3
  sigmaW : Nat
  excl : Option Nat
  reach : Int
  fineRow : Nat
  fineMax : Nat
  geoMax : Nat
  geoRow : Nat
  entries : List StageEntry
  deriving DecidableEq, Repr, Inhabited

/-- The stage descriptor read from its bytes (R157). -/
def parseStage (bs : Bytes) : StageDesc :=
  let n := bits (fld bs 0 1) 2 0
  { maps := n, g := fld bs 1 1, sliceMs := fld bs 2 2, origin := v3fld bs 4,
    cells := ⟨fld bs 16 1, fld bs 17 1, fld bs 18 1⟩, sigmaW := fld bs 20 6,
    excl := if bitAt (fld bs 26 2) 12 then some (bits (fld bs 26 2) 11 0) else none,
    reach := fld bs 28 4, fineRow := bits (fld bs 32 4) 21 0, fineMax := fld bs 36 1, geoMax := fld bs 38 2,
    geoRow := bits (fld bs 40 4) 21 0,
    entries := (List.range n).map fun m =>
      let o := 64 + 64 * m
      { handle := bits (fld bs o 1) 5 0, planes := bits (fld bs (o + 1) 1) 2 0, k := fld bs (o + 2) 1, version := fld bs (o + 4) 4, root := fld bs (o + 8) 8,
        node := fld bs (o + 16) 8, prim := fld bs (o + 24) 8, obj := fld bs (o + 32) 8, boxMin := v3fld bs (o + 40), boxMax := v3fld bs (o + 52) } }

/-- The ranges of R157 hold. -/
def stageOk (d : StageDesc) : Bool :=
  decide (1 ≤ d.maps) && decide (d.maps ≤ 4) && decide (12 ≤ d.g) && decide (d.g ≤ 24) && decide (5 ≤ d.sliceMs) &&
  decide (d.sliceMs ≤ 500) && d.origin.x % 2 ^ d.g == 0 && d.origin.y % 2 ^ d.g == 0 && d.origin.z % 2 ^ d.g == 0 &&
  decide (1 ≤ d.cells.x) && decide (d.cells.x ≤ 64) && decide (1 ≤ d.cells.y) && decide (d.cells.y ≤ 64) &&
  decide (1 ≤ d.cells.z) && decide (d.cells.z ≤ 32) && decide (d.cells.x * d.cells.y * d.cells.z ≤ 2048) &&
  decide (d.reach ≤ 2 ^ 20) && decide (d.fineMax ≤ 128) && decide (d.geoMax ≤ 16384)

/-- The window's half-open box. -/
def windowBox (g : Nat) (origin cells : V3) : V3 × V3 := (origin, origin.add (cells.map fun c => c * 2 ^ g))

/-- A map's geometry as staging reads it (R162): node 0 where there is one, nodes and primitives by number (a primitive by its leaf's kind), and the id
and class of the object at an index. -/
structure GeoSrc where
  root : Option BvhNode
  node : Nat → BvhNode
  prim : Nat → Nat → Prim
  obj : Nat → Nat × Nat
/-- What one map entry stages: its grid, the version's bricks and footprints, its planes, the agent left out, the tiles that have a tile node, and
its geometry (R157 to R162). -/
structure StageSrc where
  m : MapRec
  v : MapVer
  planes : Nat
  excl : Option Nat
  nodes : List Nat
  geo : GeoSrc
/-- Tiles of a grid that overlap the window. -/
def windowTiles (d : StageDesc) (m : MapRec) : List Nat :=
  let win := windowBox d.g d.origin d.cells
  ((voxBox m win.1 win.2).map (tileOf m)).eraseDups
/-- The geometry of a version of the world model. -/
def verGeo (v : MapVer) : GeoSrc :=
  { root := v.bvh.head?, node := fun i => v.bvh.getD i default, prim := fun _ i => v.prims.getD i default,
    obj := fun i => ((v.objs[i]?).map fun o => (o.2.id, o.2.cls)).getD (0, 0) }
/-- A map entry read from the version that it names in the world model; none where that is not live. -/
def verSrc (maps : Tab MapRec) (excl : Option Nat) (e : StageEntry) : Option StageSrc :=
  match tget maps e.handle with
  | none => none
  | some m => (verNo m e.version).map fun v =>
      { m := m, v := v, planes := e.planes, excl := excl, nodes := (v.bricks.map fun b => b.1 / 16 % 65536).eraseDups, geo := verGeo v }

/-- The word of one voxel as a half sees it: the OR over the masked planes, rebased to σw; in the reservation plane of
map entry 0 the footprint of the excluded agent is left out (R159, R160). -/
def stagedWord (s : StageSrc) (σ : Nat) (p : V3) : BitVec 64 :=
  let one := fun pl => if bitAt s.planes pl then readWord s.m s.v pl p σ else 0
  let resv := match s.excl with
    | some a => if bitAt s.planes 2 then footWord s.v.foots (some a) (cellKey s.m p) σ else 0
    | none => one 2
  one 0 ||| one 1 ||| resv
/-- The footprints that staging reads (R160): those of the agents other than the excluded one, where the reservation plane counts. -/
def readFoots (s : StageSrc) : Tab Foot :=
  match s.excl with
  | some a => if bitAt s.planes 2 then s.v.foots.filter fun f => f.1 != a else []
  | none => []
/-- A plane that staging reads as stored bricks. -/
def readPlane (s : StageSrc) (pl : Nat) : Bool := bitAt s.planes pl && !(pl == 2 && s.excl.isSome)

/-- The voxels that may hold a word at σw: those of a stored word in a masked plane and those of a footprint read (R159, R160). -/
def brickVoxels (s : StageSrc) : List V3 :=
  (((s.v.bricks.flatMap fun e => if readPlane s (e.1 / 16 / 65536) then e.2.words.map fun w => (e.1 % (16 * 65536)) * 4096 + w.1 else []) ++
    (readFoots s).flatMap fun f => f.2.cells.map Prod.fst).eraseDups).map (cellVox s.m)

/-- The coarse words of a half (R159), built from the voxels that hold a word. -/
def coarseWords (d : StageDesc) (src : List StageSrc) : Tab (BitVec 64) :=
  src.foldl (fun t s =>
    let m := s.m
    (brickVoxels s).foldl (fun t p =>
      let w := stagedWord s d.sigmaW p
      let lo := m.boxMin.add (p.map fun i => i * 2 ^ m.k)
      let hi := lo.add (V3.of (2 ^ m.k - 1))
      let c0 := (lo.sub d.origin).map fun x => floorShr x d.g
      let c1 := (hi.sub d.origin).map fun x => floorShr x d.g
      if w = 0 then t else
      (irange (max 0 c0.z) (min (d.cells.z - 1) c1.z)).foldl (fun t z =>
        (irange (max 0 c0.y) (min (d.cells.y - 1) c1.y)).foldl (fun t y =>
          (irange (max 0 c0.x) (min (d.cells.x - 1) c1.x)).foldl (fun t x =>
            let i := (x + d.cells.x * (y + d.cells.y * z)).toNat
            tput t i (tgetD t i 0 ||| w)) t) t) t) t) []

/-- A brick position overlaps the window. -/
def brickInWindow (d : StageDesc) (m : MapRec) (tb : Nat) : Bool :=
  let win := windowBox d.g d.origin d.cells
  let lo := m.boxMin.add ((cellVox m (tb * 4096)).map fun i => i * 2 ^ m.k)
  let hi := lo.add (V3.of (16 * 2 ^ m.k))
  V3.all2 (fun a b => decide (a < b)) lo win.2 && V3.all2 (fun a b => decide (a < b)) win.1 hi
/-- The brick positions that overlap the window with a masked plane present, ascending tile then brick (R161); the reservation plane of an entry that
leaves an agent out is present where another agent's footprint reads a bit at σw (R160). -/
def windowBricks (d : StageDesc) (s : StageSrc) : List Nat :=
  let stored := s.v.bricks.filterMap fun e => if readPlane s (e.1 / 16 / 65536) then some (e.1 % (16 * 65536)) else none
  let feet := (readFoots s).flatMap fun f => f.2.cells.filterMap fun c => if rebase f.2.base d.sigmaW c.2 = 0 then none else some (c.1 / 4096)
  sortBy (fun a b => decide (a ≤ b)) (((stored ++ feet).eraseDups).filter (brickInWindow d s.m))

/-- The 512 rows of one staged brick (R161), 64 bytes each. -/
def fineRows (d : StageDesc) (s : StageSrc) (tb : Nat) : Bytes :=
  let o := cellVox s.m (tb * 4096)
  (List.range 512).flatMap fun blk => (List.range 8).flatMap fun j =>
    let p : V3 := ⟨o.x + (2 * (blk % 8) + j % 2 : Nat), o.y + (2 * (blk / 8 % 8) + j / 2 % 2 : Nat), o.z + (2 * (blk / 64) + j / 4 : Nat)⟩
    leBytes 8 (stagedWord s d.sigmaW p).toNat

/-! ### The geometry area (R162, R163) -/

/-- unit(v) of R163. -/
def unitV (v : V3) : V3 :=
  let l2 := v.dot v
  let q := (isqrt (l2.toNat * 2 ^ 60) : Int)
  if q = 0 then V3.of 0 else v.map fun a => rdivAway (a * 2 ^ 60) q
/-- The copy of a primitive in the geometry area (R163): a triangle prepared in 128 bytes, a sphere or box as its 64-byte record with 64 bytes of 0 after it.
Log entry 103 DESIGN CHOICE. -/
def prepBytes (p : Prim) : Bytes :=
  match p with
  | .tri v0 v1 v2 o =>
    let e0 := v1.sub v0; let e1 := v2.sub v1; let e2 := v0.sub v2
    let n := unitV (e0.cross (v2.sub v0))
    let len := fun (e : V3) => leBytes 4 (min 0xffffffff ((isqrt (4 * (e.dot e).toNat) + 1) / 2))
    v3bytes v0 ++ v3bytes v1 ++ v3bytes v2 ++ v3bytes n ++ v3bytes (unitV e0) ++ v3bytes (unitV e1) ++ v3bytes (unitV e2) ++ len e0 ++ len e1 ++ len e2 ++
      leBytes 4 o ++ leBytes 4 (b2n (n == V3.of 0)) ++ zeros 24
  | p => primBytes p ++ zeros 64
/-- A truncated slot of a node copy (R162), as the model writes it: a leaf of kind 3. Log entry 103 DESIGN CHOICE. -/
def truncSlot (s : BvhSlot) : BvhSlot := { s with leaf := true, kind := 3, index := 0 }
/-- The copies made so far (R162): the number of the next node, node copies by number, primitive copies in order, the owners of an entry's primitives. -/
structure GeoAcc where
  next : Nat
  nodes : Tab Bytes
  prims : List Bytes
  owners : List Nat
  deriving DecidableEq, Repr, Inhabited
/-- Depth-first copy of the BVH from node `i` (R162), children in slot order; copies are numbered as they are made. -/
def copyNode (win : V3 × V3) (geoMax : Nat) (g : GeoSrc) : Nat → Nat → GeoAcc → GeoAcc
  | 0, _, acc => acc
  | fuel + 1, i, acc =>
    let node := g.node i
    let me := acc.next
    let r := node.slots.foldl (fun (a : GeoAcc × List (Option BvhSlot)) s =>
      let b := slotBox node s
      if s.leaf then
        let pr := g.prim s.kind s.index
        if boxMeet b win && boxMeet (primBox pr) win then
          if a.1.prims.length < geoMax then
            ({ a.1 with prims := a.1.prims ++ [prepBytes pr], owners := a.1.owners ++ [primObj pr] }, a.2 ++ [some { s with index := a.1.prims.length }])
          else (a.1, a.2 ++ [some (truncSlot s)])
        else (a.1, a.2 ++ [none])
      else if boxMeet b win then
        if a.1.next < geoMax then (copyNode win geoMax g fuel s.index a.1, a.2 ++ [some { s with index := a.1.next }])
        else (a.1, a.2 ++ [some (truncSlot s)])
      else (a.1, a.2 ++ [none])) ({ acc with next := me + 1 }, [])
    { r.1 with nodes := tput r.1.nodes me (nodeRow node.lo node.hi r.2) }
/-- The geometry copy of one map entry after those before it, in the one area (R162): the box of a truncated root, the number of the copy of node 0. The
grown window is the window and `reach` on every side. -/
def geoCopy (d : StageDesc) (g : GeoSrc) (acc : GeoAcc) : Option (V3 × V3) × Option Nat × GeoAcc :=
  let w := windowBox d.g d.origin d.cells
  let win := (w.1.sub (V3.of d.reach), w.2.add (V3.of d.reach))
  let acc := { acc with owners := [] }
  match g.root with
  | none => (none, none, acc)
  | some root =>
    if !boxMeet (root.lo, root.hi) win then (none, none, acc)
    else if acc.next ≥ d.geoMax then (some (root.lo, root.hi), none, acc)
    else (none, some acc.next, copyNode win d.geoMax g (d.geoMax + 1) 0 acc)
/-- The copies of all map entries, in order, each entry's root and owners beside it. -/
def geoCopies (d : StageDesc) : List StageSrc → GeoAcc → List (Option (V3 × V3) × Option Nat × List Nat) × GeoAcc
  | [], acc => ([], acc)
  | s :: t, acc =>
    let r := geoCopy d s.geo acc
    let u := geoCopies d t r.2.2
    ((r.1, r.2.1, r.2.2.owners) :: u.1, u.2)

/-- Bytes read by a stage (R164). -/
def stageBytes (d : StageDesc) (src : List StageSrc) (geo : GeoAcc) : Nat :=
  (src.map fun s =>
    let tiles := windowTiles d s.m
    let nodes := tiles.filter s.nodes.contains
    let bricks := s.v.bricks.filter fun e => bitAt s.planes (e.1 / 16 / 65536) && brickInWindow d s.m (e.1 % (16 * 65536))
    8 * tiles.length + 768 * nodes.length + 32768 * bricks.length + 16 * ((readFoots s).map fun f => f.2.cells.length).sum).sum +
  64 * (geo.next + geo.prims.length)

/-- The half staged from the sources of the descriptor's entries (R157 to R164): the half, the memory with the fine and the geometry area written, the length
in cycles; none where the descriptor breaks a range. Log entries 40 DEDUCED, 103 DESIGN CHOICE. -/
def stageFrom (mem : Mem) (die : Nat) (d : StageDesc) (src : List StageSrc) : Option (Half × Mem × Nat) :=
  if !stageOk d then none else
  let geos := geoCopies d src { next := 0, nodes := [], prims := [], owners := [] }
  let all := src.zipIdx.flatMap fun s => (windowBricks d s.1).map fun tb => (s.2, tb)
  let staged := all.take d.fineMax
  let addr := rowField die d.fineRow
  let geoA := rowField die d.geoRow
  let rows := staged.flatMap fun e =>
    match src[e.1]? with
    | some s => fineRows d s e.2
    | none => []
  let key := fun (e : Nat × Nat) => e.1 * 2 ^ 24 + e.2
  let half : Half :=
    { g := d.g, sliceMs := d.sliceMs, origin := d.origin, cells := d.cells, sigmaW := d.sigmaW, reach := d.reach,
      fineAddr := addr, geoAddr := geoA, primAddr := geoA + 64 * d.geoMax, geoNodes := geos.2.next, geoPrims := geos.2.prims.length, coarse := coarseWords d src, fine := staged.map key,
      unstaged := (all.drop d.fineMax).map key,
      maps := (src.zip (d.entries.zip geos.1)).map fun s =>
        { handle := s.2.1.handle, planes := s.1.planes, k := s.1.m.k, boxMin := s.1.m.boxMin, boxMax := s.1.m.boxMax, truncRoot := s.2.2.1, root := s.2.2.2.1,
          objs := s.2.2.2.2.foldl (fun t i => tput t i (s.1.geo.obj i)) [] } }
  let m1 := mputs mem addr rows
  let m2 := geos.2.nodes.foldl (fun m n => mputs m (geoA + 64 * n.1) n.2) m1
  let m3 := mputs m2 (geoA + 64 * d.geoMax) geos.2.prims.flatten
  some (half, m3, 1600 + (stageBytes d src geos.2 + 47) / 48 + 2 * (d.cells.x * d.cells.y * d.cells.z).toNat)
/-- Staging a half from the versions that the descriptor names in the world model; none also where one of them is not live. Log entry 40 DEDUCED. -/
def stageHalf (mem : Mem) (die : Nat) (maps : Tab MapRec) (d : StageDesc) : Option (Half × Mem × Nat) :=
  let src := d.entries.zipIdx.filterMap fun e => verSrc maps (if e.2 = 0 then d.excl else none) e.1
  if src.length ≠ d.maps then none else stageFrom mem die d src

/-! ### Checking -/

/-- A check outcome (R175): code, the hit fields, and the detail. -/
structure Hit where
  code : Nat
  sample : Nat := 0
  sphere : Nat := 0
  map : Nat := 0
  bit : Nat := 0
  kind : Nat := 0
  detail : Nat := 0
  deriving DecidableEq, Repr, Inhabited

/-- The clamp of R173 on coordinate differences. -/
def clamp30 (v : V3) : V3 := v.map fun x => iclamp x (-(2 ^ 30)) (2 ^ 30 - 1)
/-- Squared distance to an edge (seg2 of R173). -/
def seg2 (c v u : V3) (len : Int) : Int :=
  let w := clamp30 (c.sub v)
  let s := iclamp (floorShr (u.dot w) 30) 0 len
  let f := w.sub (u.map fun a => floorShr (a * s) 30)
  f.dot f
/-- The leaf test of R173 on a primitive's copy of a leaf kind: squared distance and reach_r. -/
def leafDist (c : V3) (rho : Int) (kind : Nat) (rec_ : Bytes) : Int × Int :=
  match primOf kind rec_ with
  | .sphere q r _ => let d := clamp30 (c.sub q); (d.dot d, rho + r)
  | .box q h rot _ =>
    let d := clamp30 (c.sub q)
    let e := fun (col : V3) (hh : Int) =>
      let l := floorShr (col.dot d) 30
      iclamp (l - iclamp l (-hh) hh) (-(2 ^ 30)) (2 ^ 30 - 1)
    let a := e (matCol rot 0) h.x; let b := e (matCol rot 1) h.y; let g := e (matCol rot 2) h.z
    (a * a + b * b + g * g, rho)
  | .tri v0 v1 v2 _ =>
    let n := v3fld rec_ 36
    let u := [(v0, v3fld rec_ 48, fld rec_ 84 4), (v1, v3fld rec_ 60, fld rec_ 88 4), (v2, v3fld rec_ 72, fld rec_ 92 4)]
    let inside := u.all fun k => decide (0 ≤ floorShr (((n.cross k.2.1).map fun a => floorShr a 30).dot (clamp30 (c.sub k.1))) 30)
    if !bitAt (fld rec_ 100 4) 0 && inside then
      let p := floorShr (n.dot (clamp30 (c.sub v0))) 30
      (p * p, rho)
    else
      let ds := u.map fun k => seg2 c k.1 k.2.1 k.2.2
      (ds.foldl min (ds.headD 0), rho)
/-- The object index in a primitive's copy of a leaf kind (R98, R163). -/
def recOwner (kind : Nat) (rec_ : Bytes) : Nat := fld rec_ (if kind = 2 then 96 else 60) 4

/-- The result of looking at one sphere: tests issued, the hit if any, and the least gap so far. -/
abbrev SphRes := Nat × Option Hit × Option Int

/-- The walk of one map's BVH copy (R172, R174) on fuel, over the rows of the geometry area. -/
def walkBvh (mem : Mem) (h : Half) (hm : HalfMap) (mi : Nat) (c : V3) (rho : Int) : Nat → List BvhSlot → SphRes → SphRes
  | 0, _, r => r
  | _, [], r => r
  | fuel + 1, s :: st, (n, _, gap) =>
    if s.leaf then
      let rec_ := mgets mem (h.primAddr + 128 * s.index) 128
      let (d2, rr) := leafDist c rho s.kind rec_
      if d2 ≤ rr * rr then
        let o := tgetD hm.objs (recOwner s.kind rec_) (0, 0)
        (n + 1, some { code := 2, map := mi, kind := s.kind, detail := o.1 + 2 ^ 32 * o.2 }, gap)
      else
        let g := (isqrt d2.toNat : Int) - rr
        walkBvh mem h hm mi c rho fuel st (n + 1, none, some (match gap with | none => g | some x => min x g))
    else
      let node := nodeOf (mgets mem (h.geoAddr + 64 * s.index) 64)
      let kept := node.slots.filter fun k =>
        let b := slotBox node k
        decide (boxDist2 c b.1 b.2 ≤ (rho + h.reach) * (rho + h.reach))
      if kept.any fun k => k.leaf && k.kind == 3 then (n + 1, some { code := 6, map := mi }, gap)
      else walkBvh mem h hm mi c rho fuel (kept ++ st) (n + 1, none, gap)

/-- The walk of one map entry, from its root. -/
def walkMap (mem : Mem) (h : Half) (hm : HalfMap) (mi : Nat) (c : V3) (rho : Int) (r : SphRes) : SphRes :=
  match hm.truncRoot, hm.root with
  | some b, _ =>
    if boxDist2 c b.1 b.2 ≤ (rho + h.reach) * (rho + h.reach) then (r.1 + 1, some { code := 6, map := mi }, r.2.2)
    else (r.1 + 1, none, r.2.2)
  | none, none => r
  | none, some root => walkBvh mem h hm mi c rho (2 * (h.geoNodes + h.geoPrims) + 2) [{ (default : BvhSlot) with index := root }] r

/-- Some coarse bit `t` is set under the sphere (R170). -/
def probeHit (h : Half) (t : Nat) (c : V3) (rho : Int) : Bool :=
  let a := ((c.sub (V3.of rho)).sub h.origin).map fun x => floorShr x h.g
  let b := ((c.add (V3.of rho)).sub h.origin).map fun x => floorShr x h.g
  (irange a.z b.z).any fun z => (irange a.y b.y).any fun y => (irange a.x b.x).any fun x =>
    decide (x < h.cells.x) && decide (y < h.cells.y) && decide (z < h.cells.z) && decide (0 ≤ x) && decide (0 ≤ y) && decide (0 ≤ z) &&
    (tgetD h.coarse (x + h.cells.x * (y + h.cells.y * z)).toNat 0).getLsbD t

/-- Refinement against map entry `mi` (R171): tests and the hit. -/
def refineMap (mem : Mem) (h : Half) (hm : HalfMap) (mi t : Nat) (c : V3) (rho : Int) (n0 : Nat) : Nat × Option Hit :=
  let m := gridMap hm.k hm.boxMin hm.boxMax
  let win := windowBox h.g h.origin h.cells
  let lo := ((c.sub (V3.of rho)).zip max hm.boxMin).zip max win.1
  let hi := ((c.add (V3.of rho)).zip min (hm.boxMax.sub (V3.of 1))).zip min (win.2.sub (V3.of 1))
  if !V3.all2 (fun a b => decide (a ≤ b)) lo hi then (n0, none) else
  let a := voxOf m lo; let b := voxOf m hi
  let blocks := (irange (floorShr a.z 1) (floorShr b.z 1)).flatMap fun z => (irange (floorShr a.y 1) (floorShr b.y 1)).flatMap fun y =>
    (irange (floorShr a.x 1) (floorShr b.x 1)).map fun x => (⟨x, y, z⟩ : V3)
  blocks.foldl (fun (acc : Nat × Option Hit) bl =>
    match acc.2 with
    | some _ => acc
    | none =>
      let v0 := bl.map fun x => 2 * x
      let key := mi * 2 ^ 24 + tileOf m v0 * 16 + brickOf v0
      if h.unstaged.contains key then (acc.1 + 1, some { code := 6, map := mi })
      else match h.fine.idxOf? key with
        | none => (acc.1 + 1, none)
        | some fi =>
          let blk := (bl.x % 8 + 8 * (bl.y % 8) + 64 * (bl.z % 8)).toNat
          let addr := h.fineAddr + (fi * 512 + blk) * 64
          let hit := (List.range 8).find? fun j =>
            let p : V3 := ⟨v0.x + (j % 2 : Nat), v0.y + (j / 2 % 2 : Nat), v0.z + (j / 4 : Nat)⟩
            let vl := hm.boxMin.add (p.map fun i => i * 2 ^ hm.k)
            V3.all2 (fun x y => decide (x ≤ y)) a p && V3.all2 (fun x y => decide (x ≤ y)) p b &&
            bitAt (mrd mem (addr + 8 * j) 8) t && decide (boxDist2 c vl (vl.add (V3.of (2 ^ hm.k))) ≤ rho * rho)
          match hit with
          | none => (acc.1 + 1, none)
          | some j =>
            let p : V3 := ⟨v0.x + (j % 2 : Nat), v0.y + (j / 2 % 2 : Nat), v0.z + (j / 4 : Nat)⟩
            (acc.1 + 1, some { code := 1, map := mi, bit := t, detail := p.x.toNat + 2 ^ 16 * p.y.toNat + 2 ^ 32 * p.z.toNat })) (n0, none)

/-- The checks of one sphere at one sample in the order of R168. -/
def checkSphere (mem : Mem) (h : Half) (t : Nat) (c : V3) (rho : Int) (n : Nat) (gap : Option Int) : SphRes × Bool :=
  let m0 := h.maps.headD default
  let win := windowBox h.g h.origin h.cells
  if !inBox m0.boxMin m0.boxMax c then ((n, some { code := 4 }, gap), false)
  else if !(V3.all2 (fun a b => decide (a ≤ b)) win.1 (c.sub (V3.of rho)) && V3.all2 (fun a b => decide (a ≤ b)) (c.add (V3.of rho)) win.2) then
    ((n, some { code := 5 }, gap), false)
  else
    let pr := probeHit h t c rho
    let ref : Nat × Option Hit := if pr then
        h.maps.zipIdx.foldl (fun acc e => match acc.2 with
          | some _ => acc
          | none => refineMap mem h e.1 e.2 t c rho acc.1) (n + 1, none)
      else (n + 1, none)
    match ref.2 with
    | some x => ((ref.1, some x, gap), pr)
    | none =>
      (h.maps.zipIdx.foldl (fun (acc : SphRes) e => match acc.2.1 with
        | some _ => acc
        | none => walkMap mem h e.1 e.2 c rho acc) (ref.1, none, gap), pr)

/-- A candidate record (R166). -/
structure Cand where
  node : V3
  tau0 : Nat
  duration : Nat
  samples : Nat
  limitSample : Nat
  limitJoint : Nat
  rowAddr : Nat
  user : Nat
  deriving DecidableEq, Repr, Inhabited
/-- The candidate record in 32 bytes; `die` says whose banks. -/
def parseCand (die : Nat) (bs : Bytes) : Cand :=
  { node := ⟨sfld bs 0 4, sfld bs 4 4, 0⟩, tau0 := fld bs 8 8, duration := fld bs 16 4, samples := fld bs 20 1,
    limitSample := fld bs 21 1, limitJoint := fld bs 22 1,
    rowAddr := rowAddr die (bits (fld bs 23 1) 3 0) (bits (fld bs 24 4) 17 0), user := fld bs 28 4 }
/-- R169: samples and duration of a candidate are in range. -/
def candOk (c : Cand) : Bool :=
  decide (1 ≤ c.samples) && decide (c.samples ≤ 32) && decide (1000000 ≤ c.duration) && decide (c.duration ≤ 3200000000)

/-- The centres of the spheres of every sample: from the sphere rows in the banks (R167). -/
def bankRowsOf (mem : Mem) (spheres : Nat) (c : Cand) (j i : Nat) : V3 :=
  let a := c.rowAddr + j * ((12 * spheres + 63) / 64) * 64 + 12 * i
  c.node.add ⟨mrdS mem a 4, mrdS mem (a + 4) 4, mrdS mem (a + 8) 4⟩

/-- The outcome of one candidate against a staged half (R168): hit, tests, refinements, least gap. `centre j i` is the
centre of sphere i at sample j. -/
def checkCand (mem : Mem) (h : Half) (rho : List Int) (c : Cand) (centre : Nat → Nat → V3) : Hit × Nat × Nat × Option Int :=
  if c.limitSample ≠ 0xff then ({ code := 3, sample := c.limitSample, sphere := c.limitJoint }, 0, 0, none)
  else
    let r := (List.range c.samples).foldl (fun (acc : SphRes × Nat) j =>
      match acc.1.2.1 with
      | some _ => acc
      | none =>
        let τ := c.tau0 + c.duration * (j + 1) / c.samples
        let t := probeBit h.sigmaW (sliceOf τ h.sliceMs)
        rho.zipIdx.foldl (fun (acc : SphRes × Nat) e =>
          match acc.1.2.1 with
          | some _ => acc
          | none =>
            let s := checkSphere mem h t (centre j e.2) e.1 acc.1.1 acc.1.2.2
            ((s.1.1, s.1.2.1.map fun x => { x with sample := j, sphere := e.2 }, s.1.2.2), acc.2 + b2n s.2)) acc)
      ((0, none, none), 0)
    match r.1.2.1 with
    | some x => (x, r.1.1, r.2, r.1.2.2)
    | none => ({ code := 0 }, r.1.1, r.2, r.1.2.2)

/-- The clearance of R176. -/
def clearanceOf : Option Int → Nat
  | none => 2 ^ 64 - 1
  | some g => (g * g).toNat
/-- The 32-byte result record (R175). -/
def resultRec (x : Hit) (tests user : Nat) (gap : Option Int) : Bytes :=
  let detail := if x.code = 0 then clearanceOf gap else x.detail
  leBytes 1 x.code ++ leBytes 1 (x.sample % 32) ++ leBytes 1 (x.sphere % 64 + 64 * (x.map % 4)) ++
    leBytes 1 (x.bit % 64 + 64 * x.kind) ++ leBytes 4 (min tests 0xffffffff) ++ leBytes 8 detail ++ leBytes 4 user ++ zeros 12

/-- What a CHECK did: result memory, and the counts of the SWP block. -/
structure SweepStats where
  cands : Nat := 0
  hits : Nat := 0
  tests : Nat := 0
  refines : Nat := 0
  dense : Nat := 0
  window : Nat := 0
  badDesc : Bool := false
  badCand : Nat := 0
  deriving DecidableEq, Repr, Inhabited

/-- SWP_CHECK (R165 to R177) of the descriptor at `addr` on die `die` against a half; bit n of `unretired`
is set for a candidate not yet retired when a double-bit window error strikes (R185): lanes retire out of order. -/
def sweepCheck (mem : Mem) (die addr : Nat) (half : Option Half) (unretired : Option Nat) : Mem × SweepStats :=
  let bs := mgets mem addr 320
  let count := bits (fld bs 0 2) 8 0
  let s := bits (fld bs 2 1) 6 0
  let cand := rowField die (fld bs 4 4)
  let res := rowField die (fld bs 8 4)
  let rho := (List.range s).map fun i => (fld bs (64 + 4 * i) 4 : Int)
  let ok := match half with
    | some h => decide (1 ≤ count) && decide (count ≤ 256) && decide (1 ≤ s) && decide (s ≤ 64) &&
        rho.all fun r => decide (2 * r ≤ 2 ^ h.g)
    | none => false
  let h := half.getD default
  (List.range (min count 256)).foldl (fun (acc : Mem × SweepStats) n =>
    let c := parseCand die (mgets acc.1 (cand + 32 * n) 32)
    let struck := match unretired with
      | some k => bitAt k n
      | none => false
    if !ok || !candOk c || struck then
      (mputs acc.1 (res + 32 * n) (resultRec { code := 7 } 0 c.user none),
       { acc.2 with cands := acc.2.cands + 1, hits := acc.2.hits + 1, badCand := acc.2.badCand + b2n (ok && !candOk c) })
    else
      let r := checkCand acc.1 h rho c (bankRowsOf acc.1 s c)
      (mputs acc.1 (res + 32 * n) (resultRec r.1 r.2.1 c.user r.2.2.2),
       { acc.2 with cands := acc.2.cands + 1, hits := acc.2.hits + b2n (r.1.code != 0), tests := acc.2.tests + r.2.1,
                    refines := acc.2.refines + r.2.2.1, dense := acc.2.dense + b2n (r.1.code == 6),
                    window := acc.2.window + b2n (r.1.code == 5) }))
    (mem, { badDesc := !ok })

end Sys2Proof.Machine
end

