-- ==== Sys2Proof/Machine/Work.lean ====
section
/-! DEFINITION. The counters of the five engines of a core (R184, R217, R254, R283, R302), and what work adds to them: a unit operation's, and that of the
searches, verifications, predictor passes and class-1 queries, on the core of the logical tile that it runs on. -/
namespace Sys2Proof.Machine

/-- Register `o` of core `c` in the block of engine `e` (0 sweep, 1 tensor, 2 solver, 3 select, 4 frontier). -/
def engReg (die e c o : Nat) : Nat := dieWin die + 0x100000 + 0x10000 * e + 0x100 * c + o
/-- A wrapping counter of an engine, unless cnt_freeze holds it (R184, R217, R254, R283, R302). Log entry 45 DEDUCED. -/
def engCnt (d : Dev) (die e c o n : Nat) : Dev := if bitAt (rget d (engReg die e c 0)) 1 then d else cntWrap d (engReg die e c o) n
/-- A 64-bit counter of an engine. -/
def engCnt64 (d : Dev) (die e c o n : Nat) : Dev := if bitAt (rget d (engReg die e c 0)) 1 then d else cnt64 d (engReg die e c o) n
/-- A register of an engine that holds the length of its last operation. -/
def engSet (d : Dev) (die e c o v : Nat) : Dev := if bitAt (rget d (engReg die e c 0)) 1 then d else rset d (engReg die e c o) v

/-- How an amount enters a register: it is added, added to a pair, or it is the new value. -/
inductive Tally where
  | add
  | pair
  | last
  deriving DecidableEq, Repr, Inhabited
/-- What work leaves in the registers of a core: engine, offset, how, amount. -/
abbrev Work := List (Nat × Nat × Tally × Nat)
/-- Work entered in the registers of a core. -/
def addWork (d : Dev) (die core : Nat) (w : Work) : Dev :=
  w.foldl (fun d x => match x.2.2.1 with
    | .add => engCnt d die x.1 core x.2.1 x.2.2.2
    | .pair => engCnt64 d die x.1 core x.2.1 x.2.2.2
    | .last => engSet d die x.1 core x.2.1 x.2.2.2) d
/-- Work entered at the core that holds a logical tile (R30). -/
def tileWork (d : Dev) (t : Nat) (w : Work) : Dev := addWork d (tileCore d t).1 (tileCore d t).2 w

/-- What checks count (R184); `loss` sums, over their candidates, the tests issued past the first hit, the cycles refused, the cycles waiting. -/
def swpWork (s : SweepStats) (loss : Nat × Nat × Nat) : Work :=
  [(0, 0xC, .add, s.cands), (0, 0x10, .add, s.hits), (0, 0x14, .pair, s.tests), (0, 0x1C, .pair, s.tests + loss.1), (0, 0x24, .add, s.refines),
   (0, 0x28, .add, s.dense), (0, 0x2C, .add, s.window), (0, 0x30, .add, loss.2.1), (0, 0x34, .add, loss.2.2)]
/-- What the layers of a network count (R217). -/
def tnsWork (o : NetOut) : Work :=
  [(1, 0xC, .add, o.layers), (1, 0x10, .pair, o.macs), (1, 0x18, .add, o.sat), (1, 0x1C, .add, o.clamp), (1, 0x20, .add, o.lost), (1, 0x28, .last, o.cyc)]
/-- What solver problems count (R283): their number, IK iterations, MACs, clamped pivots, saturations. -/
def slvWork (probs iters macs piv sat : Nat) : Work :=
  [(2, 0xC, .add, probs), (2, 0x10, .add, iters), (2, 0x14, .pair, macs), (2, 0x1C, .add, piv), (2, 0x20, .add, sat)]
/-- What candidates given to SLV_ROWS count (R283): their number, those at a limit, MACs, saturations. -/
def rowsCount (rows limits macs sat : Nat) : Work :=
  [(2, 0x24, .add, rows), (2, 0x28, .add, limits), (2, 0x14, .pair, macs), (2, 0x20, .add, sat)]
/-- What one select operation over `n` elements counts (R302): whether its sums saturated, its length. -/
def selWork (n : Nat) (sat : Bool) (cyc : Nat) : Work :=
  [(3, 0xC, .add, 1), (3, 0x10, .pair, n), (3, 0x18, .add, b2n sat), (3, 0x20, .last, cyc)]
/-- What one select operation on its lists counts, with the cycles that it lost (R292, R302). Log entry 105 DESIGN CHOICE. -/
def selOpWork (op md k : Nat) (lists : List (List Elem)) : Work :=
  let n := total (lists.map (·.length))
  let lost := Config.portLoss (op, md, k, lists)
  selWork n (selRun op md k lists).sat (selCycles op n k lists.length + lost) ++ [(3, 0x1C, .add, lost)]
/-- A list cut into runs of `n`, on fuel. -/
def runsOf {α : Type} (n : Nat) : Nat → List α → List (List α)
  | 0, _ => []
  | _, [] => []
  | f + 1, l => l.take n :: runsOf n f (l.drop n)
/-- What the MERGE operations count that merge any number of lists: in groups of 16, then the groups' outputs (R298). -/
def mergeWork (md : Nat) (lists : List (List Elem)) : Work :=
  if lists.length ≤ 16 then selOpWork 4 md 0 lists else
  let gs := runsOf 16 (lists.length + 1) lists
  gs.flatMap (selOpWork 4 md 0) ++ selOpWork 4 md 0 (gs.map fun g => selOrder md g.flatten)
/-- Pushes and pops of a frontier unit (R254). -/
def frnWork (pushes pops : Nat) : Work := [(4, 0xC, .pair, pushes), (4, 0x14, .pair, pops)]

/-- Order of frontier entries: cost, sequence number, node index (R223, R225). -/
def entLe (a b : Nat × Nat × Nat) : Bool :=
  decide (a.1 < b.1) || (a.1 == b.1 && (decide (a.2.1 < b.2.1) || (a.2.1 == b.2.1 && decide (a.2.2 ≤ b.2.2))))

/-! ### What a frontier unit holds (R222, R254) -/

/-- Key of queue `q` of a core's frontier unit. -/
def frnKey (die core q : Nat) : Nat := (die * 16 + core) * 1024 + q
/-- The queues of a core's unit that unit operations opened. -/
def frnQueues (d : Dev) (die core : Nat) : Tab FrnQueue := d.eng.frn.filter fun p => p.1 / 1024 == die * 16 + core
/-- The queues that searches have on a core: one for each query that is searching and each of its logical tiles there, with its entries (R222). -/
def searchQueues (d : Dev) (die core : Nat) : List Nat :=
  (d.q.recs.filter fun q => q.2.stage == .search).flatMap fun q => (q.2.tiles.filter fun t => tileCore d t.1 == (die, core)).map fun t => t.2.queue.length
/-- Entries in a core's unit: at most 65,536, what is over lying in tile stores (R222). Log entry 45 DEDUCED. -/
def frnHeld (d : Dev) (die core : Nat) : Nat := min 65536 (total ((frnQueues d die core).map fun p => p.2.inUnit.length) + total (searchQueues d die core))
/-- The most entries held since the last clear. -/
def frnPeak (d : Dev) (die core : Nat) : Dev := engSet d die 4 core 0x28 (max (rget d (engReg die 4 core 0x28)) (frnHeld d die core))

end Sys2Proof.Machine
end

