-- ==== Sys2Proof/Machine/Calib.lean ====
section
/-! DEFINITION. Live calibration (R433 to R448): kinematic estimates, stream time offsets, spare-lane rotation, their records and outcomes. -/
namespace Sys2Proof.Machine

/-- First byte of the CAL block of a die. -/
def calBase (die : Nat) : Nat := dieWin die + 0x40000
/-- The calibration unit changed. -/
def modCal (d : Dev) (f : CalDev → CalDev) : Dev := { d with cal := f d.cal }
/-- An estimate's record changed, made where there is none. -/
def setEst (d : Dev) (key : Nat) (e : CalRec) : Dev := modCal d fun c => { c with est := tput c.est key e }
/-- The idle record of an object. -/
def idleEst (kind handle : Nat) : CalRec := { (default : CalRec) with kind := kind, handle := handle, version := 0xffffffff }
/-- The estimate record of a key. -/
def estOf (d : Dev) (key kind handle : Nat) : CalRec := tgetD d.cal.est key (idleEst kind handle)

/-! ### Records (R441) -/

/-- The record of a kinematic or time estimate. -/
def calRecord (d : Dev) (e : CalRec) : Bytes :=
  let n := if e.state = 0 then e.used else (if e.kind = 1 then e.kinSamples.length else e.timeSamples.length)
  let head := leBytes 1 (e.kind + 4 * e.state + 16 * b2n (e.apply && e.state != 0)) ++ leBytes 1 e.result ++ leBytes 2 e.handle ++
    leBytes 2 (if e.kind = 1 then e.agent else 0) ++ leBytes 2 n ++ leBytes 6 e.start ++ leBytes 6 e.ends ++
    leBytes 4 (if e.kind = 1 then e.version else 0) ++ sbytes 4 e.before ++ leBytes 4 e.after
  let tail := if e.kind = 1 then leBytes 4 e.m ++ e.corr.flatMap (sbytes 4)
    else sbytes 4 (((tget d.world.streams e.handle).map (·.offs)).getD 0) ++ sbytes 4 e.r
  fit 128 (head ++ tail)
/-- The receiver of a link side: 0 the lower die, 1 the higher. -/
def laneOf (d : Dev) (link side : Nat) : LaneRec := tgetD d.cal.lanes (link * 2 + side) default
/-- The lane record. -/
def laneRecord (d : Dev) : Bytes :=
  let run := d.cal.lanes.any fun l => l.2.running
  let eye := fun (l : LaneRec) => leBytes 1 l.passW ++ leBytes 1 l.passH ++ leBytes 1 (l.retired.getD 0xff)
  fit 128 (leBytes 1 (3 + 12 * b2n run) ++ leBytes 1 d.cal.laneResult ++ leBytes 2 d.cal.mask ++ zeros 4 ++ leBytes 6 d.cal.laneStart ++ zeros 18 ++
    (List.range 10).flatMap fun x => eye (laneOf d x 0) ++ eye (laneOf d x 1) ++ zeros 2)

/-! ### Commands -/

/-- Kinematic estimates that run. -/
def kinRunning (d : Dev) : Nat := (d.cal.est.filter fun e => e.2.kind == 1 && e.2.state != 0).length
/-- A calibration command accepted: its record is formed at the turn's end (R433). -/
def askCal (d : Dev) (c : Cmd) : Dev := { d with ldg := { d.ldg with asks := d.ldg.asks ++ [(c, d.ldg.pos)] } }
/-- CALIB_KIN of mode `mode` (R435, R437, R439). -/
def fxCalibKin (d : Dev) (c : Cmd) (mode : Nat) : Dev :=
  let b := c.block; let h := fld b 0 2; let ag := fld b 2 2; let n := fld b 4 2
  if b.length ≠ 8 || h > 1023 || ag > 4095 || mode > 2 || fld b 7 1 ≠ 0 || (mode ≠ 2 && (n < 8 || n > 1024)) then answer d c stBadRange 0 else
  let m := tget d.world.models h
  let a := tget d.world.agents ag
  let good := (m.map fun m => m.owner == c.polder && m.kind == 1).getD false && (a.map fun a => a.polder == c.polder && a.bind.model == h && !a.leaving).getD false
  if !good then dikeRefuse d c else
  let e := estOf d h 1 h
  if mode = 2 then askCal (endEstimate d h 9) c
  else if e.state ≠ 0 then askCal d c
  else if kinRunning d ≥ 16 then answer d c stBadState 0
  else
    let v := m.bind curModel
    askCal (setEst d h { idleEst 1 h with polder := c.polder, state := 1, apply := mode == 1, result := e.result, agent := ag, want := n, start := d.time.turn,
                                          ends := e.ends, pin := (v.map (·.ver)).getD 0, raw := (v.map (·.raw)).getD [] }) c
/-- CALIB_TIME of mode `mode` (R435, R444). -/
def fxCalibTime (d : Dev) (c : Cmd) (mode : Nat) : Dev :=
  let b := c.block; let n := fld b 0 1
  if b.length ≠ 4 || n > 127 || mode > 2 || !allZero (slice b 2 2) then answer d c stBadRange 0 else
  match tget d.world.streams n with
  | none => dikeRefuse d c
  | some s =>
    if s.polder ≠ c.polder then dikeRefuse d c
    else if mode = 2 then askCal (modStream (endEstimate d (1024 + n) 9) n fun s => { s with offs := 0, offsNext := none }) c
    else
      let e := estOf d (1024 + n) 2 n
      if e.state ≠ 0 then askCal d c
      else askCal (setEst d (1024 + n) { e with polder := c.polder, state := 1, apply := mode == 1, start := d.time.turn, timeSamples := [],
                                                want := bits (rget d (calBase 0 + 8)) 11 0 }) c
/-- Dies of a link, the lower first (R21). -/
def linkDies (x : Nat) : Nat × Nat := if x < 4 then (2 * x, 2 * x + 1) else (x - 4, x - 2)
/-- A link joins two populated dies. -/
def linkHere (fz : Fuses) (x : Nat) : Bool := decide (x < 10) && decide ((linkDies x).2 < popDies fz)
/-- CALIB_LANE of mode `mode` (R445). -/
def fxCalibLane (fz : Fuses) (d : Dev) (c : Cmd) (mode : Nat) : Dev :=
  let b := c.block; let mask := fld b 0 2; let per := fld b 4 4
  if b.length ≠ 8 || mask > 0x3ff || mode > 2 || fld b 3 1 ≠ 0 || (mode = 1 && (per < 1 || per > 2 ^ 24)) then answer d c stBadRange 0
  else if mode = 2 then askCal d c
  else
    let keys := ((List.range 10).filter fun x => bitAt mask x && linkHere fz x).flatMap fun x => [2 * x, 2 * x + 1]
    let set := fun (c : CalDev) (k : Nat) =>
      let l := tgetD c.lanes k default
      let l := if mode = 0 then { l with stopping := l.running }
        else if l.retired.isSome || l.spareFail then l
        else { l with running := true, stopping := false, failed := false, lane := 0, minW := 255, minH := 255 }
      { c with lanes := tput c.lanes k l }
    let d := modCal d fun c => keys.foldl set c
    askCal (modCal d fun c => if mode = 1 then { c with period := per % 2 ^ 24, mask := mask, laneStart := d.time.turn } else c) c

/-! ### Samples (R437, R444), taken while a ledger's S2 takes effect -/

/-- The time estimate of a stream takes a sample; with the last one the computation ends in this turn (R444). -/
def timeSample (d : Dev) (n : Nat) (arrival : Nat) (corrected : Int) : Dev :=
  let key := 1024 + n
  match tget d.cal.est key with
  | none => d
  | some e =>
    if e.state ≠ 1 || e.start ≥ d.time.turn then d else
    let l := e.timeSamples ++ [(arrival : Int) - corrected]
    let d := setEst d key { e with timeSamples := l }
    if l.length < e.want then d else
    let srt := sortBy (fun a b => decide (a ≤ b)) l
    let k := l.length
    let cfg := rget d (calBase 0 + 4)
    let lo := srt.getD 0 0; let hi := srt.getD ((9 * k + 9) / 10 - 1) 0
    let r := lo - bits cfg 15 0 * 1000
    let o := ((tget d.world.streams n).map (·.offs)).getD 0
    let res := if hi - lo > bits cfg 31 16 * 1000 then 11
      else if (o + r).natAbs > bits (rget d (calBase 0 + 8)) 31 24 * 1000000 then 10 else if e.apply then 1 else 2
    endEstimate (setEst d key { e with timeSamples := l, used := k, before := lo, after := (hi - lo).toNat, r := r }) key res
/-- A marker of an agent pairs with the agent's state of this ledger (R437). -/
def kinSample (d : Dev) (map agent : Nat) (pos : V3) (ts : Int) : Dev :=
  match tget d.world.agents agent with
  | none => d
  | some a =>
    match tget d.cal.est a.bind.model, a.snap with
    | some e, some sn =>
      let near := decide ((sn.ts : Int) - ts ≤ 10000000) && decide (ts - (sn.ts : Int) ≤ 10000000)
      if e.kind ≠ 1 || e.state ≠ 1 || e.agent ≠ agent || e.start ≥ d.time.turn || a.bind.homeMap ≠ map || sn.turn ≠ d.time.turn || !near || !bitAt (fld sn.raw 1 1) 0 then d
      else
        let q := (List.range (kinN e.raw)).map fun j => sfld sn.raw (32 + 8 * j) 4
        let l := e.kinSamples ++ [(pos, q, sfld sn.raw 8 4, sfld sn.raw 12 4, sfld sn.raw 16 4)]
        setEst d a.bind.model { e with kinSamples := l, state := if l.length ≥ e.want then 2 else 1 }
    | _, _ => d
/-- The markers of an OBJECT_TRACK frame (R437). -/
def kinMarkers (d : Dev) (map : Nat) (f : Bytes) (ts : Int) : Dev :=
  (frameRecs f 40).foldl (fun d r => if fld r 4 1 = 255 then kinSample d map (fld r 0 4) (v3fld r 8) ts else d) d

/-! ### The kinematic fit (R438) -/

/-- The joints whose off_pos is not zero, in order. -/
def lenJoints (m : Bytes) : List Nat := (List.range (kinN m)).filter fun j => !(v3fld m (kinJ j + 4) == V3.of 0)
/-- The parameters: joint corrections, then length corrections, 16 at most. -/
def kinParams (m : Bytes) : List (Bool × Nat) := (((List.range (kinN m)).map fun j => (false, j)) ++ (lenJoints m).map fun j => (true, j)).take 16
/-- A model's bytes with corrections: zero_offset plus δz, off_pos plus round(δℓ × u / 2^30) (R440). Log entry 76 DEDUCED. -/
def correctModel (m0 m : Bytes) (ps : List ((Bool × Nat) × Int)) : Bytes :=
  ps.foldl (fun m p =>
    let set := fun (m : Bytes) (o : Nat) (v : Int) => m.take o ++ sbytes 4 v ++ m.drop (o + 4)
    let j := p.1.2
    if !p.1.1 then set m (kinJ j + 88) (kinZero m0 j + p.2)
    else
      let off := v3fld m0 (kinJ j + 4)
      let u := unitV off
      let g := fun (o u : Int) => o + rdivAway (p.2 * u) (2 ^ 30)
      set (set (set m (kinJ j + 4) (g off.x u.x)) (kinJ j + 8) (g off.y u.y)) (kinJ j + 12) (g off.z u.z)) m
/-- Rows of one sample: error and columns, three rows of Q8.23 (R438). -/
def kinRows (m0 m : Bytes) (ps : List (Bool × Nat)) (s : V3 × List Int × Int × Int × Int) : Sol (List (Int × List Int)) := do
  let b : BasePose := { x := s.2.2.1, y := s.2.2.2.1, yaw := s.2.2.2.2 }
  let q := s.2.1.zipIdx.map fun x => x.1 + kinZero m x.2
  let fs ← fkFrames m b q
  let n := kinN m
  let x ← fkPoint fs n (V3.of 0)
  let e ← toQ823 (s.1.sub x)
  let cols ← ps.mapM fun p => do
    if !p.1 then jacCol m b fs n x (.joint p.2)
    else
      let f := fs.getD p.2 default
      let v ← vecAcc (matVecTerms 30 f.1 (unitV (v3fld m0 (kinJ p.2 + 4))))
      [v.x, v.y, v.z].mapM (convq 30 23)
  pure ([e.x, e.y, e.z].zipIdx.map fun r => (r.1, cols.map fun c => c.getD r.2 0))
/-- A sum of products over rows in blocks of 255 terms, the block sums added in order (R257, R438). -/
def blockSum : Nat → List (Int × Int) → Sol Int
  | 0, _ => pure 0
  | fuel + 1, l => do
    if l.isEmpty then pure 0 else
      let a ← accq ((l.take 255).map fun t => mulq 23 t.1 t.2)
      let r ← blockSum fuel (l.drop 255)
      accq [a, r]
/-- rms of a list of Q8.23 errors as SC32 LSB; the sum of the squares goes to the square-root unit by R256. Log entry 76 DEDUCED. -/
def rmsOf (es : List Int) : Sol Nat := do
  let s := (es.map fun e => e * e).sum
  noteSat (decide (s > 2 ^ 64 - 1))
  pure (isqrt ((min s (2 ^ 64 - 1)).toNat / max 1 es.length) / 128)
/-- One Gauss-Newton iteration: new corrections and the errors before it. Log entry 76 DEDUCED. -/
def kinIter (m0 : Bytes) (ss : List (V3 × List Int × Int × Int × Int)) (ps : List (Bool × Nat)) (cor : List Int) : Sol (List Int × List Int) := do
  let m := correctModel m0 m0 (ps.zip cor)
  let rows := (← ss.mapM (kinRows m0 m ps)).flatten
  let k := ps.length
  let col := fun (r : Int × List Int) (i : Nat) => r.2.getD i 0
  let fuel := rows.length + 1
  let a ← (List.range k).mapM fun i => (List.range k).mapM fun j => do
    let v ← blockSum fuel (rows.map fun r => (col r i, col r j))
    if i = j then accq [v, mulq 23 65536 65536] else pure v
  let g ← (List.range k).mapM fun i => blockSum fuel (rows.map fun r => (col r i, r.1))
  let y ← ldltSolve a g 8192 k
  let new ← ((ps.zip cor).zip y).mapM fun p => do
    let v ← convq 23 (if !p.1.1.1 && !kinPris m0 p.1.1.2 then 29 else 16) p.2
    pure (p.1.2 + v)
  pure (new, rows.map (·.1))
/-- The fit: corrections, rms before and after, and the flags. -/
def kinFit (m0 : Bytes) (ss : List (V3 × List Int × Int × Int × Int)) (iters : Nat) : (List Int × Nat × Nat) × SolFlags :=
  let ps := kinParams m0
  let run : Sol (List Int × Nat × Nat) := do
    let z := ps.map fun _ => (0 : Int)
    let first ← ss.mapM (kinRows m0 m0 ps)
    let c ← (List.range iters).foldlM (fun c _ => do
      let r ← kinIter m0 ss ps c
      pure r.1) z
    let last ← ss.mapM (kinRows m0 (correctModel m0 m0 (ps.zip c)) ps)
    let before ← rmsOf (first.flatten.map (·.1))
    let after ← rmsOf (last.flatten.map (·.1))
    pure (c, before, after)
  run.run {}
/-- The outcome of a fit by the first test of R439 that applies before the outcome entry. -/
def kinOutcome (d : Dev) (e : CalRec) (r : (List Int × Nat × Nat) × SolFlags) : Nat :=
  let cfg := rget d (calBase 0)
  let far := ((kinParams e.raw).zip r.1.1).any fun p =>
    if p.1.1 then decide (p.2.natAbs * 1000 > bits cfg 23 16 * 65536)
    else decide (p.2.natAbs > bits cfg 31 24 * (if kinPris e.raw p.1.2 then 64 else 2 ^ 19))
  if r.2.piv > 0 || r.2.accSat then 6 else if far then 4
  else if r.1.2.2 * 10000 > bits cfg 15 8 * 65536 || r.1.2.2 ≥ r.1.2.1 then 5 else if e.apply then 1 else 2
/-- What a fit counts at the core of its agent's class-0 tile: clamped pivots, saturations, and MACs, whose number the spec does not give (R283, R438). Log entry
76 DEDUCED. -/
def fitWork (d : Dev) (e : CalRec) (f : SolFlags) : Dev :=
  match tget d.world.agents e.agent with
  | none => d
  | some a => tileWork (freeVal d).2 a.tile (slvWork 0 0 (freeVal d).1 f.piv f.sat)
/-- CALIB_ESTIMATE_END: the computation of an estimate that has its samples ends (R434, R438). -/
def fxEstimateEnd (d : Dev) (key : Nat) : Dev :=
  match tget d.cal.est key with
  | none => d
  | some e =>
    if e.state ≠ 2 || e.kind ≠ 1 then d else
    let r := kinFit e.raw e.kinSamples (bits (rget d (calBase 0)) 3 0)
    endEstimate (setEst (fitWork d e r.2) key { e with corr := r.1.1, m := r.1.1.length, before := r.1.2.1, after := r.1.2.2, used := e.kinSamples.length }) key (kinOutcome d e r)
/-- CALIB_SPAN_EXPIRY (R437, R444). -/
def fxSpanExpiry (d : Dev) (key : Nat) : Dev :=
  match tget d.cal.est key with
  | none => d
  | some e =>
    let n := if e.kind = 1 then e.kinSamples.length else e.timeSamples.length
    if e.state ≠ 1 || d.time.turn < e.start + rget d (calBase 0 + 0xC) then d else endEstimate (setEst d key { e with used := n }) key 3
/-- A MODEL_DEFINE for a model stands in the ledger that executes (R439). -/
def defineInLedger (d : Dev) (h : Nat) : Bool :=
  ((d.ldg.current.map (·.entries)).getD []).any fun e => e.kind == 7 && !e.internal && fld e.payload 0 2 == 0x200 && fld (blockOf (e.payload.take 64) (e.payload.drop 64)) 0 2 == h
/-- CALIB_OUTCOME: the oldest outcome whose entry is in the ledger of this turn takes effect (R434, R435, R440, R444). Log entry 76 DEDUCED. -/
def fxOutcome (d : Dev) : Dev :=
  match d.cal.outcomes with
  | [] => d
  | (t, e) :: rest =>
    if t > d.time.turn then d else
    let d := modCal d fun c => { c with outcomes := rest }
    let newer := ((tget d.world.models e.handle).map fun m => m.removed || ((curModel m).map fun v => v.ver != e.pin).getD true).getD true || defineInLedger d e.handle
    let res := if e.kind = 1 && (e.result = 1 || e.result = 2) && newer then 7 else e.result
    let ver := if e.kind = 1 && res = 1 then verAfter (some e.pin) else 0xffffffff
    let key := if e.kind = 1 then e.handle else 1024 + e.handle
    let cur := estOf d key e.kind e.handle
    let d := if cur.start = e.start then setEst d key { cur with result := res, version := if e.kind = 1 then ver else cur.version } else d
    let d := if e.kind = 1 && res = 1 then
        modModel d e.handle fun m => { m with due := some (correctModel e.raw e.raw ((kinParams e.raw).zip e.corr)) }
      else if e.kind = 2 && res = 1 then modStream d e.handle fun s => { s with offsNext := some (s.offs + e.r) } else d
    irq (cnt d (calBase 0 + (if res ≤ 2 then 0x18 else 0x1C))) e.polder 63

/-! ### Lanes (R446, R447) -/

/-- LANE_STEP: one receiver measures its lane; the eye is the measured width and height. -/
def fxLaneStep (d : Dev) (link side width height : Nat) : Dev :=
  let die := if side = 0 then (linkDies link).1 else (linkDies link).2
  let l := laneOf d link side
  if link > 9 || side > 1 || !l.running then d else
  let cfg := rget d (calBase die + 0x10)
  let good := decide (bits cfg 7 0 ≤ width) && decide (bits cfg 15 8 ≤ height)
  let w := min l.minW width; let h := min l.minH height
  let put := fun (d : Dev) (l : LaneRec) => modCal d fun c => { c with lanes := tput c.lanes (link * 2 + side) l }
  let stop := fun (l : LaneRec) => if l.stopping then { l with running := false, stopping := false } else l
  let d := if good then
      (if l.lane = 64 then put d (stop { l with failed := false, lane := 0, passW := w, passH := h, minW := 255, minH := 255 })
       else put d (stop { l with failed := false, lane := l.lane + 1, minW := w, minH := h }))
    else if !l.failed then put d (stop { l with failed := true, minW := w, minH := h })
    else if l.lane = 64 then
      raise (modCal (put d { l with running := false, stopping := false, spareFail := true, result := 12 }) fun c => { c with laneResult := 12 }) 0x041 die (0xB0 + link) link
    else raise (modCal (put d { l with running := false, stopping := false, retired := some l.lane, result := 12 }) fun c => { c with laneResult := 12 }) 0x040 die (0xB0 + link) link
  if !running d || d.ldg.replay || (d.pkg.twin && d.twin.role == .follow) then d else
  let e : Entry := { (default : Entry) with kind := 6, internal := true, source := srcUnit 2, ctr := d.ldg.intern + 1, ts := stamp d.time.now, payload := laneRecord d }
  placeEntry { d with ldg := { d.ldg with intern := d.ldg.intern + 1 } } (max d.time.first (d.time.sealedTo + 1)) e

/-- The answers of the turn's status queries and calibration commands at its end (R375, R433). -/
def answerAll (d : Dev) : Dev :=
  let l := d.ldg.asks
  l.foldl (fun d a =>
    let rep := fun r => reply d a.1 0 0 (some r) d.time.turn 0 d.time.turn a.2
    match a.1.op with
    | 0x900 => rep (calRecord d (estOf d (fld a.1.block 0 2) 1 (fld a.1.block 0 2)))
    | 0x901 => rep (calRecord d (estOf d (1024 + fld a.1.block 0 1) 2 (fld a.1.block 0 1)))
    | 0x902 => rep (laneRecord d)
    | _ => answerAsk d a.1 a.2) { d with ldg := { d.ldg with asks := [] } }

/-- CALIB_KIN, with the mode of its block. -/
def execCalibKin (c : Cmd) (s : State) : Host.Outcome State Fault Refusal := onDev s fun d => fxCalibKin d c (fld c.block 6 1)
/-- CALIB_KIN of mode 2. -/
def execCalibKinAbort (c : Cmd) (s : State) : Host.Outcome State Fault Refusal := onDev s fun d => fxCalibKin d c 2
/-- CALIB_TIME, with the mode of its block. -/
def execCalibTime (c : Cmd) (s : State) : Host.Outcome State Fault Refusal := onDev s fun d => fxCalibTime d c (fld c.block 1 1)
/-- CALIB_TIME of mode 2. -/
def execCalibTimeClear (c : Cmd) (s : State) : Host.Outcome State Fault Refusal := onDev s fun d => fxCalibTime d c 2
/-- CALIB_LANE of mode 1. -/
def execCalibLaneRun (c : Cmd) (s : State) : Host.Outcome State Fault Refusal := onFz s fun fz d => pfOnly d c fun d c => fxCalibLane fz d c 1
/-- CALIB_LANE of mode 0. -/
def execCalibLaneStop (c : Cmd) (s : State) : Host.Outcome State Fault Refusal := onFz s fun fz d => pfOnly d c fun d c => fxCalibLane fz d c 0
/-- CALIB_LANE of mode 2. -/
def execCalibLaneReport (c : Cmd) (s : State) : Host.Outcome State Fault Refusal := onFz s fun fz d => pfOnly d c fun d c => fxCalibLane fz d c 2
/-- CALIB_ESTIMATE_END. -/
def execCalibEstimateEnd (key : Nat) (s : State) : Host.Outcome State Fault Refusal := onDev s fun d => fxEstimateEnd d key
/-- CALIB_OUTCOME. -/
def execCalibOutcome (s : State) : Host.Outcome State Fault Refusal := onDev s fxOutcome
/-- CALIB_SPAN_EXPIRY. -/
def execCalibSpanExpiry (key : Nat) (s : State) : Host.Outcome State Fault Refusal := onDev s fun d => fxSpanExpiry d key
/-- LANE_STEP. -/
def execLaneStep (link side width height : Nat) (s : State) : Host.Outcome State Fault Refusal := onDev s fun d => fxLaneStep d link side width height

end Sys2Proof.Machine
end

