-- ==== Sys2Proof/Machine/Package.lean ====
section
/-! DEFINITION. The package as a whole: what its pins show (R537, R538), the tile map (R30 to R34), roles of a twin (R486, R487), fencing a
die (R502, R503), a package reset (R554). -/
namespace Sys2Proof.Machine

/-! ### The tile map -/

/-- Live cores of a die that an image uses (R30, R307). -/
def usableCores (fz : Fuses) (d : Dev) (img : Bytes) (die : Nat) : List Nat :=
  let l := (List.range 16).filter fun c => coreLive fz d die c
  let mask := imgCounts img
  let u := if mask = 0 then l.length else (((List.range (l.length + 1)).filter fun n => decide (1 ≤ n) && bitAt mask (n - 1)).getLast?).getD 0
  l.take u
/-- The usable cores in order, each as die × 16 + core (R30). -/
def coreOrder (fz : Fuses) (d : Dev) (img : Bytes) : List Nat :=
  (List.range 8).flatMap fun die => (usableCores fz d img die).map fun c => die * 16 + c
/-- The tile map of the live cores under an image (R30); with no core it is empty. -/
def tileMapOf (fz : Fuses) (d : Dev) (img : Bytes) : List Nat :=
  let e := coreOrder fz d img
  if e.isEmpty then [] else (List.range 128).map fun t => e.getD (t % e.length) 0
/-- Live cores of every die, as masks. -/
def liveMasks (fz : Fuses) (d : Dev) : Tab Nat := (List.range 8).map fun x => (x, coreMask fz d x)
/-- The cores of a die in the order of the core slots: its live cores as they stood when the mapping in force was made (R304). -/
def slotList (d : Dev) (die : Nat) : List Nat :=
  match tget d.pkg.slots die with
  | none => List.range 16
  | some m => (List.range 16).filter (bitAt m)
/-- The cores that slots 0 to u − 1 of a die name: those that hold tiles of the map in force (R304, R307). -/
def coresUsed (d : Dev) (die : Nat) : List Nat := (slotList d die).filter fun c => d.pkg.map.contains (die * 16 + c)
/-- A core was removed in service before the latest cutoff (R32, R34). Log entry 48 DEDUCED. -/
def coreGone (d : Dev) (die c : Nat) : Bool := bitAt (tgetD d.pkg.svc die 0) c && !bitAt (tgetD d.pkg.cut die 0) c
/-- Die-to-die links of the package both of whose dies are live (R21, R44). Log entry 81 DEDUCED. -/
def linksLive (fz : Fuses) (d : Dev) : Nat :=
  total (((List.range 10).filter fun x => linkHere fz x && dieLive d (linkDies x).1 && dieLive d (linkDies x).2).map fun x => 2 ^ x)
/-- Links that end at a die, as a mask (R21). -/
def linksOf (die : Nat) : Nat := total (((List.range 10).filter fun x => (linkDies x).1 == die || (linkDies x).2 == die).map fun x => 2 ^ x)
/-- The live cores have changed: the map changes at the next boundary whose cutoff is still to come (R32). -/
def mapDirty (d : Dev) : Dev := { d with pkg := { d.pkg with dirty := true } }

/-! ### Twins -/

/-- The twin unit changed. -/
def modTwin (d : Dev) (f : TwinDev → TwinDev) : Dev := { d with twin := f d.twin }
/-- A role change: it counts and signals PF vector 57 (R487, R506). -/
def setRole (d : Dev) (r : Role) : Dev :=
  if d.twin.role = r then d else irq (cnt (modTwin d fun t => { t with prev := t.role, role := r }) 0x300034) 0 57
/-- The package stops: queries end FENCED, nothing is released (R487, R496, R498). Log entry 65 DEDUCED. -/
def goQuarantine (d : Dev) : Dev :=
  let d := endQueries d ((liveQueries d).map (·.1)) 0x303 0
  setRole (dropFrames d (fun f => f.order != 3 && f.order != 4) 0x303 0) .quarantined
/-- The package is fenced (R498). -/
def quarantine (d : Dev) : Dev := assertLive (goQuarantine d) 0x058 0 0xD8 0
/-- The package leaves its pair and is DETACHED: it sends no result frames, and replies that wait carry TWIN_MISMATCH (R487, R493). Log entry 65 DEDUCED. -/
def detachRole (d : Dev) : Dev :=
  clearLive (modTwin (setRole (dropFrames d (fun f => f.order != 3 && f.order != 4) 0x302 0) .detached) fun x =>
    { x with shadow := false, shadowFrom := none, witGen := none, arbFrom := none }) 0x058 0 0xD8 0
/-- SAFE_N is high (R470, R537). Log entry 84 DESIGN CHOICE. -/
def safeN (d : Dev) : Bool := d.pin.vddIo && d.pin.resetN && !d.pin.trip && d.pin.firstTurn && !d.wdn.safe.on
/-- TWIN_DOWN_OUT_N is high (R538). Log entry 84 DESIGN CHOICE. -/
def twinDownOut (d : Dev) : Bool :=
  d.pin.vddIo && d.pin.resetN && !d.wdn.safe.on && !d.pin.trip && d.pin.ready &&
    (match d.twin.role with
      | .attaching => true
      | .lead => true
      | .follow => true
      | .solo => true
      | .arbitrating => true
      | _ => false)
/-- THERMTRIP_N is high (R548). Log entry 84 DESIGN CHOICE. -/
def thermTripN (d : Dev) : Bool := d.pin.vddIo && !d.pin.trip

/-! ### Fencing -/

/-- Every directory entry without the caches of a die (R430, R502). -/
def dropCaches (d : Dev) (die : Nat) : Dev :=
  let mine := fun c : Nat => c / 4 == die
  let fix := fun (_ : Nat) (r : DirRec) =>
    { r with holders := r.holders.filter fun c => !mine c, modified := r.modified.filter fun c => !mine c, waiting := r.waiting.filter fun w => !mine w.1,
             busy := r.busy.map fun b => { b with rest := b.rest.filter fun c => !mine c } }
  { d with ctc := { d.ctc with caches := tfilter (fun k _ => !mine k) d.ctc.caches, dirs := tmap fix d.ctc.dirs, pendAns := d.ctc.pendAns.filter fun p => !mine p.1 } }
/-- What fencing a die does at the decision, roles apart (R502); its links carry no traffic from then on (R44). -/
def fenceDie (d : Dev) (die : Nat) : Dev :=
  if !dieLive d die then d else
  let d := modTwin d fun t => { t with dieGen := tput t.dieGen die (tgetD t.dieGen die 0 + 1), dieState := tput t.dieState die 1 }
  let d := dropCaches { d with eng := { d.eng with transit := d.eng.transit.filter fun x => x.toDie != die } } die
  let c0 := ((liveQueries d).filter fun q => q.2.cmd.cls == 0 && q.2.die == die).map (·.1)
  let d := endQueries d c0 0x301 4
  let d := { d with pin := { d.pin with linkUp := d.pin.linkUp - (d.pin.linkUp &&& linksOf die) } }
  mapDirty { d with pkg := { d.pkg with live := d.pkg.live - 2 ^ die } }

/-! ### Package reset (R554) -/

/-- The device after a package reset: everything as at reset but the flash, the pins' levels, telemetry, the latch of THERMTRIP_N, the test
port, the record ring of the warden, host memory (the snapshots in it), and the model's own counters. Log entry 31 DEDUCED. -/
def packageReset (fz : Fuses) (d : Dev) : Dev :=
  let z := Dev.reset
  { z with
    regs := resetRegs fz,
    wdn := { z.wdn with ring := d.wdn.ring },
    pkg := { z.pkg with live := 2 ^ variantDies fz.variant - 1 },
    fab := { z.fab with boots := d.fab.boots + 1, witness := d.fab.witness },
    pin := { z.pin with
      vddIo := d.pin.vddIo, pwrGood := d.pin.pwrGood, resetN := d.pin.resetN, trip := d.pin.trip,
      smbAddr := d.pin.smbAddr, flash := d.pin.flash, tapIr := d.pin.tapIr, boundary := d.pin.boundary, drive := d.pin.drive },
    host := { z.host with snaps := d.host.snaps },
    mon := { z.mon with lockout := d.mon.lockout, fails := d.mon.fails },
    free := d.free, out := d.out }

end Sys2Proof.Machine
end

