-- ==== Sys2Proof/Machine/Fabric.lean ====
section
/-! DEFINITION. The fabric (R507 to R518): ports, Iaquel frames, channels, discovery, ids and heartbeats. -/
namespace Sys2Proof.Machine

/-- The fabric unit changed. -/
def modFab (d : Dev) (f : FabDev → FabDev) : Dev := { d with fab := f d.fab }
/-- The part code of a variant (R44). -/
def partCode : Variant → Nat
  | .kv820 => 0x0820
  | .kv840 => 0x0840
  | .kv880 => 0x0880
/-- Fabric port `p` is active: enabled and its link up (R508). -/
def fabActive (d : Dev) (p : Nat) : Bool := decide (p < 4) && bitAt (rget d 0x400008) (8 * p) && bitAt d.fab.up p
/-- The active ports as a mask. -/
def activeMask (d : Dev) : Nat := total ((List.range 4).map fun p => b2n (fabActive d p) * 2 ^ p)
/-- The source field of frames: the id, or 0xFF while unassigned (R509). -/
def fabSrc (d : Dev) : Nat := if d.fab.state = .assigned then d.fab.id else 0xff
/-- A frame from its type, channel, destination, numbers and payload (R509). -/
def fabFrame (d : Dev) (ty chan dst seq ack : Nat) (syn : Bool) (payload : Bytes) : Bytes :=
  let b := leBytes 1 (1 + 16 * ty) ++ leBytes 1 chan ++ leBytes 1 (fabSrc d) ++ leBytes 1 dst ++ leBytes 4 seq ++ leBytes 4 ack ++
    leBytes 2 payload.length ++ leBytes 1 (b2n syn) ++ zeros 1 ++ leBytes 4 ((d.fab.cfg.map (·.gen)).getD 0) ++ zeros 4 ++ payload
  b ++ leBytes 4 (crc32c b)
/-- The group address (R533). -/
def groupMac (d : Dev) : Nat := rget d 0x400060 + 2 ^ 32 * bits (rget d 0x400064) 15 0
/-- A broadcast type leaves on every active port (R513). -/
def fabAll (d : Dev) (f : Bytes) : Dev :=
  (List.range 4).foldl (fun d p => if fabActive d p then send d (.fabric p (groupMac d) f) else d) d
/-- The common ports with a peer, ascending (R508). -/
def commonPorts (d : Dev) (id : Nat) : List Nat :=
  (List.range 4).filter fun p => fabActive d p && bitAt (((tget d.fab.peers id).map (·.ports)).getD 0) p
/-- A frame to one package leaves on the port that its id chooses among the common ports; with none it does not leave (R513). -/
def fabTo (d : Dev) (id : Nat) (f : Bytes) : Dev :=
  let l := commonPorts d id
  match l[id % l.length]? with
  | none => d
  | some p => send d (.fabric p (((tget d.fab.peers id).map (·.mac)).getD 0) f)

/-! ### Channels (R511) -/

/-- Key of a channel towards a peer. -/
def chanKey (id ch : Nat) : Nat := id * 4 + ch
/-- A channel towards a peer. -/
def chanOf (d : Dev) (id ch : Nat) : ChanRec := tgetD d.fab.chans (chanKey id ch) default
/-- A channel changed. -/
def modChan (d : Dev) (id ch : Nat) (f : ChanRec → ChanRec) : Dev :=
  modFab d fun x => { x with chans := tput x.chans (chanKey id ch) (f (tgetD x.chans (chanKey id ch) default)) }
/-- One payload sent as the next DATA frame; the first frame of a channel carries syn. -/
def dataOut (d : Dev) (id ch : Nat) (payload : Bytes) : Dev :=
  let c := chanOf d id ch
  let d := fabTo d id (fabFrame d 3 ch id c.next c.expect (!c.started) payload)
  modChan d id ch fun c => { c with next := (c.next + 1) % 2 ^ 32, started := true, unacked := c.unacked ++ [(c.next, payload, 0)] }
/-- A payload handed to a channel: sent while the window of 64 has room, else it waits. -/
def dataSend (d : Dev) (id ch : Nat) (payload : Bytes) : Dev :=
  let c := chanOf d id ch
  if c.unacked.length < 64 && c.queue.isEmpty then dataOut d id ch payload else modChan d id ch fun c => { c with queue := c.queue ++ [payload] }
/-- Waiting payloads go out as the window opens. -/
def drainQueue (d : Dev) (id ch : Nat) : Dev :=
  let c := chanOf d id ch
  let n := 64 - c.unacked.length
  (c.queue.take n).foldl (fun d b => dataOut d id ch b) (modChan d id ch fun c => { c with queue := c.queue.drop n })
/-- An acknowledgement: the next number expected by the peer. -/
def takeAck (d : Dev) (id ch n : Nat) : Dev :=
  let c := chanOf d id ch
  let keep := c.unacked.filter fun u => !(let k := (n + 2 ^ 32 - u.1) % 2 ^ 32; decide (1 ≤ k) && decide (k ≤ 64))
  if keep.length = c.unacked.length then d else
  let d := modChan d id ch fun c => { c with unacked := keep }
  let d := if ch = 2 then modFab d fun x => { x with mirrors := x.mirrors.map fun m =>
      { m with sent := m.sent.filter fun s => !(s.1 == id && (let k := (n + 2 ^ 32 - s.2.2) % 2 ^ 32; decide (1 ≤ k) && decide (k ≤ 2 ^ 31))) } } else d
  drainQueue d id ch
/-- Every unacknowledged frame sent again, oldest first. -/
def resendAll (d : Dev) (id ch : Nat) : Dev :=
  let c := chanOf d id ch
  (c.unacked.zipIdx).foldl (fun d u => fabTo d id (fabFrame d 3 ch id u.1.1 c.expect (u.2 == 0 && u.1.1 == 0) u.1.2.1)) d
/-- DATA_RESEND_TIMEOUT: every unacknowledged frame again; each run of 8 resends of one frame raises FAB_RETX (R511). -/
def fxResend (d : Dev) (id ch : Nat) : Dev :=
  let c := chanOf d id ch
  if c.unacked.isEmpty then d else
  let d := modChan (resendAll d id ch) id ch fun c => { c with unacked := c.unacked.map fun u => (u.1, u.2.1, u.2.2 + 1) }
  let runs := ((chanOf d id ch).unacked.filter fun u => u.2.2 % 8 == 0).length
  (List.range runs).foldl (fun d _ => raise d 0x067 0 0xF0 id) (cnt d 0x400090 runs)
/-- The channels towards a peer are discarded. -/
def dropChans (d : Dev) (id : Nat) : Dev := modFab d fun x => { x with chans := tfilter (fun k _ => k / 4 != id) x.chans }

/-! ### Frames in -/

/-- Fields of a frame. -/
def fabTy (f : FabFrame) : Nat := bits (fld f.body 0 1) 7 4
/-- Source field. -/
def fabFrom (f : FabFrame) : Nat := fld f.body 2 1
/-- Payload. -/
def fabPayload (f : FabFrame) : Bytes := slice f.body 24 (fld f.body 12 2)
/-- The frame is dropped and counted: version, length, CRC, type, or a peer's id from another address (R509, R510, R512). -/
def fabBad (d : Dev) (f : FabFrame) : Bool :=
  let n := fld f.body 12 2
  bits (fld f.body 0 1) 3 0 != 1 || decide (n > 9144) || f.body.length != 28 + n || crc32c (f.body.take (24 + n)) != fld f.body (24 + n) 4 || fabTy f < 1 || fabTy f > 6 ||
  ((tget d.fab.peers (fabFrom f)).map fun p => p.alive && p.mac != f.mac).getD false
/-- The package listens: joined, not in replay, the port active. -/
def fabOpen (d : Dev) (f : FabFrame) : Bool := fabActive d f.port && d.fab.state != .unjoined && !d.ldg.replay
/-- A frame from a known peer has been accepted: it was heard in this turn (R516). -/
def heardFrom (d : Dev) (id : Nat) : Dev := modFab d fun x => { x with peers := tmod x.peers id fun p => { p with heard := d.time.turn } }
/-- Taking a frame: dropped and counted, or handled (R512). -/
def fabIn (d : Dev) (f : FabFrame) (t : Nat) (k : Dev → Dev) : Dev :=
  if !fabOpen d f then d else if fabBad d f then cnt d 0x400094 else k (heardFrom (atTime d t) (fabFrom f))

/-! ### Discovery (R514, R515) -/

/-- The 64-byte HELLO payload (R514). -/
def helloBytes (fz : Fuses) (d : Dev) : Bytes :=
  let as := d.fab.state == .assigned
  leBytes 8 fz.serial ++ leBytes 2 (partCode fz.variant) ++ leBytes 1 fz.stepLetter ++ leBytes 1 (b2n d.fab.coord + 2 * b2n as + 4 * b2n d.pkg.twin) ++
  leBytes 1 (if as then d.fab.id else 0xff) ++ leBytes 1 (activeMask d) ++ leBytes 2 d.fab.boots ++
  leBytes 8 (if d.twin.role = .lead || d.twin.role = .follow then d.twin.peerSerial else 0) ++ leBytes 4 ((d.fab.cfg.map (·.gen)).getD 0) ++
  fit 32 ((d.fab.cfg.map (·.digest)).getD []) ++ zeros 4
/-- A peer's record from a HELLO or heartbeat payload; a peer that becomes alive is due full mirror blocks (R516, R521). -/
def peerFrom (d : Dev) (mac : Nat) (b : Bytes) : Dev :=
  let id := fld b 12 1
  let was := ((tget d.fab.peers id).map (·.alive)).getD false
  let old := tgetD d.fab.peers id default
  let new := { old with serial := fld b 0 8, mac := mac, ports := bits (fld b 13 1) 3 0, heard := d.time.turn, gen := fld b 24 4,
                        digest := slice b 28 32, alive := true }
  let d := modFab d fun x => { x with peers := tput x.peers id new }
  if was then d else
  clearLive (modFab d fun x => { x with mirrors := x.mirrors.map fun m => if m.needFull.contains id then m else { m with needFull := m.needFull ++ [id] } }) 0x061 0 0xF0 id
/-- Another serial holds the package's id: the id is dropped (R515). -/
def dupId (d : Dev) : Dev := raise (modFab d fun x => { x with state := .conflict, id := 0 }) 0x064 0 0xF0 d.fab.id
/-- What HELLO and heartbeat payloads share: the seen table, into which only a HELLO, of 64 bytes, enters a new serial, other coordinators, a duplicate id, the
peer (R515, R516). -/
def meet (fz : Fuses) (d : Dev) (mac : Nat) (b : Bytes) : Dev :=
  let serial := fld b 0 8; let has := bitAt (fld b 11 1) 1; let id := fld b 12 1
  let seen := d.fab.seen.map fun e => if e.1 = serial then (serial, if has then some id else none) else e
  let d :=
    if !d.fab.coord then d
    else if d.fab.seen.any fun e => e.1 == serial then modFab d fun x => { x with seen := seen }
    else if b.length > 64 then d
    else if d.fab.seen.length < 64 then modFab d fun x => { x with seen := x.seen ++ [(serial, if has then some id else none)] }
    else cnt d 0x400098
  let d := modFab d fun x => { x with assigning := x.assigning.filter fun a => !(a.1 == serial && has && a.2 == id) }
  let others := (d.fab.otherCoord.filter (· != serial)) ++ (if bitAt (fld b 11 1) 0 && serial != fz.serial then [serial] else [])
  let d := modFab d fun x => { x with otherCoord := others }
  let d := setLive d 0x065 0 0xF0 0 (d.fab.coord && !others.isEmpty)
  if has && d.fab.state == .assigned && id == d.fab.id && serial != fz.serial then dupId d
  else if has && decide (id < 64) && serial != fz.serial then peerFrom d mac b else d
/-- HELLO (R514, R515). -/
def fxHello (fz : Fuses) (d : Dev) (f : FabFrame) (t : Nat) : Dev := fabIn d f t fun d => meet fz d f.mac (fabPayload f)
/-- HELLO_TIMER: LEAVE frames still to be sent, or a HELLO (R514, R515). -/
def fxHelloTimer (fz : Fuses) (d : Dev) : Dev :=
  match d.fab.state with
  | .unjoined =>
    if d.fab.leaves = 0 then d else fabAll (modFab d fun x => { x with leaves := x.leaves - 1 }) (fabFrame d 6 0 0xff 0 0 false (leBytes 8 fz.serial))
  | .conflict => fabAll (modFab d fun x => { x with state := .seeking }) (fabFrame d 1 0 0xff 0 0 false (helloBytes fz d))
  | _ => fabAll d (fabFrame d 1 0 0xff 0 0 false (helloBytes fz d))
/-- An id is heard from a serial other than `serial`. -/
def idHeard (d : Dev) (id serial : Nat) : Bool := d.fab.peers.any fun p => p.1 == id && p.2.alive && p.2.serial != serial
/-- The package takes a fabric id (R515). -/
def takeId (d : Dev) (id : Nat) : Dev := irq (modFab d fun x => { x with state := .assigned, id := id }) 0 58
/-- ASSIGN (R515). -/
def fxAssign (fz : Fuses) (d : Dev) (f : FabFrame) (t : Nat) : Dev :=
  fabIn d f t fun d =>
    let b := fabPayload f; let id := fld b 8 1
    if fld b 0 8 ≠ fz.serial || d.fab.state ≠ .seeking || id > 63 then d
    else if idHeard d id fz.serial then cnt d 0x400094 else takeId d id
/-- ASSIGN_TIMER (R515). -/
def fxAssignTimer (d : Dev) : Dev :=
  if d.fab.state = .unjoined then d else
  d.fab.assigning.foldl (fun d a => fabAll d (fabFrame d 2 0 0xff 0 0 false (leBytes 8 a.1 ++ leBytes 1 a.2 ++ zeros 7))) d
/-- FABRIC_JOIN (R515). -/
def fxJoin (d : Dev) (c : Cmd) : Dev :=
  if c.block.length ≠ 4 || fld c.block 0 1 > 1 || !allZero (slice c.block 1 3) then answer d c stBadRange 0
  else if d.fab.state ≠ .unjoined || d.ldg.replay then answer d c stBadState 0
  else ok (modFab d fun x => { x with state := .seeking, coord := bitAt (fld c.block 0 1) 0, leaves := 0 }) c 0xffffffff
/-- FABRIC_ASSIGN (R515). Log entry 77 DEDUCED. -/
def fxFabricAssign (fz : Fuses) (d : Dev) (c : Cmd) : Dev :=
  let b := c.block; let serial := fld b 0 8; let id := fld b 8 1
  let self := serial == fz.serial
  let used := idHeard d id serial || (d.fab.seen.any fun e => e.1 != serial && e.2 == some id) || (d.fab.assigning.any fun a => a.1 != serial && a.2 == id) ||
    (d.fab.state == .assigned && d.fab.id == id && !self)
  if b.length ≠ 12 || id > 63 || !allZero (slice b 9 3) then answer d c stBadRange 0
  else if !d.fab.coord || d.fab.state = .unjoined || !d.fab.otherCoord.isEmpty || !(self || d.fab.seen.any fun e => e.1 == serial) || used then answer d c stBadState 0
  else if self then ok (takeId d id) c
  else ok (modFab d fun x => { x with assigning := x.assigning.filter (fun a => a.1 != serial) ++ [(serial, id)] }) c
/-- FABRIC_LEAVE (R515): the first of three LEAVE frames leaves at once; what was learnt of the fabric is forgotten. Log entry 77 DEDUCED. -/
def fxFabricLeave (fz : Fuses) (d : Dev) (c : Cmd) : Dev :=
  if d.fab.state = .unjoined then answer d c stBadState 0 else
  let d := fabAll d (fabFrame d 6 0 0xff 0 0 false (leBytes 8 fz.serial))
  let d := d.fab.peers.foldl (fun d p => clearLive (clearLive d 0x061 0 0xF0 p.1) 0x062 0 0xF0 p.1) (clearLive d 0x065 0 0xF0 0)
  ok (modFab d fun x => { x with state := .unjoined, coord := false, chans := [], peers := [], seen := [], assigning := [], otherCoord := [], id := 0, leaves := 2 }) c
/-- LEAVE (R510): a coordinator that leaves is no longer heard as one (R515). Log entry 77 DEDUCED. -/
def fxLeave (d : Dev) (f : FabFrame) : Dev :=
  fabIn d f d.time.now fun d =>
    let others := d.fab.otherCoord.filter (· != fld (fabPayload f) 0 8)
    setLive (modFab d fun x => { x with otherCoord := others }) 0x065 0 0xF0 0 (d.fab.coord && !others.isEmpty)

/-! ### Heartbeats (R516, R517) -/

/-- FABRIC_HEARTBEAT_SEND (R516). -/
def fxHbSend (fz : Fuses) (d : Dev) : Dev :=
  if d.fab.state ≠ .assigned || d.time.turn % 1000 ≠ 0 || !running d then d else
  fabAll d (fabFrame d 5 0 0xff 0 0 false (helloBytes fz d ++ leBytes 6 d.time.turn ++ leBytes 1 (roleCode d) ++ zeros 1 ++ leBytes 2 d.twin.gen ++ zeros 2 ++
    leBytes 4 ((d.fab.staged.map (·.gen)).getD 0)))
/-- HEARTBEAT (R516, R517): the sender's configuration compared with the package's own. -/
def fxFabHeartbeat (fz : Fuses) (d : Dev) (f : FabFrame) (t : Nat) : Dev :=
  fabIn d f t fun d =>
    let b := fabPayload f; let id := fld b 12 1
    let d := meet fz d f.mac b
    if (tget d.fab.peers id).isNone || fld b 0 8 = fz.serial then d else
    let diff := fld b 24 4 != (d.fab.cfg.map (·.gen)).getD 0 || slice b 28 32 != fit 32 ((d.fab.cfg.map (·.digest)).getD [])
    setLive (modFab d fun x => { x with peers := tmod x.peers id fun p => { p with differs := diff } }) 0x062 0 0xF0 id diff
/-- ACK (R511). -/
def fxFabAck (d : Dev) (f : FabFrame) (t : Nat) : Dev :=
  fabIn d f t fun d =>
    if fld f.body 3 1 ≠ d.fab.id || d.fab.state ≠ .assigned then d else takeAck d (fabFrom f) (bits (fld f.body 1 1) 2 0) (fld f.body 8 4)
/-- PEER_LOST (R516, R523): no frame for 3,000 turns; channels go with what waits for their acknowledgements, mirrors from the peer are stale and blind-filled.
Log entry 77 DEDUCED. -/
def fxPeerLost (d : Dev) (id : Nat) : Dev :=
  match tget d.fab.peers id with
  | none => d
  | some p =>
    if !p.alive || d.time.turn < p.heard + 3000 then d else
    let d := assertLive (dropChans (modFab d fun x => { x with peers := tmod x.peers id fun p => { p with alive := false } }) id) 0x061 0 0xF0 id
    let hit := d.fab.mirrors.filter fun m => m.srcId == id && (pairIds d).contains m.subId
    hit.foldl (fun d m =>
      let d := assertLive d 0x066 0 0xF0 m.localMap
      modMap d m.localMap fun r => { r with events := r.events ++ [(4, .blind 0 r.boxMin r.boxMax)] })
      (modFab d fun x => { x with mirrors := x.mirrors.map fun m =>
        let m := { m with sent := m.sent.filter fun s => s.1 != id }
        if m.srcId = id then { m with stale := true, held := [] } else m })
/-- The port that a peer's id chooses among the common ports (R513). -/
def portPick (d : Dev) (id : Nat) : Option Nat := let l := commonPorts d id; l[id % l.length]?
/-- The active ports have changed from those of `old`: channels whose port changes send their unacknowledged frames again (R513). Log entry 77 DEDUCED. -/
def repick (old d : Dev) : Dev :=
  d.fab.chans.foldl (fun d c => if portPick old (c.1 / 4) = portPick d (c.1 / 4) then d else resendAll d (c.1 / 4) (c.1 % 4)) d
/-- FABRIC_PORT_LINK (R508, R513). Log entry 85 DESIGN CHOICE. -/
def fxFabLink (d : Dev) (port : Nat) (up : Bool) : Dev :=
  if port ≥ 4 then d else
  let old := d
  let m := d.fab.up - (if bitAt d.fab.up port then 2 ^ port else 0)
  let d := modFab d fun x => { x with up := if up then m + 2 ^ port else m }
  repick old (setLive d 0x060 (port / 2) (0xD0 + port) port (!up && bitAt (rget d 0x400008) (8 * port)))

/-- FABRIC_JOIN. -/
def execFabricJoin (c : Cmd) (s : State) : Host.Outcome State Fault Refusal := onDev s fun d => pfOnly d c fxJoin
/-- FABRIC_ASSIGN. -/
def execFabricAssign (c : Cmd) (s : State) : Host.Outcome State Fault Refusal := onFz s fun fz d => pfOnly d c (fxFabricAssign fz)
/-- FABRIC_LEAVE. -/
def execFabricLeave (c : Cmd) (s : State) : Host.Outcome State Fault Refusal := onFz s fun fz d => pfOnly d c (fxFabricLeave fz)
/-- HELLO. -/
def execHello (f : FabFrame) (t : Nat) (s : State) : Host.Outcome State Fault Refusal := onFz s fun fz d => fxHello fz d f t
/-- HELLO_TIMER. -/
def execHelloTimer (s : State) : Host.Outcome State Fault Refusal := onFz s fxHelloTimer
/-- ASSIGN. -/
def execAssign (f : FabFrame) (t : Nat) (s : State) : Host.Outcome State Fault Refusal := onFz s fun fz d => fxAssign fz d f t
/-- ASSIGN_TIMER. -/
def execAssignTimer (s : State) : Host.Outcome State Fault Refusal := onDev s fxAssignTimer
/-- ACK. -/
def execAck (f : FabFrame) (t : Nat) (s : State) : Host.Outcome State Fault Refusal := onDev s fun d => fxFabAck d f t
/-- DATA_RESEND_TIMEOUT. -/
def execDataResendTimeout (peer chan : Nat) (s : State) : Host.Outcome State Fault Refusal := onDev s fun d => fxResend d peer chan
/-- HEARTBEAT. -/
def execHeartbeat (f : FabFrame) (t : Nat) (s : State) : Host.Outcome State Fault Refusal := onFz s fun fz d => fxFabHeartbeat fz d f t
/-- FABRIC_HEARTBEAT_SEND. -/
def execFabricHeartbeatSend (s : State) : Host.Outcome State Fault Refusal := onFz s fxHbSend
/-- LEAVE. -/
def execLeave (f : FabFrame) (s : State) : Host.Outcome State Fault Refusal := onDev s fun d => fxLeave d f
/-- PEER_LOST. -/
def execPeerLost (peer : Nat) (s : State) : Host.Outcome State Fault Refusal := onDev s fun d => fxPeerLost d peer
/-- FABRIC_PORT_LINK. -/
def execFabricPortLink (port : Nat) (up : Bool) (s : State) : Host.Outcome State Fault Refusal := onDev s fun d => fxFabLink d port up

end Sys2Proof.Machine
end

