-- ==== Sys2Proof/Machine/Warden.lean ====
section
/-! DEFINITION. The warden (R449 to R477): classifying messages, reactions, records, the safe state and its notices, injection. -/
namespace Sys2Proof.Machine

/-- The warden changed. -/
def modWdn (d : Dev) (f : WdnDev → WdnDev) : Dev := { d with wdn := f d.wdn }
/-- WDN_SRC_CFG0 of a source. -/
def cfg0 (d : Dev) (s : Nat) : Nat := rget d (0x201000 + 8 * s)
/-- WDN_SRC_CFG1 of a source. -/
def cfg1 (d : Dev) (s : Nat) : Nat := rget d (0x201004 + 8 * s)
/-- Event reactions of a source. -/
def evtReact (d : Dev) (s : Nat) : Nat := bits (cfg0 d s) 6 0
/-- Severe reactions of a source. -/
def sevReact (d : Dev) (s : Nat) : Nat := bits (cfg0 d s) 22 16
/-- A source is privileged (R456). -/
def isPriv (s : Nat) : Bool := decide (s < 16)
/-- The core that an origin names (R451). -/
def originCore (o : Nat) : Nat := if o < 0x80 then bits o 6 3 else o % 16
/-- The instance a message counts on, by the source's scope (R449). -/
def instKey (d : Dev) (m : WMsg) : Nat :=
  m.src * 128 + (match bits (cfg0 d m.src) 15 14 with
    | 0 => 0
    | 1 => m.die * 16
    | _ => m.die * 16 + originCore m.origin)
/-- The held reactions in force of an instance. -/
def heldReact (d : Dev) (s : Nat) (i : WInst) : Nat :=
  if i.state = 0 then 0 else if i.state = 1 then evtReact d s else evtReact d s ||| sevReact d s
/-- Some instance holds reaction bit `b`. -/
def anyHeld (d : Dev) (b : Nat) : Bool := d.wdn.inst.any fun i => bitAt (heldReact d (i.1 / 128) i.2) b
/-- FAULT_N is high: the package is ready, no F is held, and the safe state is not in force (R454, R470, R537). Log entry 84 DESIGN CHOICE. -/
def faultN (d : Dev) : Bool := d.pin.vddIo && d.pin.resetN && !d.pin.trip && d.pin.ready && !anyHeld d 4 && !d.wdn.safe.on
/-- The 16 bytes of a message (R450). -/
def msgBytes (m : WMsg) : Bytes :=
  leBytes 2 (m.src + 512 * m.die + 4096 * m.kind) ++ leBytes 1 m.origin ++ zeros 1 ++ leBytes 4 m.detail ++ leBytes 8 m.ts

/-! ### Notices (R472 to R475) -/

/-- The payload of a SAFE_STATUS frame (R473). -/
def safePayload (d : Dev) (turn : Nat) (heartbeat cleared : Bool) : Bytes :=
  let src := rget d 0x20001C
  let has := bitAt src 31
  let b := leBytes 1 (b2n d.wdn.safe.on + 2 * b2n d.wdn.safe.latched + 4 * b2n heartbeat + 8 * b2n cleared) ++ leBytes 1 (roleCode d) ++
    leBytes 2 (if has then bits src 8 0 + 512 * bits src 11 9 else 0x1ff) ++ leBytes 6 turn ++ zeros 6 ++
    leBytes 8 (if has then rget d 0x200020 + 2 ^ 32 * rget d 0x200024 else 0) ++ leBytes 4 (rget d 0x200018) ++ zeros 12
  b ++ leBytes 8 (crc64 0 b) ++ zeros 16
/-- The address that field port `p` sends with: FLD_MAC_BASE + p (R541). -/
def portMac (d : Dev) (p : Nat) : Nat := (rget d 0x40100C + 2 ^ 32 * bits (rget d 0x401010) 15 0 + p) % 2 ^ 48
/-- Ethernet head of a frame on a field port: destination, source, VLAN tag with priority, EtherType of the field ports (R82, R125, R541). Log entry 87 PRESUMED. -/
def ethHead (d : Dev) (port mac vlan pcp : Nat) : Bytes :=
  beBytes 6 mac ++ beBytes 6 (portMac d port) ++ beBytes 2 0x8100 ++ beBytes 2 (pcp * 8192 + vlan) ++ beBytes 2 (bits (rget d 0x401000) 31 16)
/-- One notice: a SAFE_STATUS frame on each port with a link for each registered VLAN; others are discarded and counted (R472). -/
def notice (d : Dev) (turn ts : Nat) (heartbeat cleared : Bool) : Dev :=
  let n := d.wdn.safe.notices + 1
  let d := modWdn d fun w => { w with safe := { w.safe with notices := n } }
  let mac := rget d 0x20002C + 2 ^ 32 * bits (rget d 0x200030) 15 0
  let body := fieldFrame d 0x23 0x0fff n ts (b2n (!d.wdn.safe.on)) 0 (safePayload d turn heartbeat cleared)
  (List.range 8).foldl (fun d p => (portVlans d p).foldl (fun d v =>
    if bitAt d.fab.fieldUp p then fldCnt (send d (.field p (ethHead d p mac v 7 ++ body))) p 1 else fldCnt d p 4) d) d

/-! ### The safe state -/

/-- The package enters the safe state at `t` (R470 to R472, R477). -/
def enterSafe (d : Dev) (m : WMsg) (t : Nat) : Dev :=
  let latch := isPriv m.src || m.src == 0x010
  if d.wdn.safe.on then modWdn d fun w => { w with safe := { w.safe with latched := w.safe.latched || latch, clrReq := false } } else
  let d := modWdn d fun w => { w with safe := { w.safe with on := true, latched := latch, clrReq := false, decTurn := d.time.turn } }
  let d := rset (rset (rset (cntWrap d 0x200018) 0x20001C (2 ^ 31 + m.origin * 4096 + m.die * 512 + m.src)) 0x200020 t) 0x200024 (t / 2 ^ 32)
  let lost := d.host.egress.filter fun f => f.order != 4
  let d := dropFrames (lost.foldl (fun d f => if f.body.isEmpty then d else fldCnt d f.port 4) d) (fun f => f.order != 4) 0x301 3
  notice d d.time.turn t false false
/-- WDN_SAFE_CLR: ignored while an instance holds S (R476). -/
def fxSafeClr (d : Dev) : Dev :=
  if anyHeld d 5 then stick d 0x200014 1 else modWdn d fun w => { w with safe := { w.safe with clrReq := true } }
/-- The safe state ends at a boundary where nothing holds S and the exit is permitted; its notice carries the decision's turn and time (R473, R476).
Log entry 75 DEDUCED. -/
def fxSafeExit (d : Dev) : Dev :=
  let s := d.wdn.safe
  if !s.on || s.latched || anyHeld d 5 || !(bitAt (rget d 0x200000) 1 || s.clrReq) then d else
  let d := modWdn d fun w => { w with safe := { w.safe with on := false, clrReq := false, stopped := false } }
  notice d s.decTurn (rget d 0x200020 + 2 ^ 32 * rget d 0x200024) false true
/-- A heartbeat notice in a turn that is a multiple of WDN_HB (R475). -/
def fxHeartbeat (d : Dev) (turn : Nat) : Dev :=
  let hb := bits (rget d 0x200028) 15 0
  if hb = 0 || turn % hb ≠ 0 || !running d then d else notice d turn (turnStart d (turn + 1)) true false

/-! ### Reactions (R454, R460 to R462) -/

/-- NMI to the control cores of a die. -/
def nmiDie (d : Dev) (die : Nat) : Dev :=
  { d with ctc := { d.ctc with cores := (List.range 4).foldl (fun t c =>
      tput t (die * 4 + c) { tgetD t (die * 4 + c) default with nmi := true }) d.ctc.cores } }
/-- Removal of a core from service (R34, R460). -/
def removeCore (d : Dev) (die core : Nat) : Dev :=
  let m := tgetD d.pkg.svc die 0
  if bitAt m core then d else mapDirty { d with pkg := { d.pkg with svc := tput d.pkg.svc die (m + 2 ^ core) } }
/-- A fenced die takes its package out of its pair (R487, R503). -/
def fenceRole (d : Dev) (m : WMsg) (t : Nat) : Dev :=
  if !d.pkg.twin then d else
  match d.twin.role with
  | .lead => if d.twin.linkUp then raise (detachRole (twinSend d .handover)) 0x059 0 0xD8 m.die else enterSafe d m t
  | .follow => raise (detachRole (twinSend d .leave)) 0x059 0 0xD8 m.die
  | _ => d
/-- Reaction X of a message's instance (R460). -/
def reactX (d : Dev) (m : WMsg) (t : Nat) : Dev :=
  match bits (cfg0 d m.src) 15 14 with
  | 0 => d
  | 1 => if m.die < 2 then enterSafe d m t else if dieLive d m.die then fenceRole (fenceDie d m.die) m t else d
  | _ => removeCore d m.die (originCore m.origin)
/-- The reactions that an instance's entry into a state brings, `mask` being the set of that state; X acts in a severe instance, and in
an entering one of a die source. -/
def react (fz : Fuses) (d : Dev) (m : WMsg) (t mask : Nat) (severe : Bool) : Dev :=
  let d := if bitAt mask 1 then nmiDie d m.die else d
  let d := if bitAt mask 2 then modWdn d fun w => { w with resets := w.resets ++ [(m.die, m.origin)] } else d
  let d := if bitAt mask 6 && (severe || bits (cfg0 d m.src) 15 14 == 1) then reactX d m t else d
  let d := if bitAt mask 5 then enterSafe d m t else d
  if bitAt mask 3 then packageReset fz d else d
/-- The interrupt of a source whose reactions hold I. -/
def reactI (d : Dev) (s : Nat) : Dev := if bitAt (evtReact d s) 0 || bitAt (sevReact d s) 0 then irq d 0 56 else d

/-! ### Classification and records (R457 to R466) -/

/-- A record changed. -/
def modRec (d : Dev) (s : Nat) (f : WRec → WRec) : Dev := modWdn d fun w => { w with recs := tput w.recs s (f (tgetD w.recs s default)) }
/-- The record of a source takes a message: it opens, or the message merges (R463, R464, R465). Log entry 75 DEDUCED. -/
def recordMsg (d : Dev) (m : WMsg) (live : Bool) : Dev :=
  let r := tgetD d.wdn.recs m.src default
  if r.isOpen then
    modRec d m.src fun r => { r with lastTs := m.ts, merges := min 0xffff (r.merges + 1), merged := true, live := live,
                                     cleared := r.cleared || (m.kind == 2 && !r.isRead) }
  else if m.kind = 2 then d
  else
    let d := modRec d m.src fun _ => { (default : WRec) with msg := m, lastTs := m.ts, live := live, isOpen := true }
    if bitAt (evtReact d m.src) 0 then irq d 0 56 else d
/-- An instance changed. -/
def setInst (d : Dev) (k : Nat) (i : WInst) : Dev := modWdn d fun w => { w with inst := tput w.inst k i }
/-- The count of messages within W of the newest, times newest first (R459). -/
def inWindow (d : Dev) (s : Nat) (l : List Nat) : Nat :=
  match l with
  | [] => 0
  | x :: _ => (l.filter fun y => decide (x ≤ y + bits (cfg1 d s) 31 16 * 1000000)).length
/-- Objects whose condition is present, of the instance of a source that messages of a die count on (R453). -/
def presentObjs (d : Dev) (s die : Nat) : List Nat :=
  if bits (cfg0 d s) 15 14 = 0 then (List.range 8).flatMap fun x => tgetD d.wdn.present (s * 8 + x) [] else tgetD d.wdn.present (s * 8 + die) []
/-- Entries of 16 bytes that the region for warden records holds: 64 MiB (R28, R467). -/
def wdnRingMax : Nat := 4194304
/-- A message appended to the ring; a full ring loses its oldest. Log entry 93 DESIGN CHOICE. -/
def ringPush (w : WdnDev) (m : WMsg) : WdnDev := { w with ring := (w.ring ++ [m]).drop (w.ring.length + 1 - wdnRingMax) }
/-- Classifying one message at `t` (R457, R459, R463, R470); an instance that takes the package to the safe state on its first message raises I once more (R463).
Log entry 75 DEDUCED. -/
def classify (fz : Fuses) (d : Dev) (m : WMsg) (t : Nat) : Dev :=
  let d := modWdn d fun w => ringPush w m
  if (srcRow m.src).isNone then d else
  let k := instKey d m
  let i := tgetD d.wdn.inst k default
  let clear := m.kind == 2
  let live := if clear then !(presentObjs d m.src m.die).isEmpty else i.live || m.kind == 1
  let times := (t :: i.times).take 256
  let n := bits (cfg0 d m.src) 31 24
  let i := { i with times := times, live := live, last := t, origin := if clear then i.origin else m.origin }
  let d := recordMsg (setInst d k i) m live
  if isPriv m.src then (if clear then d else reactI (enterSafe (setInst d k { i with state := 1 }) m t) m.src)
  else
    let severe := fun (d : Dev) =>
      let d := modRec (setInst d k { i with state := 2 }) m.src fun r => { r with severe := true }
      reactI (react fz d m t (sevReact d m.src) true) m.src
    let sev := n != 0 && decide (inWindow d m.src times ≥ n)
    match i.state with
    | 0 =>
      if clear then d else
      let e := evtReact d m.src
      let safe := bitAt e 5 || (bitAt e 6 && bits (cfg0 d m.src) 15 14 == 1 && decide (m.die < 2))
      let d := react fz (setInst d k { i with state := 1 }) m t e false
      let d := if safe then reactI d m.src else d
      if sev then severe d else d
    | 1 => if sev then severe d else d
    | _ => d
/-- Message `a` is forwarded before `b`: those on the dedicated wires first, then the older one, then the lower source (R452). -/
def slotBefore (a b : WMsg) : Bool :=
  if isPriv a.src != isPriv b.src then isPriv a.src else decide (a.ts < b.ts) || (a.ts == b.ts && decide (a.src < b.src))
/-- The message that is forwarded next. -/
def nextMsg : List WMsg → Option WMsg
  | [] => none
  | m :: l => some (l.foldl (fun a b => if slotBefore b a then b else a) m)
/-- Two messages stand in one pending slot of one die warden (R452). Log entry 75 DEDUCED. -/
def sameSlot (a b : WMsg) : Bool := !isPriv a.src && a.src == b.src && a.die == b.die && a.kind == b.kind
/-- One pending slot is classified: as many messages as it carries, with the fields of the first and the time of the last (R452). -/
def classifySlot (fz : Fuses) (d : Dev) (m : WMsg) (t : Nat) : Dev :=
  let same := d.wdn.inbox.filter (sameSlot m)
  if same.length ≤ 1 then classify fz (modWdn d fun w => { w with inbox := w.inbox.erase m }) m t else
  let last := (same.getLast?.map (·.ts)).getD m.ts
  Nat.repeat (fun d => classify fz d { m with ts := last } t) same.length (modWdn d fun w => { w with inbox := w.inbox.filter fun x => !sameSlot m x })
/-- WARDEN_MESSAGE: the oldest slot on its way, or a message from a detector outside the model, is classified (R452, R457). -/
def fxMessage (fz : Fuses) (d : Dev) (m : Option WMsg) (t : Nat) : Dev :=
  let d := atTime d t
  match m with
  | some m => classify fz d m t
  | none => match nextMsg d.wdn.inbox with
    | none => d
    | some m => classifySlot fz d m t
/-- QUIET_EXPIRY (R457): Q has passed since the last message and the condition is not present. Log entry 75 DEDUCED. -/
def fxQuiet (d : Dev) (s die core t : Nat) : Dev :=
  let k := s * 128 + (match bits (cfg0 d s) 15 14 with
    | 0 => 0
    | 1 => die * 16
    | _ => die * 16 + core)
  match tget d.wdn.inst k with
  | none => d
  | some i =>
    if isPriv s || i.live || (i.state ≠ 1 && i.state ≠ 2) || t < i.last + bits (cfg1 d s) 15 0 * 1000000 then d else
    let rec_ := (t :: i.recov).filter fun x => decide (t / 60000000000 < x / 60000000000 + 60)
    let rmax := bits (cfg0 d s) 12 7
    let d := atTime d t
    if rmax ≠ 0 && rec_.length ≥ rmax then reactI (modRec (setInst d k { i with state := 3, recov := rec_ }) s fun r => { r with latched := true }) s
    else setInst d k { i with state := 0, recov := rec_ }
/-- WDN_HEARTBEAT_MISS: two heartbeats missed raise WDN_PATH on the die that noticed (R458). -/
def fxHbMiss (d : Dev) (die origin t : Nat) : Dev := raise (atTime d t) 0x005 die 0xE2 origin
/-- WDN_CFG_CHECK: the CRC of the locked safety configuration is computed again (R456). -/
def fxCfgCheck (d : Dev) (t : Nat) : Dev :=
  if bitAt (rget d 0x200000) 0 && crc32c (wdnCfgBytes d) ≠ rget d 0x200034 then raise (atTime d t) 0x001 0 0xE2 0 else d
/-- One record closed; a condition that is still present opens a new one (R466). -/
def ackSource (d : Dev) (s t : Nat) : Dev :=
  if !(tgetD d.wdn.recs s default).isOpen then d else
  let d := modRec d s fun r => { r with isOpen := false }
  match d.wdn.inst.find? fun i => i.1 / 128 == s && i.2.live with
  | none => d
  | some (k, i) =>
    let die := if bits (cfg0 d s) 15 14 = 0 then (((List.range 8).find? fun x => !(tgetD d.wdn.present (s * 8 + x) []).isEmpty).getD 0) else k % 128 / 16
    recordMsg d { src := s, die := die, kind := 1, origin := i.origin, detail := (presentObjs d s die).headD 0, ts := stamp t } true
/-- Every latched instance of a source back to QUIET (R457). -/
def unlatch (d : Dev) (s : Nat) : Dev :=
  if isPriv s then d else
  modWdn d fun w => { w with inst := tmap (fun k i => if k / 128 = s ∧ i.state = 3 then { i with state := 0, recov := [] } else i) w.inst }
/-- Every open record closed. -/
def ackAll (d : Dev) (t : Nat) : Dev := (d.wdn.recs.map (·.1)).foldl (fun d s => ackSource d s t) d
/-- A write of WDN_ACK (R466). -/
def fxAck (d : Dev) (v t : Nat) : Dev :=
  let d := atTime d t
  let d := if bitAt v 30 then unlatch d (bits v 8 0) else d
  if bitAt v 31 then ackAll d t else ackSource d (bits v 8 0) t
/-- A write of WDN_INJECT (R468). -/
def fxInject (d : Dev) (v t : Nat) : Dev :=
  let s := bits v 8 0
  if isPriv s && bitAt (rget d 0x200000) 0 then stick d 0x200014 2
  else post (atTime d t) { src := s, die := bits v 11 9, kind := 3, origin := bits v 19 12, detail := 0, ts := t }
/-- REC_MSG0_READ: the selected record counts as read (R465). -/
def fxRecRead (d : Dev) : Dev :=
  let s := bits (rget d 0x200040) 8 0
  if (tget d.wdn.recs s).isNone then d else modRec d s fun r => { r with isRead := true }

/-- WARDEN_MESSAGE. -/
def execWardenMessage (m : Option WMsg) (t : Nat) (s : State) : Host.Outcome State Fault Refusal := onFz s fun fz d => fxMessage fz d m t
/-- QUIET_EXPIRY. -/
def execQuietExpiry (source die core t : Nat) (s : State) : Host.Outcome State Fault Refusal := onDev s fun d => fxQuiet d source die core t
/-- WDN_HEARTBEAT_MISS. -/
def execWdnHeartbeatMiss (die from_ t : Nat) (s : State) : Host.Outcome State Fault Refusal := onDev s fun d => fxHbMiss d die from_ t
/-- WDN_CFG_CHECK. -/
def execWdnCfgCheck (t : Nat) (s : State) : Host.Outcome State Fault Refusal := onDev s fun d => fxCfgCheck d t
/-- WDN_LOCK. -/
def execWdnLock (s : State) : Host.Outcome State Fault Refusal := onDev s lockWdn
/-- WDN_ACK. -/
def execWdnAck (v t : Nat) (s : State) : Host.Outcome State Fault Refusal := onDev s fun d => fxAck d v t
/-- WDN_ACK with all. -/
def execWdnAckAll (t : Nat) (s : State) : Host.Outcome State Fault Refusal := onDev s fun d => ackAll (atTime d t) t
/-- WDN_ACK with unlatch: the record of the source is closed as well. -/
def execWdnUnlatch (source t : Nat) (s : State) : Host.Outcome State Fault Refusal := onDev s fun d => ackSource (unlatch (atTime d t) source) source t
/-- WDN_INJECT. -/
def execWdnInject (v t : Nat) (s : State) : Host.Outcome State Fault Refusal := onDev s fun d => fxInject d v t
/-- WDN_SAFE_CLR. -/
def execWdnSafeClr (s : State) : Host.Outcome State Fault Refusal := onDev s fxSafeClr
/-- SAFE_STATE_EXIT. -/
def execSafeStateExit (s : State) : Host.Outcome State Fault Refusal := onDev s fxSafeExit
/-- SAFE_HEARTBEAT. -/
def execSafeHeartbeat (turn : Nat) (s : State) : Host.Outcome State Fault Refusal := onDev s fun d => fxHeartbeat d turn
/-- REC_MSG0_READ. -/
def execRecMsg0Read (s : State) : Host.Outcome State Fault Refusal := onDev s fxRecRead

end Sys2Proof.Machine
end

