-- ==== Sys2Proof/Machine/Twins.lean ====
section
/-! DEFINITION. Twins (R484 to R506): the link, ledger agreement, digest comparison, promotion, arbitration, attaching and detaching, and a
fenced die's way back. -/
namespace Sys2Proof.Machine

/-! ### Generations and roles (R487, R494 to R498) -/

/-- Generation `a` is newer than `b` (R497). -/
def newerGen (a b : Nat) : Bool := let k := (a + 65536 - b % 65536) % 65536; decide (1 ≤ k) && decide (k ≤ 32767)
/-- The pair generation is set; result frames that still wait carry it (R494, R497). -/
def setGen (d : Dev) (g : Nat) : Dev :=
  let d := modTwin d fun t => { t with gen := g % 65536 }
  { d with host := { d.host with egress := d.host.egress.map fun f => if f.order ≤ 2 then { f with body := restamp f.body (fld f.body 20 1) (g % 65536) } else f } }
/-- The witness of TWIN_CONFIG is a fabric peer. -/
def fabWitness (d : Dev) : Bool := bitAt (rget d 0x300000) 0
/-- The preferred role is follow. -/
def prefFollow (d : Dev) : Bool := bitAt (rget d 0x300000) 14
/-- A request to the witness for generation `g`, the package having held role `prev` (0 lead, 1 follow, 2 detached) (R496, R525). -/
def askWitness (fz : Fuses) (d : Dev) (g prev : Nat) : Dev :=
  if fabWitness d then
    dataSend d (bits (rget d 0x300000) 13 8) 1 (leBytes 1 1 ++ leBytes 1 prev ++ leBytes 2 g ++ leBytes 8 fz.serial ++ leBytes 8 d.twin.peerSerial)
  else irq d 0 57
/-- The attach in progress ends: the joiner's reply, and TWIN_ATTACH_FAIL unless it is OK (R500). -/
def endAttach (d : Dev) (st det : Nat) : Dev :=
  let d := match d.twin.attachCmd with
    | some (c, adm) => reply d c st det none adm 0 0 0
    | none => d
  let d := modTwin d fun t =>
    { t with attach := 0, attachTurn := 0, attachCmd := none, caught := false, snapTurn := none, tailNext := none, versions := [], joinDigest := none, peerDigest := none }
  if st = 0 then d else raise d 0x05A 0 0xD8 0
/-- The joiner's attach fails: it is DETACHED, without the lead's ledgers and inherited queries (R487, R500). Log entry 24 DEDUCED. -/
def failAttach (d : Dev) (st : Nat) : Dev :=
  let d := { d with q := { d.q with recs := tfilter (fun _ q => !q.foreign) d.q.recs } }
  let d := if d.twin.tailNext.isSome then { d with time := { d.time with started := false }, ldg := { d.ldg with current := none } } else d
  endAttach (modTwin (setRole d .detached) fun x => { x with tail := [], seals := [] }) st 0
/-- A link loss or a role change ends an attach in progress, and the lead tells the joiner (R500). -/
def abortAttach (d : Dev) : Dev :=
  if d.twin.attach = 0 then d
  else if d.twin.role = .attaching || d.twin.attachCmd.isSome then failAttach d stBadState else endAttach (twinSend d (.attachFail 1)) stBadState 0
/-- Runs of chunks from host queues that the new lead's ledgers leave unfinished are cut (R61). Log entry 82 DEDUCED. -/
def cutHostRuns (d : Dev) : Dev :=
  { d with ldg := { d.ldg with cuts := d.ldg.cuts ++ (d.ldg.runs.filterMap fun r => (r.2.head?).bind fun e => if e.source / 8192 = 1 then some (e.source, e.ctr) else none) } }
/-- The package takes the lead alone with generation g + 1 (R494, R497). -/
def takeLead (d : Dev) : Dev := letGo (setGen (modTwin (setRole d .solo) fun t => { t with shadowFrom := none }) (d.twin.gen + 1))
/-- Promotion of a follow without a witness (R494). -/
def promote (fz : Fuses) (d : Dev) : Dev :=
  let g := (d.twin.gen + 1) % 65536
  let d := cutHostRuns (takeLead d)
  if fabWitness d then askWitness fz d g 1 else d
/-- A lead goes on alone: held frames leave (R487, R493). -/
def goSolo (d : Dev) : Dev := letGo (setRole d .solo)
/-- TWIN_DOWN_IN_N reads low on two samples (R485, R487, R494). -/
def fxDownIn (fz : Fuses) (d : Dev) (low : Bool) (t : Nat) : Dev :=
  if !low || !d.pkg.twin then d else
  let d := assertLive (modTwin (atTime d t) fun x => { x with downIn := true }) 0x051 1 0xD8 0
  match d.twin.role with
  | .follow => promote fz d
  | .lead => goSolo d
  | _ => abortAttach d
/-- TWIN_DOWN_IN_N is high again (R485). -/
def fxDownRelease (d : Dev) : Dev := clearLive (modTwin d fun x => { x with downIn := false }) 0x051 1 0xD8 0
/-- HANDOVER from the lead (R494). -/
def fxHandover (fz : Fuses) (d : Dev) : Dev := if d.twin.role = .follow then promote fz d else d
/-- LEAVE from the twin (R487). -/
def fxTwinLeave (fz : Fuses) (d : Dev) : Dev :=
  match d.twin.role with
  | .lead => goSolo d
  | .follow => promote fz d
  | _ => abortAttach d
/-- The link is lost (R484, R496): with DOWN high the witness is asked. -/
def fxLinkLost (fz : Fuses) (d : Dev) (t : Nat) : Dev :=
  if !d.pkg.twin || !d.twin.linkUp then d else
  let d := abortAttach (assertLive (modTwin (atTime d t) fun x => { x with linkUp := false }) 0x050 1 0xD8 0)
  let prev := if d.twin.role = .follow then 1 else 0
  if d.twin.downIn || !(d.twin.role == .lead || d.twin.role == .follow) then d else
  let g := (d.twin.gen + 1) % 65536
  let d := modTwin (setRole d .arbitrating) fun x => { x with arbFrom := some d.time.turn, witGen := some (g, prev) }
  let d := if prev = 0 then letGo d else d
  if fabWitness d then askWitness fz d g prev else d
/-- The witness has answered for the pending generation (R496, R498). -/
def witAnswer (d : Dev) (grant : Bool) (g : Nat) : Dev :=
  match d.twin.witGen with
  | none => d
  | some (w, prev) =>
    if w ≠ g then d else
    let d := modTwin d fun x => { x with witGen := none, arbFrom := none }
    match d.twin.role with
    | .arbitrating =>
      if !grant then quarantine d
      else if prev = 1 then cutHostRuns (takeLead d) else takeLead d
    | .detached =>
      if grant then
        let d := takeLead d
        endAttach d 0 d.twin.gen
      else match d.twin.attachCmd with
        | some (c, adm) => reply (modTwin d fun x => { x with attachCmd := none }) c stBadState 0 none adm 0 0 0
        | none => d
    | _ => d
/-- A write of TWN_WIT_ANS (R496, R506). -/
def fxWitAns (d : Dev) (v t : Nat) : Dev := witAnswer (atTime d t) (bitAt v 31) (bits v 15 0)
/-- Two turns without a grant (R496). -/
def fxArbTimeout (d : Dev) : Dev :=
  match d.twin.arbFrom with
  | none => d
  | some s =>
    if d.time.turn < s + 2 then d else
    let d := modTwin d fun x => { x with witGen := none, arbFrom := none }
    match d.twin.role with
    | .arbitrating => goQuarantine (raise d 0x057 0 0xD8 0)
    | .detached => match d.twin.attachCmd with
      | some (c, adm) => reply (modTwin d fun x => { x with attachCmd := none }) c stBadState 0 none adm 0 0 0
      | none => d
    | _ => d

/-! ### Ledger agreement (R488 to R490) -/

/-- The follow takes ledgers from its twin, and a joiner whose check has passed. -/
def follows (d : Dev) : Bool := d.twin.role == .follow || (d.twin.role == .attaching && decide (d.twin.attach ≥ 2))
/-- An entry streamed by the lead (R488). -/
def fxTwinEntry (d : Dev) (turn : Nat) (e : Entry) : Dev :=
  if !follows d then d else modTwin d fun x => { x with tail := tput x.tail turn (tgetD x.tail turn [] ++ [e]) }
/-- A seal of the lead: accepted when the follow's own digest of the ledger is the same; the shadow of its turn is then discarded, else the
seal counts as missing (R488, R489); a joiner keeps the seals of the tail and holds them against the chain as it applies them (R500). Log entry 59 DEDUCED. -/
def fxTwinSeal (d : Dev) (turn digest : Nat) : Dev :=
  if !follows d then d else
  if d.twin.role = .attaching && decide (d.twin.attach ≤ 4) then modTwin d fun x => { x with seals := tput x.seals turn digest } else
  let es := tgetD d.twin.tail turn []
  let prev := (tget d.twin.seals (turn - 1)).getD d.ldg.digest
  let own := fun g => ledgerDigest d turn g false prev (orderEntries es)
  if digest ≠ own false && digest ≠ own true then d else
  let d := modTwin d fun x => { x with seals := tput x.seals turn digest }
  { d with ldg := { d.ldg with opened := tdel d.ldg.opened turn } }

/-! ### Digest comparison (R492, R493) -/

/-- Results of a turn whose digests the twins compare. -/
def ownItems (d : Dev) (turn : Nat) : List EgFrame := d.host.egress.filter fun f => f.waits && !f.equal && f.turn == turn
/-- The digest list of a turn (R492). -/
def digestList (d : Dev) (turn : Nat) : List (Nat × Nat × Nat) := (ownItems d turn).map fun f => (f.polder, f.tag, f.digest)
/-- One mismatch: counted, raised, the agent's committed stop due in the next turn (R492). Log entry 65 DEDUCED. -/
def mismatchOf (d : Dev) (agent : Option Nat) : Dev :=
  let d := raise (cnt d 0x300020) 0x052 0 0xD8 0
  let d := modTwin d fun x => { x with mismatches := d.time.turn :: x.mismatches }
  match agent with
  | none => d
  | some a => modAgent d a fun r => { r with stopDue := some d.time.turn }
/-- One frame changed, by its number. -/
def modFrame (d : Dev) (id : Nat) (f : EgFrame → EgFrame) : Dev :=
  { d with host := { d.host with egress := d.host.egress.map fun x => if x.id = id then f x else x } }
/-- A result with its partner's item: equal, or a mismatch whose frame leaves with VALID 0 (R492). -/
def compareOne (items : List (Nat × Nat × Nat)) (d : Dev) (f : EgFrame) : Dev :=
  if items.contains (f.polder, f.tag, f.digest) then repOut (modFrame d f.id fun x => { x with equal := true, rep := none }) f none
  else
    let v := fld f.body 20 1
    let d := modFrame d f.id fun x => { x with waits := false, rep := none, body := restamp x.body (v - v % 2) (fld x.body 22 2) }
    mismatchOf (repOut d f (some (0x302, 0))) (some f.agent)
/-- The twins have diverged: N mismatches within W turns; the follow leaves, the lead goes on alone (R492). -/
def divergeCheck (d : Dev) : Dev :=
  let n := bits (rget d 0x300000) 31 24
  let recent := d.twin.mismatches.filter fun t => decide (d.time.turn < t + rget d 0x300004)
  if recent.length < n then modTwin d fun x => { x with mismatches := recent } else
  let d := raise (modTwin d fun x => { x with mismatches := [] }) 0x053 0 0xD8 0
  match d.twin.role with
  | .follow => detachRole (twinSend d .leave)
  | .lead => goSolo d
  | _ => d
/-- The partner's list of a turn that has ended compared with the package's own results (R492). -/
def compareTurn (d : Dev) (turn : Nat) : Dev :=
  match tget d.twin.peerLists turn with
  | none => d
  | some items =>
    if d.twin.shadowFrom.isSome || !(d.twin.role == .lead || d.twin.role == .follow) then d else
    let own := ownItems d turn
    let alone := items.filter fun i => !own.any fun f => f.polder == i.1 && f.tag == i.2.1
    let agentOf := fun (i : Nat × Nat × Nat) => (d.q.recs.find? fun q => q.2.cmd.polder == i.1 && q.2.cmd.tag == i.2.1).map fun q => q.2.agent
    let d' := own.foldl (compareOne items) (modTwin d fun x => { x with peerLists := tdel x.peerLists turn })
    divergeCheck (alone.foldl (fun d i => mismatchOf d (agentOf i)) d')
/-- TWIN_DIGEST_LIST (R492): compared at once when the turn has ended here. -/
def fxDigestList (d : Dev) (turn : Nat) (items : List (Nat × Nat × Nat)) : Dev :=
  if !(d.twin.role == .lead || d.twin.role == .follow) then d else
  let d := modTwin d fun x => { x with peerLists := tput x.peerLists turn items }
  if turn < d.time.turn then compareTurn d turn else d
/-- DIGEST_LATE (R493). -/
def fxDigestLate (d : Dev) (turn : Nat) : Dev :=
  if (ownItems d turn).isEmpty || (tget d.twin.peerLists turn).isSome || turn ≥ d.time.turn || !(d.twin.role == .lead || d.twin.role == .follow) then d
  else raise (cnt d 0x300030) 0x055 0 0xD8 0
/-- HELD_FRAME_EXPIRY (R493): frames held two turns past the end of their release turn. -/
def fxHeldExpiry (d : Dev) (turn : Nat) : Dev :=
  if d.time.turn < turn + 3 then d else dropFrames d (fun f => f.waits && !f.equal && f.turn == turn) 0x302 0

/-! ### Attaching (R500) -/

/-- What the joiner and the lead compare (R500 item 1). -/
def attachFacts (fz : Fuses) (d : Dev) : List Nat :=
  [partCode fz.variant, imgContent (actImg d), Config.fwMajor, leNat ((d.fab.cfg.map (·.digest)).getD []), d.pkg.m]
/-- The joiner's check message goes out. -/
def startCheck (fz : Fuses) (d : Dev) (c : Cmd) : Dev :=
  let l := attachFacts fz d
  twinSend (modTwin d fun x => { x with attach := 1, attachCmd := some (c, d.time.turn), caught := false })
    (.attachCheck fz.serial (l.getD 0 0) (l.getD 1 0) (l.getD 2 0) (l.getD 3 0) (l.getD 4 0))
/-- The twin cannot be joined: a package that prefers to lead asks the witness, another is refused (R487). -/
def noLead (fz : Fuses) (d : Dev) (c : Cmd) (adm : Nat) : Dev :=
  if prefFollow d then reply (modTwin d fun x => { x with attach := 0, attachCmd := none }) c stBadState 0 none adm 0 (if adm = d.time.turn then adm else 0) d.ldg.pos
  else
    let g := (d.twin.gen + 1) % 65536
    askWitness fz (modTwin d fun x => { x with attach := 0, attachCmd := some (c, adm), witGen := some (g, 2), arbFrom := some d.time.turn }) g 2
/-- TWIN_ATTACH (R487, R500). -/
def fxTwinAttach (fz : Fuses) (d : Dev) (c : Cmd) : Dev :=
  if !d.pkg.twin || d.twin.attachCmd.isSome then answer d c stBadState 0 else
  let reach := d.twin.linkUp && !d.twin.downIn
  match d.twin.role with
  | .detached => if reach then startCheck fz d c else noLead fz d c d.time.turn
  | .quarantined =>
    let d := setRole d .attaching
    if reach then startCheck fz d c else failAttach (modTwin d fun x => { x with attachCmd := some (c, d.time.turn) }) stBadState
  | _ => answer d c stBadState 0
/-- TWIN_DETACH (R487, R501): it takes effect at the end of the ledger turn. -/
def fxTwinDetach (d : Dev) (c : Cmd) : Dev :=
  if !d.pkg.twin then answer d c stBadState 0 else ok (modTwin d fun x => { x with leaving := true }) c d.twin.gen
/-- The end of the ledger turn of a TWIN_DETACH; one of a DETACHED package ends what a TWIN_ATTACH of it waits for. Log entry 65 DEDUCED. -/
def detachEnd (d : Dev) : Dev :=
  if !d.twin.leaving then d else
  let d := modTwin d fun x => { x with leaving := false }
  match d.twin.role with
  | .detached =>
    let d := modTwin (twinSend d .leave) fun x => { x with witGen := none, arbFrom := none }
    (match d.twin.attachCmd with
    | none => d
    | some (c, adm) => reply (modTwin d fun x => { x with attach := 0, attachCmd := none }) c stBadState 0 none adm 0 0 0)
  | .quarantined => detachRole d
  | .attaching => failAttach (twinSend d .leave) stBadState
  | _ => detachRole (abortAttach (twinSend d .leave))
/-- TWIN_CONFIG (R370). Log entry 65 DEDUCED. -/
def fxTwinConfig (d : Dev) (c : Cmd) : Dev :=
  let b := c.block; let w := fld b 0 1; let id := fld b 1 1; let pref := fld b 2 1; let n := fld b 4 2; let win := fld b 8 4
  if b.length ≠ 12 || w > 1 || id > 63 || pref > 1 || n < 1 || n > 255 || win < 1 || win > 1000000 || fld b 3 1 ≠ 0 || fld b 6 2 ≠ 0 then answer d c stBadRange 0
  else if !d.pkg.twin then answer d c stBadState 0
  else ok (rset (rset d 0x300000 (n * 2 ^ 24 + pref * 2 ^ 14 + id * 2 ^ 8 + w)) 0x300004 win) c
/-- The lead's answer to a check (R500 item 1); the snapshot is named for the start of the turn two ahead (item 2), whose entries so far go to the joiner. Log
entry 24 DEDUCED. -/
def answerCheck (fz : Fuses) (d : Dev) (serial : Nat) (facts : List Nat) : Dev :=
  match d.twin.role with
  | .solo =>
    if facts ≠ attachFacts fz d then raise (twinSend d (.attachFail 0)) 0x05A 0 0xD8 0
    else
      let s := d.time.turn + 2
      let d := twinSend (modTwin d fun x => { x with attach := 2, peerSerial := serial, snapTurn := some s }) (.attachOk fz.serial)
      (d.ldg.opened.filter fun l => decide (s ≤ l.1)).foldl (fun d l => l.2.foldl (fun d e => twinSend d (.entry l.1 e)) d) d
  | .lead => twinSend d (.attachFail 1)
  | _ => twinSend d (.attachFail 2)
/-- The check has failed (R487, R500): 0 a difference, 1 a lead that is not SOLO, 2 a twin that is no lead; after the check, the lead has ended the attach. -/
def checkFailed (fz : Fuses) (d : Dev) (why : Nat) : Dev :=
  if d.twin.attach ≠ 1 then (if d.twin.role = .attaching then failAttach d stBadState else d) else
  match d.twin.role, d.twin.attachCmd with
  | .detached, some (c, adm) => if why = 2 then noLead fz d c adm else failAttach (setRole d .attaching) (if why = 0 then stBadCheck else stBadState)
  | .attaching, _ => failAttach d (if why = 0 then stBadCheck else stBadState)
  | _, _ => d
/-- The flow stamps, deficits, agents and versions that the twins' state digests cover (R500 item 5). Log entry 86 DESIGN CHOICE. -/
def stateDigest (d : Dev) : Nat :=
  let obj := fun (kind h v : Nat) => leBytes 2 h ++ leBytes 4 v ++ leBytes 8 (Config.rootAddr kind h v)
  crc64 0 (
    (d.world.maps.flatMap fun m => obj 0 m.1 (((curVer m.2).map (·.ver)).getD 0)) ++
    (d.world.models.flatMap fun m => obj 1 m.1 (((curModel m.2).map (·.ver)).getD 0)) ++
    (d.world.sets.flatMap fun s => obj 2 s.1 (((curSet s.2).map (·.ver)).getD 0)) ++
    (d.world.agents.flatMap fun a => agentStatus d a.1 a.2) ++
    (d.pld.flatMap fun p => leBytes 8 p.2.deficit) ++
    ((liveQueries d).flatMap fun q => leBytes 1 q.2.cmd.polder ++ leBytes 1 q.2.cmd.cls ++ leBytes 6 q.2.admTurn ++ leBytes 2 q.2.admIndex))
/-- Both twins have the other's state digest of the end of the join turn: equal, the generation advances and the roles are LEAD and FOLLOW; else the attach
ends with BAD_CHECK (R500 item 5). -/
def joinDecide (d : Dev) : Dev :=
  match d.twin.joinDigest, d.twin.peerDigest with
  | some own, some theirs =>
    if own ≠ theirs then (if d.twin.role = .attaching then failAttach d stBadCheck else endAttach d stBadCheck 0)
    else
      let d := setGen (setRole d (if d.twin.role = .attaching then .follow else .lead)) (d.twin.gen + 1)
      endAttach d 0 d.twin.gen
  | _, _ => d
/-- The end of the join turn: the state digest goes to the twin (R500 item 5). Log entry 86 DESIGN CHOICE. -/
def joinTurnEnd (d : Dev) : Dev :=
  if d.twin.attach ≥ 4 && d.twin.attachTurn = d.time.turn then
    let g := stateDigest d
    joinDecide (twinSend (modTwin d fun x => { x with joinDigest := some g }) (.stateDigest g))
  else d
/-- ATTACH_JOIN_TURN (R500 item 4): from the join turn on the joiner executes the lead's ledgers in full. -/
def fxJoinTurn (d : Dev) : Dev := if d.twin.attach = 4 && d.twin.attachTurn ≤ d.time.turn then modTwin d fun x => { x with attach := 5 } else d
/-- ATTACH_STATE_DIGEST (R500 item 5): the twin's digest of the end of the join turn is held against the package's own, once it has one. Log entry 24 DEDUCED. -/
def fxStateDigest (d : Dev) (theirs t : Nat) : Dev :=
  if d.twin.attach < 4 then d else joinDecide (modTwin (atTime d t) fun x => { x with peerDigest := some theirs })

/-! ### Dies (R502 to R504) -/

/-- State of a die (R504). -/
def dieSt (d : Dev) (die : Nat) : Nat := tgetD d.twin.dieState die 0
/-- A die's state set. -/
def setDie (d : Dev) (die st : Nat) : Dev := modTwin d fun x => { x with dieState := tput x.dieState die st }
/-- DIE_MESSAGES_RESUME (R502, R504): messages of the old generation are discarded and counted, BIST starts. -/
def fxDieResume (d : Dev) (die : Nat) : Dev := if dieSt d die = 1 then setDie (cnt d 0x300038) die 2 else d
/-- DIE_BIST_END (R504). -/
def fxDieBist (d : Dev) (die : Nat) (good : Bool) (coresFail : Nat) : Dev :=
  if dieSt d die ≠ 2 then d else
  setDie (modTwin d fun x => { x with coresFail := tput x.coresFail die (coresFail % 65536) }) die (if good then 3 else 1)
/-- DIE_COPY_CURRENT (R504). -/
def fxDieCopy (d : Dev) (die : Nat) : Dev := if dieSt d die = 3 then setDie d die 4 else d
/-- DIE_READMIT (R504): the tile map changes at the boundary into the next turn. Log entry 65 DEDUCED. -/
def fxDieReadmit (fz : Fuses) (d : Dev) (c : Cmd) : Dev :=
  let die := fld c.block 0 1
  if c.block.length ≠ 4 || die < 2 || die > 7 || !allZero (slice c.block 1 3) then answer d c stBadRange 0
  else if dieSt d die ≠ 4 || d.twin.role = .lead || d.twin.role = .follow then answer d c stBadState 0
  else
    let bad := tgetD d.twin.coresFail die 0
    let good := total ((List.range 16).map fun k => b2n (!bitAt bad k && !bitAt (tgetD fz.coreFused die 0) k) * 2 ^ k)
    let d := setDie d die 0
    let d := { d with pkg := { d.pkg with live := d.pkg.live ||| 2 ^ die, svc := tput d.pkg.svc die bad } }
    let d := { d with pin := { d.pin with linkUp := linksLive fz d } }
    let d := modCal d fun x => { x with lanes := tmap (fun k l => if (linkDies (k / 2)).1 = die ∨ (linkDies (k / 2)).2 = die then { l with retired := none } else l) x.lanes }
    ok (mapDirty d) c good

/-- TWIN_ATTACH. -/
def execTwinAttach (c : Cmd) (s : State) : Host.Outcome State Fault Refusal := onFz s fun fz d => pfOnly d c (fxTwinAttach fz)
/-- TWIN_DETACH. -/
def execTwinDetach (c : Cmd) (s : State) : Host.Outcome State Fault Refusal := onDev s fun d => pfOnly d c fxTwinDetach
/-- TWIN_CONFIG. -/
def execTwinConfig (c : Cmd) (s : State) : Host.Outcome State Fault Refusal := onDev s fun d => pfOnly d c fxTwinConfig
/-- DIE_READMIT. -/
def execDieReadmit (c : Cmd) (s : State) : Host.Outcome State Fault Refusal := onFz s fun fz d => pfOnly d c (fxDieReadmit fz)
/-- TWIN_IDLE_TIMER. -/
def execTwinIdleTimer (s : State) : Host.Outcome State Fault Refusal := onDev s fun d => twinSend d .idle
/-- TWIN_LINK_LOST. -/
def execTwinLinkLost (t : Nat) (s : State) : Host.Outcome State Fault Refusal := onFz s fun fz d => fxLinkLost fz d t
/-- TWIN_DOWN_IN. -/
def execTwinDownIn (low : Bool) (t : Nat) (s : State) : Host.Outcome State Fault Refusal := onFz s fun fz d => fxDownIn fz d low t
/-- TWIN_DOWN_IN_RELEASE. -/
def execTwinDownInRelease (s : State) : Host.Outcome State Fault Refusal := onDev s fxDownRelease
/-- HANDOVER. -/
def execHandover (s : State) : Host.Outcome State Fault Refusal := onFz s fxHandover
/-- TWIN_LEAVE. -/
def execTwinLeave (s : State) : Host.Outcome State Fault Refusal := onFz s fxTwinLeave
/-- TWIN_LEDGER_ENTRY. -/
def execTwinLedgerEntry (turn : Nat) (e : Entry) (s : State) : Host.Outcome State Fault Refusal := onDev s fun d => fxTwinEntry d turn e
/-- TWIN_SEAL. -/
def execTwinSeal (turn digest : Nat) (s : State) : Host.Outcome State Fault Refusal := onDev s fun d => fxTwinSeal d turn digest
/-- TWIN_DIGEST_LIST. -/
def execTwinDigestList (turn : Nat) (items : List (Nat × Nat × Nat)) (s : State) : Host.Outcome State Fault Refusal :=
  onDev s fun d => fxDigestList d turn items
/-- DIGEST_LATE. -/
def execDigestLate (turn : Nat) (s : State) : Host.Outcome State Fault Refusal := onDev s fun d => fxDigestLate d turn
/-- HELD_FRAME_EXPIRY. -/
def execHeldFrameExpiry (turn : Nat) (s : State) : Host.Outcome State Fault Refusal := onDev s fun d => fxHeldExpiry d turn
/-- ARBITRATION_TIMEOUT. -/
def execArbitrationTimeout (s : State) : Host.Outcome State Fault Refusal := onDev s fxArbTimeout
/-- TWN_WIT_ANS. -/
def execTwnWitAns (v t : Nat) (s : State) : Host.Outcome State Fault Refusal := onDev s fun d => fxWitAns d v t
/-- ATTACH_JOIN_TURN. -/
def execAttachJoinTurn (s : State) : Host.Outcome State Fault Refusal := onDev s fxJoinTurn
/-- ATTACH_STATE_DIGEST. -/
def execAttachStateDigest (theirs t : Nat) (s : State) : Host.Outcome State Fault Refusal := onDev s fun d => fxStateDigest d theirs t
/-- DIE_MESSAGES_RESUME. -/
def execDieMessagesResume (die : Nat) (s : State) : Host.Outcome State Fault Refusal := onDev s fun d => fxDieResume d die
/-- DIE_BIST_END. -/
def execDieBistEnd (die : Nat) (ok : Bool) (coresFail : Nat) (s : State) : Host.Outcome State Fault Refusal := onDev s fun d => fxDieBist d die ok coresFail
/-- DIE_COPY_CURRENT. -/
def execDieCopyCurrent (die : Nat) (s : State) : Host.Outcome State Fault Refusal := onDev s fun d => fxDieCopy d die

end Sys2Proof.Machine
end

