-- ==== Sys2Proof/Machine/Bundle.lean ====
section
/-! DEFINITION. Program images (R305 to R307, R340 to R343) and configuration bundles (R526 to R531). -/
namespace Sys2Proof.Machine

/-! ### Images -/

/-- The image unit changed. -/
def modImg (d : Dev) (f : ImgDev → ImgDev) : Dev := { d with img := f d.img }
/-- Bundles of an image (R305). -/
def imgBundleCount (raw : Bytes) : Nat := fld raw 4 4
/-- Segment table entry `i` of an image (R306). -/
def imgSeg (raw : Bytes) (i : Nat) : Nat := fld raw (64 + 8 * i) 8
/-- The image has format 1 and the length that its header gives (R305). -/
def imgFormatOk (raw : Bytes) : Bool :=
  fld raw 0 2 == 1 && decide (raw.length ≤ 4194304) && raw.length == imgBundles raw + 64 * imgBundleCount raw + 96
/-- The code of a bank plan byte is one of R305. -/
def planCode (v : Nat) : Bool := decide (v ≤ 0x12) || v == 0x1f || v == 0x20
/-- The reserve of predictor slot `i`: its first cycle and length. -/
def predRange (raw : Bytes) (i : Nat) : Nat × Nat := (bits (fld raw (imgPredOff raw i + 8) 4) 17 0, (predSlot raw i).rp)
/-- Fields of an image inside the ranges of R305, R306, R307 and R212, the reserved bits of its bundles' headers 0 (R10, R312). -/
def imgRangeOk (raw : Bytes) : Bool :=
  let n := imgSegs raw; let b := imgBundleCount raw; let p := imgPreds raw
  decide (1 ≤ n) && decide (n ≤ 1024) && bits (fld raw 2 2) 15 11 == 0 && decide (1 ≤ b) && decide (b ≤ 32768) && decide (p ≤ 8) && bits (fld raw 17 1) 7 4 == 0 &&
  ((List.range 16).all fun i => planCode (fld raw (20 + i) 1)) && imgCounts raw != 0 && allZero (slice raw 38 26) &&
  ((List.range n).all fun i =>
    let e := imgSeg raw i
    decide (bits e 14 0 + bits e 29 15 + 1 ≤ b) && decide (1 ≤ bits e 34 30) && decide (bits e 34 30 ≤ 16) && decide (bits e 36 35 ≤ 2) && bits e 63 37 == 0) &&
  ((List.range b).all fun i => fld raw (imgBundles raw + 64 * i + 7) 1 == 0) &&
  (List.range p).all fun i =>
    let s := predSlot raw i; let o := imgPredOff raw i; let r := predRange raw i
    fld raw (o + 7) 1 == 0 && bits (fld raw (o + 8) 4) 31 18 == 0 && decide (1 ≤ s.mMin) &&
    decide ((128 + s.mMin - 1) / s.mMin * ((s.pMax + 127) / 128) * s.cMax ≤ s.lp * s.rp) &&
    (List.range i).all fun j => let q := predRange raw j; decide (r.1 + r.2 ≤ q.1) || decide (q.1 + q.2 ≤ r.1)
/-- Every reserve of an image's predictor slots lies in the general window (R212). Log entry 106 DEDUCED. -/
def predsFit (d : Dev) (raw : Bytes) : Bool :=
  (List.range (imgPreds raw)).all fun i => let r := predRange raw i; decide (bermLen d ≤ r.1) && decide (r.1 + r.2 ≤ workEnd d - 2000)
/-- LOAD_IMAGE (R340): format, ranges and state are decided in the ledger turn; the signature and the copies take longer. Log entry 79 DEDUCED. -/
def fxLoadImage (d : Dev) (c : Cmd) : Dev :=
  let raw := c.block
  let bad := fun st => answer (modImg d fun x => { x with standby := false }) c st 0
  if !imgFormatOk raw then bad stBadCheck
  else if !imgRangeOk raw || !predsFit d raw then bad stBadRange
  else if d.img.at_.isSome || d.img.loading.isSome || fld raw 16 1 ≠ Config.fwMajor then bad stBadState
  else modImg d fun x => { x with standby := false, slots := tput x.slots (1 - x.active) { raw := raw, ready := false }, loading := some (c, d.time.turn) }
/-- LOAD_IMAGE_END (R340, R364). Log entries 29 DESIGN CHOICE, 79 DEDUCED. -/
def fxLoadImageEnd (d : Dev) : Dev :=
  match d.img.loading with
  | none => d
  | some (c, turn) =>
    let good := Config.imageSigned (imgRaw d (1 - d.img.active))
    let d := modImg d fun x => { x with loading := none, standby := good, slots := tmod x.slots (1 - x.active) fun s => { s with ready := good } }
    if good then reply d c 0 (imgContent (imgRaw d (1 - d.img.active))) none turn 0 0 0 else reply d c stBadCheck 0 none turn 0 0 0
/-- The package is a member of a fabric of more than one package (R341, R515). -/
def fabricMember (d : Dev) : Bool := d.fab.state == .assigned && d.fab.peers.any fun p => p.2.alive
/-- The predictor slots of an image hold the models of the maps bound to them (R341). -/
def slotsHold (d : Dev) (raw : Bytes) : Bool :=
  d.world.maps.all fun m => match mapSlot m.2, m.2.model with
    | some s, some h => decide (s < imgPreds raw) && decide (predTileCost (curModelRaw d h) ≤ (predSlot raw s).cMax)
    | _, _ => true
/-- ACTIVATE_IMAGE (R341). -/
def fxActivateImage (d : Dev) (c : Cmd) : Dev :=
  let a := fld c.block 0 6
  if c.block.length ≠ 8 || fld c.block 6 2 ≠ 0 then answer d c stBadRange 0
  else if !d.img.standby || a ≤ d.time.turn + 1 || !slotsHold d (imgRaw d (1 - d.img.active)) || fabricMember d then answer d c stBadState 0
  else ok (modImg d fun x => { x with at_ := some a }) c
/-- The core of slot `s` of a die: its s-th live core in the mapping in force (R304). -/
def slotCore (d : Dev) (die s : Nat) : Option Nat := (slotList d die)[s]?
/-- The owner that a bank plan gives bank `b` of a die (R304, R305, R334). Log entry 48 DEDUCED. -/
def planOwner (d : Dev) (raw : Bytes) (die b : Nat) : Nat :=
  let v := fld raw (20 + b) 1
  if coreGone d die b then 0x1f
  else if v < 16 then (slotCore d die v).getD 0x1f
  else if v = 0x20 then (if (slotList d die).contains b then b else 0x1f) else v
/-- Every bank takes its owner from the bank plan of the active image. -/
def applyPlan (d : Dev) : Dev :=
  let raw := actImg d
  let ks := (List.range 128).filter fun k => dieLive d (k / 16)
  { d with eng := { d.eng with owner := ks.foldl (fun t k => tput t k (planOwner d raw (k / 16) (k % 16), planOwner d raw (k / 16) (k % 16), false)) d.eng.owner } }
/-- A predictor pass in flight is dropped and counted (R216). -/
def dropPass (d : Dev) (h : Nat) : Dev :=
  match (tget d.world.maps h).bind (·.pass) with
  | none => d
  | some p =>
    if p.ends = 0 then d else
    cnt (modMap d h fun m => { m with pass := some { (default : PredPass) with slot := p.slot } }) (dieWin 0 + 0x111004)
/-- The lathe runs from the other half of the stream store (R342). A tile map that the new image's counts change is due at the same boundary, from the
cutoff that formed the activation's entry (R307, `dueMap`); what that cutoff did not see is left to the next one. -/
def switchImage (d : Dev) : Dev :=
  let old := imgContent (actImg d)
  let d := applyPlan (modImg (mapDirty d) fun x => { x with active := 1 - x.active, standby := true, at_ := none })
  let d := { d with eng := { d.eng with halves := [], tables := [] } }
  if imgContent (actImg d) = old then d else
  let d := { d with q := { d.q with recs := tmap (fun _ (q : QueryRec) => if q.cmd.cls = 0 then q else restartQ q) d.q.recs } }
  let d := (d.world.maps.map (·.1)).foldl dropPass d
  let t := d.time.turn
  { d with world := { d.world with
    maps := tmap (fun _ (m : MapRec) => { m with build := (match m.build with
      | .start _ => .start t
      | b => b) }) d.world.maps,
    sets := tmap (fun _ (s : SetRec) => { s with build := s.build.map fun b => { b with start := t, modelVer := none } }) d.world.sets } }
/-- IMAGE_ACTIVATE (R342): the activation turn begins. -/
def fxImageActivate (d : Dev) : Dev :=
  match d.img.at_ with
  | none => d
  | some a => if a ≤ d.time.turn then switchImage d else d

/-! ### Bundles -/

/-- Sections of a bundle's bytes: kind, handle, owner, body; none where the bytes do not hold them (R526). -/
def bundleSecs : Nat → Bytes → Option (List (Nat × Nat × Nat × Bytes))
  | 0, b => if b.isEmpty then some [] else none
  | n + 1, b =>
    let len := fld b 8 4
    let size := 16 + (len + 7) / 8 * 8
    if b.length < size || fld b 1 1 ≠ 0 || bits (fld b 4 1) 7 5 ≠ 0 || !allZero (slice b 5 3) || !allZero (slice b 12 4) || !allZero (slice b (16 + len) (size - 16 - len)) then none
    else (bundleSecs n (b.drop size)).map fun t => (fld b 0 1, fld b 2 2, fld b 4 1, slice b 16 len) :: t
/-- Member record `i` of a fabric table (R527). -/
def fabMember (b : Bytes) (i : Nat) : Bytes := slice b (8 + 40 * i) 40
/-- Mirror record `i`. -/
def fabMirror (b : Bytes) (i : Nat) : Bytes := slice b (8 + 40 * fld b 0 2 + 32 * i) 32
/-- Two region boxes lie at least `band` apart on some axis (R519). -/
def apart (band : Int) (a b : Bytes) : Bool :=
  let lo1 := v3fld a 12; let hi1 := v3fld a 24; let lo2 := v3fld b 12; let hi2 := v3fld b 24
  let f := fun (x1 y1 x2 y2 : Int) => decide (y1 + band ≤ x2) || decide (y2 + band ≤ x1)
  f lo1.x hi1.x lo2.x hi2.x || f lo1.y hi1.y lo2.y hi2.y || f lo1.z hi1.z lo2.z hi2.z
/-- A fabric table keeps its ranges and its regions are apart (R519, R520, R527). -/
def fabTableOk (b : Bytes) : Bool :=
  let n := fld b 0 2; let m := fld b 2 2
  let ids := (List.range n).map fun i => fld (fabMember b i) 0 1
  decide (1 ≤ n) && decide (n ≤ 64) && decide (m ≤ 256) && b.length == 8 + 40 * n + 32 * m &&
  ((List.range n).all fun i =>
    let r := fabMember b i
    decide (fld r 0 1 ≤ 63) && (decide (fld r 1 1 ≤ 63) || fld r 1 1 == 0xff) && fld r 2 2 == 0 && fld r 36 4 == 0 &&
    V3.all2 (fun x y => decide (x < y)) (v3fld r 12) (v3fld r 24) &&
    (List.range i).all fun j =>
      let s := fabMember b j
      fld s 0 1 != fld r 0 1 && (fld s 1 1 == fld r 0 1 || apart (fld b 4 4) r s)) &&
  (List.range m).all fun i =>
    let r := fabMirror b i
    ids.contains (fld r 0 1) && ids.contains (fld r 2 1) && decide (fld r 1 1 ≤ 63) && decide (fld r 3 1 ≤ 63) && decide (fld r 4 1 ≤ 16) && allZero (slice r 5 3) &&
    V3.all2 (fun x y => decide (x < y)) (v3fld r 8) (v3fld r 20)
/-- Polder record `i` of a polder table. -/
def polRec (b : Bytes) (i : Nat) : Bytes := slice b (20 * i) 20
/-- The model that a set of a bundle names, as the bundle or the package defines it, with its owner (R135, R531). -/
def bundleModel (d : Dev) (l : List (Nat × Nat × Nat × Bytes)) (h : Nat) : Option (Nat × Bytes) :=
  match l.find? fun s => s.1 == 2 && s.2.1 == h with
  | some s => some (s.2.2.1, s.2.2.2)
  | none => (tget d.world.models h).bind fun m => if m.removed then none else some (m.owner, modelDef m)
/-- A model or set of a bundle fits the object that its handle names and the model that it names (R133, R136, R206, R529). -/
def secFits (d : Dev) (l : List (Nat × Nat × Nat × Bytes)) (s : Nat × Nat × Nat × Bytes) : Bool :=
  let raw := s.2.2.2
  if s.1 = 2 then ((tget d.world.models s.2.1).map fun m => m.owner == s.2.2.1 && !m.removed && redefOk d s.2.1 m raw).getD true
  else ((tget d.world.sets s.2.1).map fun x => x.owner == s.2.2.1 && !x.removed).getD true &&
    ((bundleModel d l (fld raw 8 2)).map fun m => m.1 == s.2.2.1 && fld m.2 0 1 == 1 && fld raw 12 1 == kinN m.2 &&
      (if fld raw 0 1 = 1 then kinBase m.2 else kinN m.2 != 0)).getD false
/-- A section of a bundle with sections `l` keeps the rules of its kind: none, or the status that refuses it (R526, R529). -/
def secFail (d : Dev) (l : List (Nat × Nat × Nat × Bytes)) (s : Nat × Nat × Nat × Bytes) : Option Nat :=
  let b := s.2.2.2
  match s.1 with
  | 1 => if !imgFormatOk b || !Config.imageSigned b then some stBadCheck else if !imgRangeOk b || !predsFit d b || fld b 16 1 ≠ Config.fwMajor then some stBadRange else none
  | 2 => let k := fld b 0 1
         if s.2.1 > 1023 || s.2.2.1 > 16 || !(if k = 1 then kinOk b else (k == 2 || k == 3) && netOk b) || !secFits d l s then some stBadRange else none
  | 3 => if s.2.1 > 255 || s.2.2.1 > 16 || !setOk b || !secFits d l s then some stBadRange else none
  | 4 => if b.length ≠ 320 || !(List.range 16).all (fun i => let r := polRec b i; fld r 0 1 == 0 || (decide (fld r 0 1 ≤ 16) && polderRange r &&
           (List.range i).all fun j => fld (polRec b j) 0 1 != fld r 0 1)) then some stBadRange else none
  | 5 => if fabTableOk b then none else some stBadRange
  | 6 => if b.length % 8 = 0 && (List.range (b.length / 8)).all (fun i => cfgReg (fld b (8 * i) 4)) then none else some stBadRange
  | _ => some stBadRange
/-- Bytes of world store that a bundle's models and sets take. -/
def bundleStore (d : Dev) (secs : List (Nat × Nat × Nat × Bytes)) : Nat :=
  total (secs.map fun s => match s.1 with
    | 2 => s.2.2.2.length
    | 3 => setVerBytes s.2.2.2 (((tget d.world.models (fld s.2.2.2 8 2)).map modelDef).getD
             (((secs.find? fun x => x.1 == 2 && x.2.1 == fld s.2.2.2 8 2).map fun x => x.2.2.2).getD []))
    | _ => 0)
/-- The verification of a staged bundle ends (R529, R364). Log entry 79 DEDUCED. -/
def fxCfgStageEnd (d : Dev) : Dev :=
  match d.fab.staging with
  | none => d
  | some (b, c, turn) => reply (modFab d fun x => { x with staging := none, staged := some b }) c 0 b.gen none turn 0 0 0
/-- CFG_STAGE (R529): everything is checked in the ledger turn, in the order of the rule. Log entry 79 DEDUCED. -/
def fxCfgStage (d : Dev) (c : Cmd) : Dev :=
  let raw := c.block.drop 8
  let gen := fld raw 0 4; let n := fld raw 4 2
  let secs := bundleSecs n (raw.drop 64)
  let one := fun (l : List (Nat × Nat × Nat × Bytes)) k => decide ((l.filter fun s => s.1 == k).length ≤ 1)
  if c.block.length < 72 || fld c.block 0 2 ≠ 0 || !allZero (slice c.block 3 5) || fld raw 6 2 ≠ 0 || !allZero (slice raw 40 24) || n < 1 || n > 2048 ||
      gen ≠ ((d.fab.cfg.map (·.gen)).getD 0 + 1) % 2 ^ 32 then answer d c stBadRange 0
  else if sha256 (raw.drop 64) ≠ slice raw 8 32 then answer d c stBadCheck 0
  else match secs with
  | none => answer d c stBadRange 0
  | some l =>
    if !(one l 1 && one l 4 && one l 5 && one l 6) then answer d c stBadRange 0
    else match l.findSome? (secFail d l) with
    | some st => answer d c st 0
    | none =>
      if d.fab.commitTurn.isSome || d.ldg.replay then answer d c stBadState 0
      else if storeFull d (bundleStore d l) then answer d c stStore 0
      else modFab (fxCfgStageEnd d) fun x => { x with staging := some ({ gen := gen, digest := slice raw 8 32, secs := l }, c, d.time.turn) }
/-- CFG_COMMIT (R530). -/
def fxCfgCommit (d : Dev) (c : Cmd) : Dev :=
  let gen := fld c.block 0 4; let t := fld c.block 4 6
  if c.block.length ≠ 12 || fld c.block 10 2 ≠ 0 then answer d c stBadRange 0
  else if (d.fab.staged.map (·.gen)) ≠ some gen || t < d.time.turn + 4 || d.fab.commitTurn.isSome || d.ldg.replay then answer d c stBadState 0
  else ok (modFab d fun x => { x with commitTurn := some t }) c gen

/-- The body of the bundle's section of a kind. -/
def secBody (b : BundleRec) (k : Nat) : Option Bytes := (b.secs.find? fun s => s.1 == k).map fun s => s.2.2.2
/-- The register set of a bundle applied (R531 item 2). -/
def applyRegs (d : Dev) (b : BundleRec) : Dev :=
  match secBody b 6 with
  | none => d
  | some r =>
    let d := (List.range (r.length / 8)).foldl (fun d i => cfgPut d (fld r (8 * i) 4) (fld r (8 * i + 4) 4)) d
    let d := deratedCheck d
    if bitAt (rget d 0x200000) 0 then rset d 0x200034 (crc32c (wdnCfgBytes d)) else d
/-- The polder records that are used. -/
def polRecs (b : BundleRec) : List Bytes := ((secBody b 4).map fun t => ((List.range 16).map (polRec t)).filter fun r => fld r 0 1 != 0).getD []
/-- Every polder record fits as a POLDER_MODIFY would (R385, R531 item 1). -/
def polFits (d : Dev) (r : Bytes) : Bool :=
  let p := fld r 0 1
  (polder d p).state != 3 && decide (useQ d p ≤ fld r 10 2) && decide (mapsOf d p ≤ fld r 12 1) && decide (streamsOf d p ≤ fld r 13 1) && decide (agentsOf d p ≤ fld r 14 2) &&
  (fld r 16 4 == 0 || decide (polderStore d p ≤ fld r 16 4 * 1048576)) && sliceHolds d p (fld r 8 2)
/-- The polder table applied (R531 item 3): from this turn on. -/
def applyPolders (d : Dev) (b : BundleRec) : Dev :=
  (polRecs b).foldl (fun d r => polderNext (modPolder d (fld r 0 1) fun x =>
    if x.state = 0 then { (default : PolderRec) with creating := true, next := some (polderVals r), resetCnt := x.resetCnt }
    else { x with next := some (polderVals r) }) (fld r 0 1)) d
/-- The mirrors that a fabric table names, as new records. -/
def tableMirrors (t : Bytes) : List MirrorRec :=
  (List.range (fld t 2 2)).map fun i =>
    let r := fabMirror t i
    { (default : MirrorRec) with srcId := fld r 0 1, srcMap := fld r 1 1, subId := fld r 2 1, localMap := fld r 3 1, owner := fld r 4 1, boxMin := v3fld r 8, boxMax := v3fld r 20 }
/-- Two mirror records name the same mirror. -/
def sameMirror (a b : MirrorRec) : Bool :=
  a.srcId == b.srcId && a.srcMap == b.srcMap && a.subId == b.subId && a.localMap == b.localMap && a.owner == b.owner && a.boxMin == b.boxMin && a.boxMax == b.boxMax
/-- The ids of the package's pair under a fabric table. -/
def tableIds (d : Dev) (t : Bytes) : List Nat :=
  d.fab.id :: ((List.range (fld t 0 2)).filterMap fun i => let r := fabMember t i; if fld r 0 1 = d.fab.id && fld r 1 1 ≠ 0xff then some (fld r 1 1) else none)
/-- A mirror can be created here: as the subscriber its handle is free and its polder exists, as the source its map exists and the box is
aligned to tiles and holds at most 256 of them (R520, R531 item 1). -/
def mirrorFits (d : Dev) (t : Bytes) (m : MirrorRec) : Bool :=
  let ids := tableIds d t
  let old := d.fab.mirrors.any fun x => sameMirror x m
  let names := (List.range (fld t 2 2)).filter fun i => let r := fabMirror t i; ids.contains (fld r 2 1) && fld r 3 1 == m.localMap
  (old || !ids.contains m.subId || (names.length == 1 && ((tget d.world.maps m.localMap).isNone || d.fab.mirrors.any fun x => ids.contains x.subId && x.localMap == m.localMap) &&
    ((polder d m.owner).state != 0 || m.owner == 0))) &&
  (!ids.contains m.srcId || match tget d.world.maps m.srcMap with
    | none => false
    | some s =>
      let e : Int := 2 ^ s.k; let a := m.boxMin.sub s.boxMin; let b := m.boxMax.sub s.boxMin
      a.x % (64 * e) == 0 && a.y % (64 * e) == 0 && a.z % (16 * e) == 0 && b.x % (64 * e) == 0 && b.y % (64 * e) == 0 && b.z % (16 * e) == 0 &&
      V3.all2 (fun x y => decide (x ≤ y)) s.boxMin m.boxMin && V3.all2 (fun x y => decide (x ≤ y)) m.boxMax s.boxMax &&
      decide ((b.x - a.x) / (64 * e) * ((b.y - a.y) / (64 * e)) * ((b.z - a.z) / (16 * e)) ≤ 256))
/-- The local map of a new mirror (R520). The spec carries the source's k and slice length to the subscriber nowhere: free values (log entry 2). -/
def mirrorMap (d : Dev) (m : MirrorRec) : Dev :=
  let r1 := freeVal d
  let r2 := freeVal r1.2
  let x : MapRec := { (default : MapRec) with owner := m.owner, boxMin := m.boxMin, boxMax := m.boxMax, k := 10 + r1.1 % 7, sliceMs := 5 + r2.1 % 496,
                                              predPeriod := 1, pinHoldMax := 25, build := .idle }
  { r2.2 with world := { r2.2.world with maps := tput r2.2.world.maps m.localMap x } }
/-- The fabric table applied (R531 item 4). -/
def applyTable (fz : Fuses) (d : Dev) (b : BundleRec) : Dev :=
  match secBody b 5 with
  | none => d
  | some t =>
    let ms := (tableMirrors t).map fun m => (d.fab.mirrors.find? fun x => sameMirror x m).getD m
    let gone := d.fab.mirrors.filter fun x => !ms.any fun m => sameMirror x m
    let new := ms.filter fun m => !d.fab.mirrors.any fun x => sameMirror x m
    let ids := tableIds d t
    let d := gone.foldl (fun d m => if (pairIds d).contains m.subId then
        clearLive (modMap d m.localMap fun r => { r with removed := true }) 0x066 0 0xF0 m.localMap else d) d
    let mine := (List.range (fld t 0 2)).find? fun i => fld (fabMember t i) 4 8 == fz.serial
    let d := modFab d fun x => { x with
      band := some (fld t 4 4), region := mine.map fun i => (v3fld (fabMember t i) 12, v3fld (fabMember t i) 24),
      members := (List.range (fld t 0 2)).map fun i => let r := fabMember t i; (fld r 0 1, fld r 1 1, fld r 4 8),
      mirrors := ms.map fun m => if new.any (sameMirror m) then { m with needFull := m.subId :: ((List.range (fld t 0 2)).filterMap fun i =>
        let r := fabMember t i; if fld r 0 1 = m.subId && fld r 1 1 ≠ 0xff then some (fld r 1 1) else none) } else m }
    new.foldl (fun d m => if ids.contains m.subId then mirrorMap d m else d) d
/-- The image of a bundle: into the standby slot, and switched to when its content differs (R531 item 5). -/
def applyImage (d : Dev) (b : BundleRec) : Dev :=
  match secBody b 1 with
  | none => d
  | some raw =>
    if imgContent raw = imgContent (actImg d) then d
    else switchImage (modImg d fun x => { x with slots := tput x.slots (1 - x.active) { raw := raw, ready := true }, loading := none })
/-- Models and sets of a bundle as definitions or redefinitions in this turn (R531 item 6). -/
def applyObjects (d : Dev) (b : BundleRec) : Dev :=
  b.secs.foldl (fun d s =>
    let h := s.2.1; let raw := s.2.2.2
    match s.1 with
    | 2 =>
      let m := (tget d.world.models h).getD { (default : ModelRec) with owner := s.2.2.1, kind := fld raw 0 1 }
      { d with world := { d.world with models := tput d.world.models h { m with due := some raw, removed := false } } }
    | 3 =>
      let x := (tget d.world.sets h).getD { (default : SetRec) with owner := s.2.2.1 }
      let x := { x with model := fld raw 8 2, kind := fld raw 0 1, loaded := raw, removed := false }
      let x := if fld raw 0 1 = 1 then { x with build := some { (default : SetBuild) with start := d.time.turn + 1, raw := raw } }
        else { x with build := none, due := some { (default : SetVer) with raw := raw } }
      { d with world := { d.world with sets := tput d.world.sets h x } }
    | _ => d) d
/-- The checks of R531 item 1. -/
def commitFits (d : Dev) (b : BundleRec) : Bool :=
  let d' := applyPolders (applyRegs d b) b
  (polRecs b).all (polFits (applyRegs d b)) && decide (sliceSum d' ≤ bermLen d') && ((secBody b 5).map fun t => (tableMirrors t).all (mirrorFits d t)).getD true &&
  decide ((d.world.maps.length + ((secBody b 5).map fun t => ((tableMirrors t).filter fun m => (tableIds d t).contains m.subId && (tget d.world.maps m.localMap).isNone).length).getD 0) ≤ 64)
/-- The image that is in force from the start of turn `n` on: that of an activation or of a commit due then (R307, R341, R531). -/
def imageAt (d : Dev) (n : Nat) : Bytes :=
  let a := if (d.img.at_.map fun t => decide (t ≤ n)).getD false then imgRaw d (1 - d.img.active) else actImg d
  match d.fab.commitTurn, d.fab.staged with
  | some c, some b => if c ≤ n && commitFits d b then (secBody b 1).getD a else a
  | _, _ => a
/-- CONFIG_ACTIVATE (R531): the whole commit, or nothing of it. -/
def fxCommit (fz : Fuses) (d : Dev) : Dev :=
  match d.fab.commitTurn, d.fab.staged with
  | some c, some b =>
    if d.time.turn < c then d
    else if !commitFits d b then
      irq (raise (modFab d fun x => { x with commitTurn := none, aborted := true }) 0x063 0 0xF0 0) 0 58
    else
      let d := applyObjects (applyImage (applyTable fz (applyPolders (applyRegs d b) b) b) b) b
      modFab d fun x => { x with cfg := some b, staged := none, commitTurn := none }
  | _, _ => d

/-- LOAD_IMAGE. -/
def execLoadImage (c : Cmd) (s : State) : Host.Outcome State Fault Refusal := onDev s fun d => pfOnly d c fxLoadImage
/-- ACTIVATE_IMAGE. -/
def execActivateImage (c : Cmd) (s : State) : Host.Outcome State Fault Refusal := onDev s fun d => pfOnly d c fxActivateImage
/-- LOAD_IMAGE_END. -/
def execLoadImageEnd (s : State) : Host.Outcome State Fault Refusal := onDev s fxLoadImageEnd
/-- IMAGE_ACTIVATE. -/
def execImageActivate (s : State) : Host.Outcome State Fault Refusal := onDev s fxImageActivate
/-- CFG_STAGE. -/
def execCfgStage (c : Cmd) (s : State) : Host.Outcome State Fault Refusal := onDev s fun d => pfOnly d c fxCfgStage
/-- CFG_STAGE_END. -/
def execCfgStageEnd (s : State) : Host.Outcome State Fault Refusal := onDev s fxCfgStageEnd
/-- CFG_COMMIT. -/
def execCfgCommit (c : Cmd) (s : State) : Host.Outcome State Fault Refusal := onDev s fun d => pfOnly d c fxCfgCommit
/-- CONFIG_ACTIVATE. -/
def execConfigActivate (s : State) : Host.Outcome State Fault Refusal := onFz s fxCommit

end Sys2Proof.Machine
end

