-- ==== Sys2Proof/Machine/Boot.lean ====
section
/-! DEFINITION. Power, resets and boot (R545 to R554), telemetry on the SMBus (R555), the test access port (R551, R556), field port links. -/
namespace Sys2Proof.Machine

/-- The boundary of the package changed. -/
def modPin (d : Dev) (f : PinDev → PinDev) : Dev := { d with pin := f d.pin }
/-- Bytes of the boot flash; an erased byte reads 0xFF (log entry 25). -/
def flashGet (d : Dev) (a n : Nat) : Bytes := (List.range n).map fun i => tgetD d.pin.flash (a + i) 0xff
/-- Something the boot configuration sector says (R549). Log entry 29 DESIGN CHOICE. -/
def bootField (d : Dev) (i : Nat) : Nat := Config.bootSector i (flashGet d 0x1000 4096)

/-! ### Power -/

/-- VDD_IO is removed (R548): everything is lost but the flash and the witness sector in it. Log entry 31 DEDUCED. -/
def fxPowerLoss (fz : Fuses) (d : Dev) : Dev :=
  let z := packageReset fz d
  { z with wdn := { z.wdn with ring := [] }, fab := { z.fab with boots := 0 }, mon := default,
           pin := { (default : PinDev) with flash := d.pin.flash, tapIr := .idcode, drive := .part } }
/-- POWER_ON (R554): VDD_IO rises; RESET_N and PWR_GOOD are low (R545). -/
def fxPowerOn (fz : Fuses) (d : Dev) : Dev := if d.pin.vddIo then d else modPin (fxPowerLoss fz d) fun p => { p with vddIo := true }
/-- PWR_GOOD goes high (R555): the telemetry controller takes its address, once until VDD_IO falls. -/
def fxPwrGood (d : Dev) : Dev :=
  if !d.pin.vddIo then d else
  let a := bootField d 2
  let own := if bootField d 0 = 1 && decide (0x58 ≤ a) && decide (a ≤ 0x5F) then a else 0x5C
  modPin d fun p => { p with pwrGood := true, smbAddr := some (p.smbAddr.getD own) }
/-- RESET_N has gone low for `us` µs, or PWR_GOOD (R539): a pulse under 10 µs is taken or not, the spec leaves it open. Log entry 30 DESIGN CHOICE. -/
def fxResetLow (fz : Fuses) (d : Dev) (us : Nat) : Dev :=
  if !d.pin.vddIo then d else
  let r := freeVal d
  if 10 ≤ us then modPin (packageReset fz d) fun p => { p with resetN := false }
  else if r.1 % 2 = 1 then modPin (packageReset fz r.2) fun p => { p with resetN := false } else r.2
/-- The junction of a die reaches `temp` (1/8 °C): warning, critical and trip thresholds (R547, R548). Log entries 31 DEDUCED, 32 DESIGN CHOICE. -/
def fxThermal (d : Dev) (die : Nat) (temp : Int) : Dev :=
  let d := if temp > 760 then assertLive d 0x01D die 0xFF 0 else if temp < 720 then clearLive d 0x01D die 0xFF 0 else d
  let d := if temp > 840 then raise d 0x01E die 0xFF temp.toNat else d
  if temp > 920 && d.pin.vddIo then modPin d fun p => { p with trip := true } else d

/-! ### Boot (R552, R553) -/

/-- The program image in the flash (R549), of the length that its header gives. -/
def flashImage (d : Dev) : Bytes :=
  let h := flashGet d 0x02100000 64
  flashGet d 0x02100000 (min 4194304 (imgBundles h + 64 * imgBundleCount h + 96))
/-- Boot stops in a failure stage (R553). -/
def bootStop (d : Dev) (stage : Nat) : Dev := modPin d fun p => { p with stage := stage, ready := false }
/-- RESET_N is released: boot runs to the placing of the program image; `cfgOk` and `imgOk` say whether the signatures of the boot
configuration and the image are accepted (R550). Log entry 29 DESIGN CHOICE. -/
def fxBoot (fz : Fuses) (d : Dev) (cfgOk imgOk : Bool) : Dev :=
  if !d.pin.vddIo || !d.pin.pwrGood || d.pin.trip || d.pin.stage ≠ 0 then d else
  let d := modPin d fun p => { p with resetN := true }
  let n := popDies fz
  let links := (List.range 10).filter fun x => linkHere fz x
  let d := rset d 0x18 7
  if !cfgOk || bootField d 0 ≠ 1 then bootStop d 0x83 else
  let baud := bootField d 3
  let d := rfield { d with pkg := { d.pkg with twin := bootField d 1 % 2 == 1, live := 2 ^ n - 1 } } 0x1004 11 8 (if baud ≤ 9 then baud else 1)
  let raw := flashImage d
  let d := modPin d fun p => { p with linkUp := total (links.map fun x => 2 ^ x) }
  if !imgOk || !imgFormatOk raw || !imgRangeOk raw || fld raw 16 1 ≠ Config.fwMajor then bootStop d 0x85
  else modPin (modImg d fun x => { x with slots := [(0, { raw := raw, ready := true })], active := 0 }) fun p => { p with stage := 6 }
/-- Dies of 2 to 7 and cores that fail in boot are left out; a failure of die 0 or die 1 stops the boot (R553). -/
def leaveOut (fz : Fuses) (d : Dev) (dies : Nat) (cores : List (Nat × Nat)) : Dev :=
  let bad := (List.range 8).filter fun x => bitAt dies x && decide (x < popDies fz)
  let cs := cores.filter fun c => decide (c.1 < popDies fz) && decide (c.2 < 16)
  if bad.any fun x => decide (x < 2) then bootStop d 0x84 else
  let d := bad.foldl (fun (d : Dev) x => { d with pkg := { d.pkg with live := if bitAt d.pkg.live x then d.pkg.live - 2 ^ x else d.pkg.live },
                                                  twin := { d.twin with dieState := tput d.twin.dieState x 1 } }) d
  let d := cs.foldl (fun (d : Dev) c => { d with pkg := { d.pkg with svc := tput d.pkg.svc c.1 (tgetD d.pkg.svc c.1 0 ||| 2 ^ c.2) } }) d
  modPin d fun p => { p with leftOut := p.leftOut || !bad.isEmpty || !cs.isEmpty }
/-- LTH_COUNT is present on each live die that holds no tile, its usable core count being 0 (R307). -/
def countCheck (d : Dev) : Dev :=
  (List.range 8).foldl (fun d x => setLive d 0x03F x 0xF0 0 (dieLive d x && (coresUsed d x).isEmpty)) d
/-- The tile map, the slot mapping and the bank owners made from the live cores (R30, R304, R334). -/
def placeTiles (fz : Fuses) (d : Dev) : Dev :=
  countCheck (applyPlan { d with pkg := { d.pkg with map := tileMapOf fz d (actImg d), m := (coreOrder fz d (actImg d)).length,
                                                     cut := liveMasks fz d, slots := liveMasks fz d } })
/-- Boot completes (R552): the tile map is set and FAULT_N released. -/
def fxBootReady (fz : Fuses) (d : Dev) (dies : Nat) (cores : List (Nat × Nat)) : Dev :=
  if d.pin.stage < 2 || d.pin.stage > 7 then d else
  let d := leaveOut fz d dies cores
  if d.pin.stage ≥ 0x80 then d else
  let d := placeTiles fz d
  deratedCheck (modPin d fun p => { p with stage := 8, ready := true, linkUp := linksLive fz d })
/-- A step of the boot fails (R553): stages 0x81 to 0x85 stop it; 0x08 leaves dies and cores out. -/
def fxBootFailure (fz : Fuses) (d : Dev) (stage dies : Nat) (cores : List (Nat × Nat)) : Dev :=
  if !d.pin.vddIo || !d.pin.pwrGood || d.pin.ready || d.pin.stage ≥ 0x80 then d
  else if 0x81 ≤ stage && stage ≤ 0x85 then bootStop (modPin d fun p => { p with resetN := true }) stage
  else if stage = 8 then leaveOut fz d dies cores else d

/-! ### SMBus telemetry (R555) -/

/-- An answer on the SMBus: none before the controller has its address. Log entry 33 PRESUMED. -/
def smb (d : Dev) (b : Bytes) : Dev := if d.pin.smbAddr.isSome then send d (.smb b) else d
/-- PKG_ID (R44). -/
def pkgId (fz : Fuses) : Nat := partCode fz.variant * 65536 + fz.stepLetter * 256 + fz.stepDigit * 16
/-- The role code of TWN_STAT (R506). -/
def twnRole : Role → Nat
  | .detached => 0
  | .lead => 1
  | .follow => 2
  | .solo => 3
  | .arbitrating => 4
  | .quarantined => 5
  | .attaching => 6
/-- The byte of command STATUS. -/
def smbStatus (d : Dev) : Nat :=
  b2n d.wdn.safe.on + 2 * b2n (!faultN d) + 4 * b2n d.pin.trip + 8 * b2n d.pin.ready + 16 * b2n d.pin.leftOut + 32 * twnRole d.twin.role
/-- A measured quantity of 16 bits: the spec states no value, so it is free (log entry 2). Log entries 32 DESIGN CHOICE, 33 PRESUMED. -/
def smbMeasured (d : Dev) (known : Bool) : Dev :=
  if known then let r := freeVal d; smb r.2 (leBytes 2 r.1) else smb d (leBytes 2 0x8000)

/-! ### The test access port (R556) -/

/-- A test port instruction is taken while VDD_IO is present. Log entry 34 PRESUMED. -/
def tap (d : Dev) (ir : TapIr) (drive : PinDrive) (v n : Nat) : Dev :=
  if !d.pin.vddIo then d else send (modPin d fun p => { p with tapIr := ir, drive := drive }) (.tap (v % 2 ^ n) n)
/-- IDCODE. Log entry 34 PRESUMED. -/
def idCode (fz : Fuses) : Nat := fz.stepDigit % 16 * 2 ^ 28 + partCode fz.variant * 2 ^ 12 + Config.mfrCode % 2048 * 2 + 1
/-- SPI_ACCESS writes the flash while RESET_N is low (R551). -/
def fxSpi (d : Dev) (addr : Nat) (data : Bytes) : Dev :=
  if !d.pin.vddIo || d.pin.resetN then d else
  let bytes := data.zipIdx.filter fun x => decide (addr + x.2 < 2 ^ 26)
  modPin d fun p => { p with tapIr := .spi, drive := .part, flash := bytes.foldl (fun t x => tput t (addr + x.2) x.1) p.flash }

/-! ### Links of field ports (R472, R558) -/

/-- A field port loses or regains its link. Log entries 81 DEDUCED, 85 DESIGN CHOICE. -/
def fxFieldLink (d : Dev) (port : Nat) (up : Bool) : Dev :=
  if port ≥ 8 then d else
  let m := d.fab.fieldUp - (if bitAt d.fab.fieldUp port then 2 ^ port else 0)
  setLive (modFab d fun x => { x with fieldUp := if up then m + 2 ^ port else m }) 0x088 (port / 4) (0xC8 + port) port (!up && portEn d port)

/-- POWER_ON. -/
def execPowerOn (s : State) : Host.Outcome State Fault Refusal := onFz s fxPowerOn
/-- POWER_LOSS. -/
def execPowerLoss (s : State) : Host.Outcome State Fault Refusal := onFz s fxPowerLoss
/-- PWR_GOOD_RISE. -/
def execPwrGoodRise (s : State) : Host.Outcome State Fault Refusal := onDev s fxPwrGood
/-- RESET_N_LOW. -/
def execResetNLow (us : Nat) (s : State) : Host.Outcome State Fault Refusal := onFz s fun fz d => fxResetLow fz d us
/-- PACKAGE_RESET. -/
def execPackageReset (s : State) : Host.Outcome State Fault Refusal := onFz s packageReset
/-- BOOT. -/
def execBoot (cfgOk imgOk : Bool) (s : State) : Host.Outcome State Fault Refusal := onFz s fun fz d => fxBoot fz d cfgOk imgOk
/-- BOOT_READY. -/
def execBootReady (failDies : Nat) (failCores : List (Nat × Nat)) (s : State) : Host.Outcome State Fault Refusal :=
  onFz s fun fz d => fxBootReady fz d failDies failCores
/-- BOOT_FAILURE. -/
def execBootFailure (stage dies : Nat) (cores : List (Nat × Nat)) (s : State) : Host.Outcome State Fault Refusal :=
  onFz s fun fz d => fxBootFailure fz d stage dies cores
/-- THERMAL_TRIP. -/
def execThermalTrip (die : Nat) (temp : Int) (s : State) : Host.Outcome State Fault Refusal := onDie s die fun _ m d => (m, fxThermal d die temp)
/-- TAP_RESET (R554): the test port only; it selects IDCODE and gives the pins back. Log entry 34 PRESUMED. -/
def execTapReset (s : State) : Host.Outcome State Fault Refusal := onDev s fun d => modPin d fun p => { p with tapIr := .idcode, drive := .part }
/-- BYPASS: one bit of delay. -/
def execBypass (tdi bits : Nat) (s : State) : Host.Outcome State Fault Refusal := onDev s fun d => tap d .bypass .part (2 * tdi) bits
/-- IDCODE. -/
def execIdcode (s : State) : Host.Outcome State Fault Refusal := onFz s fun fz d => tap d .idcode .part (idCode fz) 32
/-- SAMPLE/PRELOAD: the pins are shifted out, the boundary register is loaded. -/
def execSamplePreload (pins tdi bits : Nat) (s : State) : Host.Outcome State Fault Refusal :=
  onDev s fun d => if d.pin.vddIo then modPin (tap d .sample .part pins bits) fun p => { p with boundary := tdi % 2 ^ bits } else d
/-- EXTEST: the pins are shifted out, the boundary register is loaded and drives them. -/
def execExtest (pins tdi bits : Nat) (s : State) : Host.Outcome State Fault Refusal :=
  onDev s fun d => if d.pin.vddIo then modPin (tap d .extest (.boundary (tdi % 2 ^ bits)) pins bits) fun p => { p with boundary := tdi % 2 ^ bits } else d
/-- CLAMP: the boundary register drives the pins, the bypass register is selected. -/
def execClamp (s : State) : Host.Outcome State Fault Refusal := onDev s fun d => tap d .clamp (.boundary d.pin.boundary) 0 0
/-- HIGHZ: no covered pin is driven. -/
def execHighz (s : State) : Host.Outcome State Fault Refusal := onDev s fun d => tap d .highz .highz 0 0
/-- SPI_ACCESS. -/
def execSpiAccess (addr : Nat) (data : Bytes) (s : State) : Host.Outcome State Fault Refusal := onDev s fun d => fxSpi d addr data
/-- SMB_ID. -/
def execSmbId (s : State) : Host.Outcome State Fault Refusal := onFz s fun fz d => smb d (leBytes 2 (pkgId fz / 65536))
/-- SMB_STEPPING. -/
def execSmbStepping (s : State) : Host.Outcome State Fault Refusal := onFz s fun fz d => smb d (leBytes 1 fz.stepLetter ++ leBytes 1 fz.stepDigit)
/-- SMB_STAGE. -/
def execSmbStage (s : State) : Host.Outcome State Fault Refusal := onDev s fun d => smb d (leBytes 1 d.pin.stage)
/-- SMB_STATUS. -/
def execSmbStatus (s : State) : Host.Outcome State Fault Refusal := onDev s fun d => smb d (leBytes 1 (smbStatus d))
/-- SMB_DIE_TEMP: 0x8000 for an absent die. -/
def execSmbDieTemp (die : Nat) (s : State) : Host.Outcome State Fault Refusal := onFz s fun fz d => smbMeasured d (decide (die < popDies fz))
/-- SMB_HOTTEST_TEMP. -/
def execSmbHottestTemp (s : State) : Host.Outcome State Fault Refusal := onDev s fun d => smbMeasured d true
/-- SMB_RAIL_VOLTAGE. -/
def execSmbRailVoltage (rail : Nat) (s : State) : Host.Outcome State Fault Refusal := onDev s fun d => smbMeasured d (decide (rail ≤ 6))
/-- SMB_INPUT_POWER. -/
def execSmbInputPower (s : State) : Host.Outcome State Fault Refusal := onDev s fun d => smbMeasured d true
/-- SMB_SERIAL. -/
def execSmbSerial (s : State) : Host.Outcome State Fault Refusal := onFz s fun fz d => smb d (leBytes 8 fz.serial)
/-- SMB_SAFE_CNT. -/
def execSmbSafeCnt (s : State) : Host.Outcome State Fault Refusal := onDev s fun d => smb d (leBytes 4 (rget d 0x200018))
/-- SMB_WRITE: not acknowledged; no command changes state. -/
def execSmbWrite (_cmd : Nat) (_data : Bytes) (s : State) : Host.Outcome State Fault Refusal := idle s
/-- FIELD_PORT_LINK. -/
def execFieldPortLink (port : Nat) (up : Bool) (s : State) : Host.Outcome State Fault Refusal := onDev s fun d => fxFieldLink d port up

end Sys2Proof.Machine
end

