-- ==== Sys2Proof/Machine/Predict.lean ====
section
/-! DEFINITION. Predictor passes of the maps (R112, R211 to R216) and the builds of their BVHs (R102). -/
namespace Sys2Proof.Machine

/-- A record of a frame as the history takes it: confidence, channels 1 to 3, and what it covers: a sphere, a box turned by a yaw, or a run of voxels. -/
structure PredRec where
  conf : Nat
  chan : List Int
  shape : Nat
  pos : V3
  ext : V3
  yaw : Int
  run : Nat
  deriving DecidableEq, Repr, Inhabited
/-- The records of one accepted frame (R126, R214). -/
def predRecs (f : Bytes) : List PredRec :=
  if fld f 1 1 = 1 then
    (frameRecs f 40).map fun r =>
      let v := fun i => iclamp (floorShr (sfld r (20 + 2 * i) 2) 4) (-128) 127
      let e := fun i => (64 * fld r (26 + 2 * i) 2 : Nat)
      { conf := fld r 6 1, chan := [(fld r 4 1 : Nat) - 128, v 0, v 1], shape := if fld r 5 1 = 1 then 1 else 0, pos := v3fld r 8,
        ext := ⟨(e 0 : Int), (e 1 : Int), (e 2 : Int)⟩, yaw := sfld r 32 2 * 65536, run := 0 }
  else
    (frameRecs f 8).map fun r =>
      let z := fld r 4 4
      { conf := bits z 31 24, chan := [-128, 0, 0], shape := 2, pos := ⟨(fld r 0 2 : Nat), (fld r 2 2 : Nat), (bits z 11 0 : Nat)⟩, ext := V3.of 0, yaw := 0,
        run := bits z 23 12 }
/-- A record covers cell `c` (its index over the map) of a map with cells of 2^e voxels (R214). Log entries 64 DEDUCED, 74 DEDUCED. -/
def covers (m : MapRec) (e : Nat) (r : PredRec) (c : V3) : Bool :=
  if r.shape = 2 then
    let lo := c.map fun i => i * 2 ^ e
    let hi := c.map fun i => (i + 1) * 2 ^ e
    decide (lo.y ≤ r.pos.y) && decide (r.pos.y < hi.y) && decide (lo.z ≤ r.pos.z) && decide (r.pos.z < hi.z) && decide (r.pos.x < hi.x) && decide (lo.x < r.pos.x + r.run)
  else
    let p := (m.boxMin.add (c.map fun i => (2 * i + 1) * 2 ^ (m.k + e - 1))).sub r.pos
    if r.shape = 0 then decide (p.dot p ≤ r.ext.x * r.ext.x) else
    let cs := cosFrac (angFrac r.yaw); let sn := sinFrac (angFrac r.yaw)
    decide ((cs * p.x + sn * p.y).natAbs ≤ (r.ext.x * 2 ^ 30).toNat) && decide ((cs * p.y - sn * p.x).natAbs ≤ (r.ext.y * 2 ^ 30).toNat) &&
    decide (p.z.natAbs ≤ r.ext.z.toNat)
/-- The four channels of a cell from the records in ledger order: the greatest confidence, the later on ties; none where nothing covers it. -/
def cellChan (m : MapRec) (e : Nat) (rs : List PredRec) (c : V3) : Option Bytes :=
  (rs.foldl (fun (best : Option PredRec) r =>
    if !covers m e r c then best else match best with
      | some b => if b.conf ≤ r.conf then some r else best
      | none => some r) none).map fun r => leBytes 1 (r.conf / 2) ++ r.chan.flatMap (sbytes 1)
/-- The first cell of a tile, over the map. -/
def tileCell (m : MapRec) (cd : Nat × Nat × Nat) (t : Nat) : V3 :=
  let n := mapTiles m
  ⟨(t : Int) % max 1 n.x * cd.1, (t : Int) / max 1 n.x % max 1 n.y * cd.2.1, (t : Int) / max 1 n.x / max 1 n.y * cd.2.2⟩
/-- Cells of a tile, x first. -/
def tileCells (cd : Nat × Nat × Nat) : List V3 :=
  (List.range cd.2.2).flatMap fun (z : Nat) => (List.range cd.2.1).flatMap fun (y : Nat) => (List.range cd.1).map fun (x : Nat) => (⟨(x : Int), (y : Int), (z : Int)⟩ : V3)
/-- Number of a cell in its tile. -/
def cellNo (cd : Nat × Nat × Nat) (c : V3) : Nat := (c.x % cd.1 + cd.1 * (c.y % cd.2.1 + cd.2.1 * (c.z % cd.2.2))).toNat
/-- The history after a shift: the new frame first, `hh` frames, for the tiles of the region (R213, R214). -/
def shiftHist (m : MapRec) (raw : Bytes) (region : List Nat) (rs : List PredRec) : Tab (List (Tab Bytes)) :=
  let e := bits (fld raw 3 1) 1 0; let cd := predCells raw
  region.foldl (fun (t : Tab (List (Tab Bytes))) tile =>
    let o := tileCell m cd tile
    let f := (tileCells cd).foldl (fun (g : Tab Bytes) c => match cellChan m e rs (o.add c) with
      | some b => tput g (cellNo cd c) b
      | none => g) []
    tput t tile ((f :: tgetD m.hist tile []).take (fld raw 4 1))) []
/-- The bank row of buffer 0 for one cell position: channel 4h + c is channel c of frame h; 0 outside the region or the site box. -/
def cellRow (m : MapRec) (raw : Bytes) (hist : Tab (List (Tab Bytes))) (c : V3) : Bytes :=
  let cd := predCells raw; let n := mapTiles m
  let inSite := decide (0 ≤ c.x) && decide (0 ≤ c.y) && decide (0 ≤ c.z) && decide (c.x < n.x * cd.1) && decide (c.y < n.y * cd.2.1) && decide (c.z < n.z * cd.2.2)
  if !inSite then zeros 64 else
  let t := (c.x / max 1 cd.1 + n.x * (c.y / max 1 cd.2.1 + n.y * (c.z / max 1 cd.2.2))).toNat
  match tget hist t with
  | none => zeros 64
  | some fs => fit 64 (fs.flatMap fun f => tgetD f (cellNo cd c) (zeros 4))
/-- Buffer 0 of a tile: its cells grown by the halo (R211). -/
def tileInput (m : MapRec) (raw : Bytes) (hist : Tab (List (Tab Bytes))) (tile : Nat) : Bytes :=
  let cd := predCells raw; let r := fld raw 5 1
  let o := (tileCell m cd tile).sub (V3.of r)
  (tileCells (cd.1 + 2 * r, cd.2.1 + 2 * r, cd.2.2 + 2 * r)).flatMap fun c => cellRow m raw hist (o.add c)
/-- The words that a tile's output gives its voxels, hard and risk plane (R215). Log entry 64 DEDUCED. -/
def tileWords (m : MapRec) (raw : Bytes) (tile : Nat) (out : Bytes) : List PredWord :=
  let cd := predCells raw; let e := bits (fld raw 3 1) 1 0
  let n := (2 ^ e : Nat)
  (tileCells cd).flatMap fun (c : V3) =>
    let p := cellNo cd c
    let v := ((tileCell m cd tile).add c).map fun i => i * (n : Int)
    (tileCells (n, n, n)).flatMap fun i =>
      [{ plane := 0, vox := v.add i, word := BitVec.ofNat 64 (fld out (16 * p) 8) }, { plane := 1, vox := v.add i, word := BitVec.ofNat 64 (fld out (16 * p + 8) 8) }]
/-- What is left of a pass after its cores have worked `budget` reserve cycles each: region tile i runs on the core of logical tile i mod 128, a core's tiles in
ascending number (R215). Log entry 64 DEDUCED. -/
def passLeft (map : List Nat) (budget : Nat) (left : List (Nat × Nat)) : List (Nat × Nat) :=
  (left.foldl (fun (acc : Tab Nat × List (Nat × Nat)) x =>
    match map[x.1 % 128]? with
    | none => (acc.1, acc.2 ++ [x])
    | some v =>
      let used := tgetD acc.1 v 0
      let n := min x.2 (budget - used)
      (tput acc.1 v (used + n), if n = x.2 then acc.2 else acc.2 ++ [(x.1, x.2 - n)])) ([], [])).2
/-- The passes that run when the tile map changes: the turns up to now are worked off on the old map, and a tile whose core changes begins again (R32, R215, R216).
Log entry 64 DEDUCED. -/
def movePasses (d : Dev) (old : List Nat) : Dev :=
  { d with world := { d.world with maps := tmap (fun _ (m : MapRec) =>
      match m.pass with
      | none => m
      | some p =>
        if p.ends = 0 then m else
        let left := passLeft old ((d.time.turn - p.since) * (predSlot (actImg d) p.slot).rp) p.left
        { m with pass := some { p with since := d.time.turn,
                                       left := left.map fun x => if old[x.1 % 128]? = d.pkg.map[x.1 % 128]? then x else (x.1, p.cost) } }) d.world.maps } }
/-- Work of a pass is not done by the last cycle for work of its last turn (R216). -/
def passLate (d : Dev) (p : PredPass) : Bool := !(passLeft d.pkg.map ((p.ends + 1 - p.since) * (predSlot (actImg d) p.slot).rp) p.left).isEmpty
/-- A pass is due to start in this turn (R112). -/
def passDue (d : Dev) (m : MapRec) : Bool := m.pass.isSome && !m.removed && m.predPeriod != 0 && d.time.turn % max 1 m.predPeriod == 0
/-- PREDICTOR_PASS_START (R112, R214, R216): a pass that still runs skips this start. Log entry 64 DEDUCED. -/
def fxPassStart (d : Dev) (h : Nat) : Dev :=
  match tget d.world.maps h with
  | none => d
  | some m =>
    match m.pass, m.model with
    | some p, some k =>
      if !running d || !passDue d m || (p.ends ≠ 0 && p.start = d.time.turn) then d
      else if p.ends ≠ 0 then modMap d h fun m => { m with predSkip := satInc m.predSkip 1 }
      else
        let raw := curModelRaw d k
        let sl := predSlot (actImg d) p.slot
        let boxes := (feeding d h).map fun s => (s.2.coverMin, s.2.coverMax)
        let region := predRegion m boxes
        let hist := shiftHist m raw region ((tgetD d.world.frames h []).flatMap predRecs)
        let outs := region.map fun t => (t, netRun raw (tileInput m raw hist t) none)
        let d := if d.pkg.m < sl.mMin then raise d 0x03C 0 0xF0 h else d
        let pass := { p with start := d.time.turn, ends := d.time.turn + max 1 sl.lp, boxes := boxes, words := some (outs.flatMap fun o => tileWords m raw o.1 o.2.out),
                             fault := outs.any fun o => o.2.fault, sat := outs.any fun o => o.2.accSat,
                             left := (List.range region.length).map fun i => (i, predTileCost raw), since := d.time.turn, cost := predTileCost raw }
        let d := outs.zipIdx.foldl (fun d o => tileWork d o.2 (tnsWork o.1.2)) d
        let d := modMap d h fun m => { m with hist := hist, pass := some pass }
        { d with world := { d.world with frames := tdel d.world.frames h } }
    | _, _ => d
/-- The blind fills that follow a pass: streams in timeout, or taken out of it by a frame of a ledger that the pass's start turn does not follow (R128). -/
def refills (d : Dev) (h start : Nat) : List (Nat × Change) :=
  ((feeding d h).filter fun s => s.2.timedOut || (s.2.resumeTurn != 0 && decide (start ≤ s.2.resumeTurn))).map fun s => (3, .blind (blindPlaneOf s.2.blindPlane) s.2.coverMin s.2.coverMax)
/-- PREDICTOR_PASS_END (R215, R216): the output is applied at this turn's formation, or the pass is dropped. Log entry 64 DEDUCED. -/
def fxPassEnd (d : Dev) (h : Nat) : Dev :=
  match tget d.world.maps h with
  | none => d
  | some m =>
    match m.pass with
    | none => d
    | some p =>
      if p.ends = 0 || d.time.turn < p.ends then d else
      let d := if p.fault then raise d 0x03D 0 0xF0 h else d
      if p.fault || passLate d p then dropPass d h else
      let d := if p.sat then raise d 0x03E 0 0xF0 h else d
      modMap d h fun m => { m with pass := some { (default : PredPass) with slot := p.slot },
                                   events := if p.boxes.isEmpty then m.events else m.events ++ [(1, .pred p.boxes (p.words.getD []))] ++ refills d h p.start }
/-- BVH_BUILD_END (R102): the staged statics have their tree. -/
def fxBvhEnd (d : Dev) (h : Nat) : Dev :=
  match tget d.world.maps h with
  | none => d
  | some m =>
    match m.build with
    | .start t =>
      if d.time.turn < t then d else
      let prims := allPrims m.staged.objs
      modMap d h fun x => { x with build := .ready prims (bvhBuild m.boxMin m.boxMax prims) }
    | _ => d

/-- PREDICTOR_PASS_START. -/
def execPredictorPassStart (map : Nat) (s : State) : Host.Outcome State Fault Refusal := onDev s fun d => fxPassStart d map
/-- PREDICTOR_PASS_END. -/
def execPredictorPassEnd (map : Nat) (s : State) : Host.Outcome State Fault Refusal := onDev s fun d => fxPassEnd d map
/-- BVH_BUILD_END. -/
def execBvhBuildEnd (map : Nat) (s : State) : Host.Outcome State Fault Refusal := onDev s fun d => fxBvhEnd d map

end Sys2Proof.Machine
end

