-- ==== Sys2Proof/Machine/Mirror.lean ====
section
/-! DEFINITION. What fabric DATA frames carry (R511, R520 to R525): mirror blocks and the witness service. -/
namespace Sys2Proof.Machine

/-! ### Mirror blocks, as the source (R521) -/

/-- A mirror's local map as far as its geometry goes, of the source's k. -/
def mirrorGeo (m : MirrorRec) (k : Nat) : MapRec := { (default : MapRec) with boxMin := m.boxMin, boxMax := m.boxMax, k := k }
/-- The first voxel of a tile. -/
def tileVox (m : MapRec) (t : Nat) : V3 := cellVox m (t * 16 * 4096)
/-- The tile of the local map that a tile of the source is, where it lies in the mirror box. -/
def localTile (src : MapRec) (m : MirrorRec) (t : Nat) : Option Nat :=
  let e : Int := 2 ^ src.k
  let v := tileVox src t
  let p := src.boxMin.add (v.map (· * e))
  if V3.all2 (fun a b => decide (a ≤ b)) m.boxMin p && V3.all2 (fun a b => decide (a < b)) p m.boxMax then
    let g := mirrorGeo m src.k
    some (tileOf g (voxOf g p))
  else none
/-- One brick record: its word, then 32 KiB of words unless the brick is absent. -/
def brickRec (v : MapVer) (base tile lt b plane : Nat) : Bytes :=
  match tget v.bricks (brickKey plane tile b) with
  | none => leBytes 4 (lt + 65536 * b + 2 ^ 20 * plane + 2 ^ 22)
  | some k =>
    let ws := (rebaseBrick base k).words
    leBytes 4 (lt + 65536 * b + 2 ^ 20 * plane) ++ (List.range 4096).flatMap fun i => leBytes 8 (tgetD ws i 0).toNat
/-- A mirror block (R521). -/
def mirrorBlock (src : MapRec) (v : MapVer) (base : Nat) (m : MirrorRec) (full : Bool) (tiles : List Nat) : Bytes :=
  let ts := (if full then List.range (mapTileCount src) else tiles).filterMap fun t => (localTile src m t).map fun l => (l, t)
  let ts := sortBy (fun (a b : Nat × Nat) => decide (a.1 ≤ b.1)) ts
  let recs := ts.flatMap fun t => (List.range 16).flatMap fun b => (List.range 3).map fun p => brickRec v base t.2 t.1 b p
  let recs := if full then recs.filter fun r => decide (r.length > 4) else recs
  let h := leBytes 4 m.nextBlock ++ leBytes 1 m.srcMap ++ leBytes 1 m.localMap ++ leBytes 1 (b2n full) ++ zeros 1 ++ leBytes 4 v.ver ++ leBytes 6 base ++ zeros 2 ++
    leBytes 4 recs.length
  let body := recs.flatten
  h ++ leBytes 8 (crc64 0 (h ++ body)) ++ body
/-- Payloads of at most 9,144 bytes. -/
def pieces : Nat → Bytes → List Bytes
  | 0, _ => []
  | n + 1, b => if b.isEmpty then [] else b.take 9144 :: pieces n (b.drop 9144)
/-- A block sent to one package of the subscriber's pair, noting the sequence number of its last frame. -/
def sendBlock (d : Dev) (id : Nat) (block : Bytes) : Dev × Nat :=
  let ps := pieces (block.length / 9144 + 1) block
  let c := chanOf d id 2
  (ps.foldl (fun d b => dataSend d id 2 b) d, (c.next + c.queue.length + ps.length + 2 ^ 32 - 1) % 2 ^ 32)
/-- The packages of a subscriber's pair. -/
def subIds (d : Dev) (m : MirrorRec) : List Nat := m.subId :: (d.fab.members.filterMap fun x => if x.1 = m.subId && x.2.1 ≠ 0xff then some x.2.1 else none)
/-- One mirror of map `h` after its version `v` has formed with a delta: both packages of the subscriber's pair get the same block; a follow counts it and would
send a full one first (R521). Log entry 77 DEDUCED. -/
def mirrorOut (d : Dev) (h : Nat) (src : MapRec) (v : MapVer) (base : Nat) (dl : Delta) (m : MirrorRec) : Dev :=
  let tiles := (dl.hard ++ dl.risk ++ dl.resv).eraseDups
  let hit := tiles.any fun t => (localTile src m t).isSome
  let dests := (subIds d m).filter fun i => !(pairIds d).contains i
  if d.twin.role = .follow then
    if m.srcMap ≠ h || !hit then d else
    modFab d fun x => { x with mirrors := x.mirrors.map fun y => if sameMirror y m then { y with nextBlock := (y.nextBlock + 1) % 2 ^ 32, needFull := dests } else y }
  else if m.srcMap ≠ h || (!hit && !(dests.any fun i => m.needFull.contains i)) then d else
  let full := dests.any fun id => m.needFull.contains id || m.sent.any fun s => s.1 == id && decide (s.2.1 + 16 ≤ v.ver)
  let r := dests.foldl (fun (a : Dev × List (Nat × Nat × Nat)) id =>
    let s := sendBlock a.1 id (mirrorBlock src v base m full tiles)
    (s.1, a.2 ++ [(id, v.ver, s.2)])) (d, m.sent)
  modFab r.1 fun x => { x with mirrors := x.mirrors.map fun y => if sameMirror y m then
    { y with nextBlock := (y.nextBlock + 1) % 2 ^ 32, sent := r.2, needFull := y.needFull.filter fun i => !dests.contains i } else y }
/-- The mirrors of a map whose version has formed: the pair's LEAD or SOLO package sends them (R521). -/
def mirrorsOut (d : Dev) (h : Nat) (src : MapRec) (v : MapVer) (base : Nat) (dl : Delta) : Dev :=
  if d.fab.state ≠ .assigned || !(simplex d || d.twin.role == .lead || d.twin.role == .solo || d.twin.role == .follow) then d else
  (d.fab.mirrors.filter fun m => (pairIds d).contains m.srcId).foldl (fun d m => mirrorOut d h src v base dl m) d

/-! ### Mirror blocks, as the subscriber (R522, R523) -/

/-- Records of a block: the brick's key and its words, none for an absent brick; none where the bytes end too early. -/
def blockRecs : Nat → Bytes → Option (List (Nat × Option (Tab (BitVec 64))) × Bytes)
  | 0, b => some ([], b)
  | n + 1, b =>
    let w := fld b 0 4
    let key := brickKey (bits w 21 20) (bits w 15 0) (bits w 19 16)
    if b.length < 4 then none
    else if bitAt w 22 then (blockRecs n (b.drop 4)).map fun r => ((key, none) :: r.1, r.2)
    else if b.length < 32772 then none
    else
      let ws : Tab (BitVec 64) := (List.range 4096).filterMap fun i => let v := fld b (4 + 8 * i) 8; if v = 0 then none else some (i, BitVec.ofNat 64 v)
      (blockRecs n (b.drop 32772)).map fun r => ((key, if ws.isEmpty then none else some ws) :: r.1, r.2)
/-- A mirror that the package subscribes to, by source and local handle. -/
def mirrorIn (d : Dev) (src localMap : Nat) : Option MirrorRec :=
  let ids := (src :: (d.fab.members.filterMap fun x => if x.1 = src && x.2.1 ≠ 0xff then some x.2.1 else none))
  d.fab.mirrors.find? fun m => (pairIds d).contains m.subId && ids.contains m.srcId && m.localMap == localMap
/-- A whole block: held once its digest verifies; the follow reports it to the lead (R522). -/
def holdBlock (d : Dev) (src : Nat) (block : Bytes) (t : Nat) : Dev :=
  let lm := fld block 5 1; let no := fld block 0 4
  match mirrorIn d src lm with
  | none => d
  | some m =>
    if crc64 0 (block.take 24 ++ block.drop 32) ≠ fld block 24 8 then d else
    let put (y : MirrorRec) : MirrorRec := { y with held := insertBy (fun a b => decide (a.1 ≤ b.1)) (no, t, block) (y.held.filter fun h => h.1 != no) }
    let d := modFab d fun x => { x with mirrors := x.mirrors.map fun y => if sameMirror y m then put y else y }
    if d.twin.role = .follow then twinSend d (.mirrorHeld src lm no) else d
/-- A piece of a mirror block arrives in order (R521). -/
def takePiece (d : Dev) (src : Nat) (piece : Bytes) (t : Nat) : Dev :=
  let b := (chanOf d src 2).partBlock ++ piece
  if b.length < 32 then modChan d src 2 fun c => { c with partBlock := b } else
  match blockRecs (fld b 20 4) (b.drop 32) with
  | none => modChan d src 2 fun c => { c with partBlock := b }
  | some _ => holdBlock (modChan d src 2 fun c => { c with partBlock := [] }) src b t
/-- Blocks of a mirror that are placed at a cutoff: in block order, each after its predecessor or full, held by both packages or by the one
that serves alone; a full block discards those before it (R522). -/
def placeable (d : Dev) (m : MirrorRec) : Option Nat → List (Nat × Nat × Bytes) → List (Nat × Nat × Bytes)
  | _, [] => []
  | last, h :: t =>
    let both := d.twin.role != .lead || d.twin.held.any fun x => x.1 == m.srcId && x.2.1 == m.localMap && x.2.2 == h.1
    let next := bitAt (fld h.2.2 6 1) 0 || last == some ((h.1 + 2 ^ 32 - 1) % 2 ^ 32)
    if both && next then h :: placeable d m (some h.1) t else placeable d m last t
/-- The MAP entries of mirror blocks at a cutoff (R522). -/
def mirrorEntries (d : Dev) : List Entry × Dev :=
  if !(simplex d || d.twin.role == .lead || d.twin.role == .solo) then ([], d) else
  let mine := d.fab.mirrors.filter fun m => (pairIds d).contains m.subId
  let got := mine.map fun m => (m, placeable d m m.placed (m.held.filter fun h => match m.placed with
    | none => true
    | some p => decide (p < h.1) || bitAt (fld h.2.2 6 1) 0))
  let all := got.flatMap fun g => g.2.map fun h => (g.1.srcId, h)
  let ts := all.foldl (fun a h => max a h.2.2.1) 0
  let es := all.map fun h => ({ (default : Entry) with kind := 5, internal := true, source := srcFabric h.1, ctr := h.2.1, ts := stamp ts, payload := h.2.2.2.take 32 } : Entry)
  let mark (y : MirrorRec) : MirrorRec := match got.find? (fun g => sameMirror g.1 y) with
    | none => y
    | some g => match g.2.getLast? with
      | none => y
      | some h => { y with placed := some h.1 }
  let d := modTwin d fun x => { x with held := x.held.filter fun y => !all.any fun h => h.1 == y.1 && h.2.1 == y.2.2 && fld h.2.2.2 5 1 == y.2.1 }
  (es, modFab d fun x => { x with mirrors := x.mirrors.map mark })
/-- The block that a MAP entry names: the one the record holds in replay (R524), the one the mirror holds otherwise (R522). -/
def namedBlock (d : Dev) (m : MirrorRec) (e : Entry) : Option Bytes :=
  if d.ldg.replay then d.ldg.current.bind fun l => l.blocks.find? fun b => b.take 32 == e.payload
  else (m.held.find? fun h => h.1 == e.ctr).map (·.2.2)
/-- A MAP entry of source type 2 in its ledger turn: the block becomes a change of the local map (R522); a joiner that does not hold it takes the version that the
lead forwards (R500). -/
def fxMirrorEntry (d : Dev) (e : Entry) : Dev :=
  let lm := fld e.payload 5 1
  match mirrorIn d (e.source % 64) lm with
  | none => d
  | some m =>
    match namedBlock d m e with
    | none => modFab d fun x => { x with mirrors := x.mirrors.map fun y => if sameMirror y m then { y with placed := some e.ctr } else y }
    | some b =>
      let full := bitAt (fld b 6 1) 0
      let recs := ((blockRecs (fld b 20 4) (b.drop 32)).map (·.1)).getD []
      let d := modMap d lm fun r => { r with events := r.events ++ [(2, .mirror full (fld b 12 6) recs)] }
      let put (y : MirrorRec) : MirrorRec :=
        { y with placed := some e.ctr, stale := y.stale && !full, held := y.held.filter fun h => !(h.1 == e.ctr || (full && decide (h.1 < e.ctr))) }
      let d := modFab d fun x => { x with mirrors := x.mirrors.map fun y => if sameMirror y m then put y else y }
      let d := cnt d 0x40009C
      if full && m.stale then clearLive d 0x066 0 0xF0 lm else d

/-! ### The witness service (R525) -/

/-- One request answered: granted when the generation is newer than the pair's recorded one and the record can be written. Log entry 78 DEDUCED. -/
def witnessOne (d : Dev) (r : Nat × Nat × Nat × Nat) : Dev :=
  let key := min r.2.2.1 r.2.2.2
  let old := d.fab.witness.find? fun w => w.1 == key
  let room := old.isSome || decide (d.fab.witness.length < 32)
  let good := d.fab.state == .assigned && room && ((old.map fun w => newerGen r.2.1 w.2).getD true)
  let d := if good then modFab d fun x => { x with witness := (x.witness.filter fun w => w.1 != key) ++ [(key, r.2.1)] } else d
  dataSend (cnt d (if good then 0x4000A0 else 0x4000A4)) r.1 1 (leBytes 1 2 ++ leBytes 1 (b2n good) ++ leBytes 2 r.2.1 ++ leBytes 8 r.2.2.1)
/-- Requests of the turn are answered in ascending fabric id (R518, R525). Log entry 78 DEDUCED. -/
def answerWitness (d : Dev) : Dev :=
  let l := sortBy (fun (a b : Nat × Nat × Nat × Nat) => decide (a.1 ≤ b.1)) d.fab.witReqs
  l.foldl witnessOne (modFab d fun x => { x with witReqs := [] })
/-- A message on the witness channel: a request, answered at the end of the turn, or at once while no turns run; or an answer (R496, R525). Log entry 78 DEDUCED. -/
def takeWitness (fz : Fuses) (d : Dev) (src : Nat) (b : Bytes) : Dev :=
  if fld b 0 1 = 1 then
    let d := modFab d fun x => { x with witReqs := x.witReqs ++ [(src, fld b 2 2, fld b 4 8, fld b 12 8)] }
    if running d then d else answerWitness d
  else if fld b 0 1 = 2 && fld b 4 8 = fz.serial then witAnswer d (bitAt (fld b 1 1) 0) (fld b 2 2) else d

/-! ### DATA (R511) -/

/-- DATA: the frame is accepted in order or dropped, and the number expected is acknowledged. -/
def fxData (fz : Fuses) (d : Dev) (f : FabFrame) (t : Nat) : Dev :=
  fabIn d f t fun d =>
    let src := fabFrom f; let ch := bits (fld f.body 1 1) 2 0; let seq := fld f.body 4 4
    if fld f.body 3 1 ≠ d.fab.id || d.fab.state ≠ .assigned || !(ch == 1 || ch == 2) || src > 63 then d else
    let d := takeAck d src ch (fld f.body 8 4)
    let d := if bitAt (fld f.body 14 1) 0 then modChan d src ch fun c => if c.expect = (seq + 1) % 2 ^ 32 then c else { c with expect := seq, partBlock := [] } else d
    let take := (chanOf d src ch).expect == seq
    let d := if take then modChan d src ch fun c => { c with expect := (seq + 1) % 2 ^ 32 } else d
    let d := fabTo d src (fabFrame d 4 ch src 0 (chanOf d src ch).expect false [])
    if !take then d else if ch = 1 then takeWitness fz d src (fabPayload f) else takePiece d src (fabPayload f) t

/-- DATA. -/
def execData (f : FabFrame) (t : Nat) (s : State) : Host.Outcome State Fault Refusal := onFz s fun fz d => fxData fz d f t

end Sys2Proof.Machine
end

