-- ==== Sys2Proof/Machine/Motion.lean ====
section
/-! DEFINITION. Poses along primitives, rungs of a stop and their checks (R226, R233 to R236, R405), candidates against staged halves, footprints
(R245, R246). -/
namespace Sys2Proof.Machine

/-- A pose: base position and yaw, joint values as model values (R132). -/
structure Pose where
  x : Int
  y : Int
  yaw : Int
  q : List Int
  deriving DecidableEq, Repr, Inhabited

/-- Nanoseconds of a second. -/
def nsec : Int := 1000000000
/-- An angle brought into −π to π, both kept (R137). -/
def wrapYaw (a : Int) : Int :=
  if -1686629713 ≤ a ∧ a ≤ 1686629713 then a else (a + 1686629713) % 3373259426 - 1686629713
/-- No motion. -/
def zeroVel (n : Nat) : Vel := { vx := 0, vy := 0, w := 0, qd := List.replicate n 0 }
/-- Every component is 0. -/
def Vel.isZero (v : Vel) : Bool := v.vx == 0 && v.vy == 0 && v.w == 0 && v.qd.all (· == 0)

/-! ### Primitives (R137, R138) -/

/-- The set is a lattice set. -/
def isLattice (s : Bytes) : Bool := fld s 0 1 == 1
/-- Samples of the primitive record at offset `o`. -/
def primT (s : Bytes) (o : Nat) : Nat := if isLattice s then fld s (o + 4) 1 else fld s o 1
/-- Its duration in ns. -/
def primDur (s : Bytes) (o : Nat) : Nat := if isLattice s then fld s (o + 12) 4 else fld s (o + 8) 4
/-- Its edge cost. -/
def primCost (s : Bytes) (o : Nat) : Nat := if isLattice s then fld s (o + 8) 4 else fld s (o + 4) 4
/-- It ends at rest. -/
def primRest (s : Bytes) (o : Nat) : Bool := if isLattice s then bitAt (fld s (o + 5) 1) 0 else bitAt (fld s (o + 1) 1) 0
/-- It drives backwards. -/
def primRev (s : Bytes) (o : Nat) : Bool := isLattice s && bitAt (fld s (o + 5) 1) 1
/-- Time of sample `j` after the start of a motion of `t` samples (R137). -/
def sampleAt (dur t j : Nat) : Nat := dur * (j + 1) / max 1 t
/-- The pose at sample `j` of the primitive at offset `o`, begun at node `n`. -/
def primPose (s : Bytes) (o : Nat) (n : Node) (j : Nat) : Pose :=
  if isLattice s then
    let e := o + 32 + 12 * j
    { x := n.x + sfld s e 4, y := n.y + sfld s (e + 4) 4, yaw := wrapYaw (headAngle (fld s 10 1) (fld s o 2 : Nat) + sfld s (e + 8) 4), q := n.q }
  else
    let k := n.q.length
    { x := n.x, y := n.y, yaw := n.yaw, q := n.q.zipIdx.map fun p => p.1 + sfld s (o + 16 + 4 * (k * j + p.2)) 4 }
/-- The displacement at sample `j`: base x, y and yaw, joints. -/
def primStep (s : Bytes) (o k j : Nat) : Vel :=
  if isLattice s then
    let e := o + 32 + 12 * j
    { vx := sfld s e 4, vy := sfld s (e + 4) 4, w := sfld s (e + 8) 4, qd := List.replicate k 0 }
  else { vx := 0, vy := 0, w := 0, qd := (List.range k).map fun i => sfld s (o + 16 + 4 * (k * j + i)) 4 }
/-- The velocity at the end of a primitive: the last two samples' difference over their time difference, the start standing before a single
sample (R234); a primitive that ends at rest has none (R233). Log entry 68 DEDUCED. -/
def primVel (s : Bytes) (o k : Nat) : Vel :=
  if primRest s o then zeroVel k else
  let t := primT s o; let dur := primDur s o
  let b := primStep s o k (t - 1)
  let a := if t ≤ 1 then zeroVel k else primStep s o k (t - 2)
  let dt : Int := max 1 ((dur : Int) - (if t ≤ 1 then 0 else sampleAt dur t (t - 2) : Nat))
  let r := fun (x y : Int) => rdivAway ((x - y) * nsec) dt
  { vx := r b.vx a.vx, vy := r b.vy a.vy, w := r b.w a.w, qd := List.zipWith r b.qd a.qd }
/-- The successor of a node by primitive `p` of slot `slot`, whose record lies at offset `o` (R224, R226); key, residual and heuristic still to come. -/
def primNext (s : Bytes) (slot p o : Nat) (me : Nat × Nat) (n : Node) : Node :=
  let e := primPose s o n (primT s o - 1)
  let hs := fld s 10 1
  let h := fld s (o + 2) 2
  let lat := isLattice s
  { parent := some me, prim := p, set := slot, depth := n.depth + 1, heading := if lat then h else n.heading, hs := if lat then hs else n.hs, x := e.x, y := e.y,
    yaw := if lat then headAngle hs (h : Nat) else n.yaw, tOff := n.tOff + primDur s o, g := min 0xffffffff (n.g + primCost s o), h := 0,
    seq := (n.seq * 65539 + p + 1) % 2 ^ 32, key := 0, residual := 0, q := e.q, vel := primVel s o n.q.length, rest := primRest s o, clearance := 0 }
/-- Sphere centres of a pose with what the solver noted (R265). -/
def poseCentres (m : Bytes) (p : Pose) : List V3 × SolFlags :=
  fkCentres m { x := p.x, y := p.y, yaw := p.yaw } p.q
/-- Radii with margin of a model (R139). -/
def radii (m : Bytes) : List Int := (List.range (kinS m)).map (kinRho m)
/-- The sample and joint at which the primitive at offset `o` begun at `n` leaves the joint limits (R166, R267). -/
def primLimit (s model : Bytes) (o : Nat) (n : Node) : Option (Nat × Nat) :=
  if isLattice s then none else limitSample model ((List.range (primT s o)).map fun j => (primPose s o n j).q)
/-- Centres at every sample of the primitive at offset `o` begun at `n`: the swept-sphere table of a lattice set, FK otherwise (R139, R166), and what the solver
noted on the rows that it writes, those before the limit sample (R267). -/
def primCentres (s build model : Bytes) (p o : Nat) (n : Node) : List (List V3) × SolFlags :=
  if isLattice s then
    ((List.range (primT s o)).map fun j => (List.range (kinS build)).map fun i => let e := setEntry s build p j i; (⟨n.x + e.x, n.y + e.y, e.z⟩ : V3), {})
  else
    let stop := ((primLimit s model o n).map (·.1)).getD (primT s o)
    (List.range (primT s o)).foldl (fun (acc : List (List V3) × SolFlags) j =>
      let r := poseCentres model (primPose s o n j)
      (acc.1 ++ [r.1], if j < stop then acc.2.join r.2 else acc.2)) ([], {})
/-- What the solver's work on a joint-space primitive counts (R267, R283). -/
def primWork (s model : Bytes) (o : Nat) (n : Node) (sat : Nat) : Work :=
  if isLattice s then [] else
  let lim := primLimit s model o n
  rowsCount 1 (b2n lim.isSome) (rowsMacs model ((lim.map (·.1)).getD (primT s o))) sat

/-! ### One candidate against a half -/

/-- What a check stages from: maps, content_id, slice length, excluded agent, reach, entries (handle, planes, k, version). -/
structure CheckEnv where
  maps : Tab MapRec
  content : Nat
  sliceMs : Nat
  excl : Option Nat
  reach : Int
  entries : List (Nat × Nat × Nat × Nat)
  deriving DecidableEq, Repr, Inhabited
/-- The stage descriptor for the window `w` that the schedule chose (R157). Log entry 71 DESIGN CHOICE. -/
def windowDesc (e : CheckEnv) (w : List Int) : StageDesc :=
  let g := fun i => w.getD i 0
  { maps := e.entries.length, g := (g 0).toNat, sliceMs := e.sliceMs, origin := ⟨g 1, g 2, g 3⟩, cells := ⟨g 4, g 5, g 6⟩, sigmaW := (g 7).toNat, excl := e.excl,
    reach := e.reach, fineRow := 0, fineMax := (g 8).toNat, geoMax := (g 9).toNat, geoRow := 2 ^ 18,
    entries := e.entries.map fun x => { (default : StageEntry) with handle := x.1, planes := x.2.1, k := x.2.2.1, version := x.2.2.2 } }
/-- The numbers that describe the staging itself: slice length, reach, and each map entry's handle, planes and voxel exponent. -/
def envNums (e : CheckEnv) : List Int := (e.sliceMs : Int) :: e.reach :: e.entries.flatMap fun x => [(x.1 : Int), (x.2.1 : Int), (x.2.2.1 : Int)]
/-- The half of candidate `n` of a batch with the scratch memory that holds its fine and geometry areas; none where the window breaks a range of R157. Log entry 71 DESIGN CHOICE. -/
def halfFor (e : CheckEnv) (purpose : Nat) (batch : List Int) (n : Nat) : Option (Half × Mem) :=
  (stageHalf [] 0 e.maps (windowDesc e (Config.window e.content purpose (envNums e ++ batch) n))).map fun r => (r.1, r.2.1)
/-- A candidate from its times, its samples and its limit sample. -/
def candOf (tau0 dur t : Nat) (lim : Option (Nat × Nat)) : Cand :=
  { node := V3.of 0, tau0 := tau0, duration := dur, samples := t, limitSample := (lim.map (·.1)).getD 0xff, limitJoint := (lim.map (·.2)).getD 0, rowAddr := 0, user := 0 }
/-- The numbers that describe a candidate to the schedule: its record's times, the radii of its spheres, their centres. -/
def candNums (c : Cand) (rho : List Int) (rows : List (List V3)) : List Int :=
  [(c.tau0 : Int), (c.duration : Int), (c.samples : Int), (c.limitSample : Int), (rho.length : Int)] ++ rho ++ rows.flatMap fun r => r.flatMap fun p => [p.x, p.y, p.z]

/-- What one candidate's check gives (R168, R169, R175, R184): the outcome code, the least gap, what it counts. -/
structure CheckOut where
  code : Nat
  gap : Option Int
  work : Work
  deriving DecidableEq, Repr, Inhabited
/-- One candidate checked. `allow` is the allowance of R405. Log entry 105 DESIGN CHOICE. -/
def checkOne (h : Option (Half × Mem)) (rho : List Int) (c : Cand) (rows : List (List V3)) (allow : Option Nat) : CheckOut :=
  let fault : CheckOut := { code := 7, gap := none, work := swpWork { (default : SweepStats) with cands := 1, hits := 1 } (0, 0, 0) }
  match h with
  | none => fault
  | some (half, mem) =>
    if !candOk c || !(rho.all fun r => decide (2 * r ≤ 2 ^ half.g)) then fault else
    let r := checkCand mem half rho c fun j i => (rows.getD j []).getD i (V3.of 0)
    let code := if (allow.map fun a => decide (r.2.1 > a)).getD false then 6 else r.1.code
    let x := Config.laneLoss (half, mem, candNums c rho rows) 0
    let loss := if code = 3 then (0, 0, 0) else (if code = 0 then 0 else x.1, x.2.1, x.2.2)
    { code := code, gap := if code = r.1.code then r.2.2.2 else none,
      work := swpWork { (default : SweepStats) with cands := 1, hits := b2n (code != 0), tests := r.2.1, refines := r.2.2.1, dense := b2n (code == 6),
                                                    window := b2n (code == 5) } loss }

/-! ### Rungs (R234, R235) -/

/-- Stop time of an axis with speed `v` and deceleration `a`, per s and s²: none where it never stops. Log entry 69 DEDUCED. -/
def stopNs (v a : Int) : Option Nat :=
  if v = 0 then some 0 else if a ≤ 0 then none else some (rdivAway ((v.natAbs : Int) * nsec) a).toNat
/-- Travel of an axis after `t` ns of a stop that lasts `ts`. Log entry 69 DEDUCED. -/
def travel (v a : Int) (t ts : Nat) : Int :=
  let t : Int := (min t ts : Nat)
  let s := rdivAway (2 * nsec * (v.natAbs : Int) * t - a * t * t) (2 * nsec * nsec)
  if v < 0 then -s else s
/-- The share `c` of `v` in the travel of the base. -/
def travelPart (v a c : Int) (t ts : Nat) : Int :=
  if v = 0 then 0 else
  let t : Int := (min t ts : Nat)
  rdivAway ((2 * nsec * v * t - a * t * t) * c) (2 * nsec * nsec * v)
/-- Base speed of a velocity. -/
def baseSpeed (v : Vel) : Int := (isqrt (v.vx * v.vx + v.vy * v.vy).toNat : Nat)
/-- Deceleration of joint `j` in rung `r`, in the joint's own format (R234). Log entry 69 DEDUCED. -/
def jointDec (m : Bytes) (b : Bind) (r j : Nat) : Int :=
  let a : Int := ((fld m (kinJ j + 40) 4 * b.jointDecel.getD r 0 : Nat) : Int)
  if kinPris m j then rdivAway a (65536 * 128) else rdivAway (a * 64) 65536
/-- Deceleration of the base in rung `r`. Log entry 69 DEDUCED. -/
def baseDec (b : Bind) (r : Nat) : Int := (b.baseDecel.getD r 0 : Nat)
/-- Yaw deceleration. -/
def yawDec (m : Bytes) : Int := (fld m 44 4 : Nat)
/-- The stop time t_b of a rung: the longest of any axis (R234). -/
def rungTb (m : Bytes) (b : Bind) (r : Nat) (v : Vel) : Option Nat :=
  let axes := [stopNs (baseSpeed v) (baseDec b r), stopNs v.w (yawDec m)] ++ v.qd.zipIdx.map fun p => stopNs p.1 (jointDec m b r p.2)
  axes.foldl (fun acc x => match acc, x with
    | some a, some t => some (max a t)
    | _, _ => none) (some 0)
/-- The pose of a rung `t` ns after its start (R234): each axis decays linearly in its direction and then rests. Log entry 69 DEDUCED. -/
def rungPose (m : Bytes) (b : Bind) (r : Nat) (p : Pose) (v : Vel) (t : Nat) : Pose :=
  let sp := baseSpeed v
  let bs := (stopNs sp (baseDec b r)).getD 0; let ws := (stopNs v.w (yawDec m)).getD 0
  { x := p.x + travelPart sp (baseDec b r) v.vx t bs, y := p.y + travelPart sp (baseDec b r) v.vy t bs, yaw := wrapYaw (p.yaw + travel v.w (yawDec m) t ws),
    q := p.q.zipIdx.map fun x => x.1 + travel (v.qd.getD x.2 0) (jointDec m b r x.2) t ((stopNs (v.qd.getD x.2 0) (jointDec m b r x.2)).getD 0) }
/-- Duration of the brake candidate (R235). Log entry 69 DEDUCED. -/
def brakeDur (tb : Nat) : Nat := max tb 1000000
/-- Duration of the hold candidate. Log entry 69 DEDUCED. -/
def holdDur (sliceMs : Nat) : Nat := min (64 * sliceMs * 1000000) 3200000000
/-- The sphere rows of a rung (R235): those of its brake samples, of its rest pose, and what the solver noted. -/
def rungRows (m : Bytes) (b : Bind) (r : Nat) (p : Pose) (v : Vel) (tb : Nat) : List (List V3) × List V3 × SolFlags :=
  let rows := (List.range 16).map fun j => poseCentres m (rungPose m b r p v (sampleAt (brakeDur tb) 16 j))
  let rest := poseCentres m (rungPose m b r p v tb)
  (rows.map (·.1), rest.1, rows.foldl (fun a x => a.join x.2) rest.2)
/-- The stop that rung `r` makes from a pose at `ts` (R234, R235). Log entry 69 DEDUCED. -/
def rungStop (m : Bytes) (b : Bind) (r : Nat) (p : Pose) (v : Vel) (ts tb : Nat) (atRest : Bool) : StopRec :=
  let rest := rungPose m b r p v tb
  let rows := rungRows m b r p v tb
  { rung := r, atRest := atRest, tb := tb, ts := ts, x := rest.x, y := rest.y, yaw := rest.yaw, q := rest.q,
    brake := rows.1.zipIdx.map fun x => { tau := ts + sampleAt (brakeDur tb) 16 x.2, centres := x.1 },
    rest := rows.2.1, mapVer := 0, modelVer := 0, turn := 0 }
/-- What trying rungs gave: the stop that passed, how many checks ended in FAULT, what the solver noted on the sphere rows, what the engines count. -/
structure RungOut where
  stop : Option StopRec := none
  faults : Nat := 0
  flags : SolFlags := {}
  work : Work := []
  deriving DecidableEq, Repr, Inhabited
/-- A later outcome with the faults, notes and counts of an earlier one. -/
def RungOut.after (b a : RungOut) : RungOut :=
  { stop := b.stop, faults := a.faults + b.faults, flags := a.flags.join b.flags, work := a.work ++ b.work }
/-- A rung is checked as brake and hold candidates with hard and reservation planes (R235): the stop when both are clear. Log entry 69 DEDUCED. -/
def checkRung (e : CheckEnv) (m : Bytes) (b : Bind) (r : Nat) (p : Pose) (v : Vel) (ts : Nat) (atRest cls0 : Bool) : RungOut :=
  match rungTb m b r v with
  | none => {}
  | some tb =>
    if tb > 3200000000 then {} else
    let st := rungStop m b r p v ts tb atRest
    let fl := (rungRows m b r p v tb).2.2
    let rho := radii m
    let c1 := candOf ts (brakeDur tb) 16 (limitSample m ((List.range 16).map fun j => (rungPose m b r p v (sampleAt (brakeDur tb) 16 j)).q))
    let c2 := candOf (ts + tb) (holdDur e.sliceMs) 32 ((limitSample m [st.q]).map fun x => (0, x.2))
    let r1 := st.brake.map (·.centres)
    let r2 := List.replicate 32 st.rest
    let batch := candNums c1 rho r1 ++ candNums c2 rho [st.rest]
    let al := fun t => if cls0 then some (2 * kinS m * t) else none
    let out := fun s (os : List CheckOut) w => ({ stop := s, faults := (os.filter fun o => o.code == 7).length, flags := fl, work := w ++ os.flatMap (·.work) } : RungOut)
    let o1 := checkOne (halfFor e 1 batch 0) rho c1 r1 (al 16)
    let o2 := checkOne (halfFor e 1 batch 1) rho c2 r2 (al 32)
    let w := rowsCount 2 (b2n (c1.limitSample != 0xff) + b2n (c2.limitSample != 0xff)) (17 * fkMacs m (kinN m) (sphereLinks m)) fl.sat
    if o1.code ≠ 0 then out none [o1] w else out (if o2.code = 0 then some st else none) [o1, o2] w
/-- Rungs tried from rung 0 upwards: the first that passes (R233, R236). -/
def firstRung (e : CheckEnv) (m : Bytes) (b : Bind) (p : Pose) (v : Vel) (ts : Nat) (atRest cls0 : Bool) : List Nat → RungOut
  | [] => {}
  | r :: rs =>
    let o := checkRung e m b r p v ts atRest cls0
    if o.stop.isSome then o else (firstRung e m b p v ts atRest cls0 rs).after o

/-! ### The agent's own ladder (R234, R236) -/

/-- Pose and velocity of a state record advanced by `dt` ns at its own velocity, as model values (R149, R234, R262). -/
def advance (m raw : Bytes) (dt : Int) : Pose × Vel :=
  let s := snapOf m raw
  let base := kinBase m
  let vel : Vel := { vx := if base then sfld raw 20 2 * 256 else 0, vy := if base then sfld raw 22 2 * 256 else 0, w := if base then sfld raw 24 4 else 0,
                     qd := (List.range (kinN m)).map fun j => let x := sfld raw (36 + 8 * j) 4; if kinPris m j then floorShr (x + 64) 7 else x * 64 }
  let mv := fun (v : Int) => rdivAway (v * dt) nsec
  ({ x := s.base.x + mv vel.vx, y := s.base.y + mv vel.vy, yaw := wrapYaw (s.base.yaw + mv vel.w),
     q := s.q.zipIdx.map fun p => p.1 + kinZero m p.2 + mv (vel.qd.getD p.2 0) }, vel)

/-! ### Footprints (R245, R246) -/

/-- The cells of a map whose closed boxes lie within `rho` of a centre (R171, R245). -/
def sphereCells (m : MapRec) (c : V3) (rho : Int) : List Nat :=
  let lo := (c.sub (V3.of rho)).zip max m.boxMin
  let hi := (c.add (V3.of rho)).zip min (m.boxMax.sub (V3.of 1))
  if !V3.all2 (fun a b => decide (a ≤ b)) lo hi then [] else
  let a := voxOf m lo; let b := voxOf m hi
  ((irange a.z b.z).flatMap fun z => (irange a.y b.y).flatMap fun y => (irange a.x b.x).map fun x => (⟨x, y, z⟩ : V3)).filterMap fun p =>
    let vl := m.boxMin.add (p.map fun i => i * 2 ^ m.k)
    if boxDist2 c vl (vl.add (V3.of (2 ^ m.k))) ≤ rho * rho then some (cellKey m p) else none
/-- The mask of the slices `a` to `b` seen from base `σ`: beyond 63 they set bit 63 (R246). -/
def sliceMask (σ a b : Nat) : BitVec 64 :=
  let lo := min 63 (a - σ); let hi := min 63 (b - σ)
  BitVec.ofNat 64 (2 ^ (hi + 1) - 2 ^ lo)
/-- Centres with radii that occupy a span of time: first time, last time (none: up to bit 63). -/
abbrev SweepItem := List V3 × List Int × Nat × Option Nat
/-- A footprint of sweep items on a map, with base slice `σ`. -/
def footOf (m : MapRec) (σ : Nat) (items : List SweepItem) : Foot :=
  { base := σ, cells := items.foldl (fun t it =>
      let mask := match it.2.2.2 with
        | some z => sliceMask σ (sliceOf it.2.2.1 m.sliceMs) (sliceOf z m.sliceMs)
        | none => sliceMask σ (sliceOf it.2.2.1 m.sliceMs) (σ + 63)
      (it.1.zip it.2.1).foldl (fun t cr => (sphereCells m cr.1 cr.2).foldl (fun t k => tput t k (tgetD t k 0 ||| mask)) t) t) [] }
/-- The items of a list of samples, each with its radii, its step's start and whether it opens its step: sample j takes the slices from its
predecessor's time, or its step's start, to its successor's; `after` follows the last one (R245). -/
def sampleItems (after : Nat) : Option Nat → List (MotionSample × List Int × Nat × Bool) → List SweepItem
  | _, [] => []
  | prev, (s, rho, t0, opens) :: t =>
    let a := if opens then t0 else prev.getD t0
    let b := match t with
      | [] => after
      | n :: _ => n.1.tau
    (s.centres, rho, a, some b) :: sampleItems after (some s.tau) t
/-- Samples of a step with their marks. -/
def stepSamples (rho : List Int) (t0 : Nat) (ss : List MotionSample) : List (MotionSample × List Int × Nat × Bool) :=
  ss.zipIdx.map fun p => (p.1, rho, t0, p.2 == 0)
/-- The sweep items of a motion: the steps `keep` picks, the brake candidate, the rest pose (R245). -/
def motionItems (mo : Motion) (keep : StepRec → Bool) (withStop : Bool) (sliceMs : Nat) : List SweepItem :=
  let tRest := mo.stop.ts + mo.stop.tb
  let after := tRest + sampleAt (holdDur sliceMs) 32 0
  let steps := (mo.steps.filter keep).flatMap fun s => stepSamples mo.rho s.tau0 s.samples
  if withStop then
    sampleItems after none (steps ++ stepSamples mo.rho mo.stop.ts mo.stop.brake) ++ [(mo.stop.rest, mo.rho, tRest, none)]
  else
    let nextTau := ((mo.steps.find? fun s => !keep s && decide (s.tau0 ≥ ((mo.steps.filter keep).getLast?.map (·.tau1)).getD 0)).bind fun s => (s.samples.head?).map (·.tau))
    sampleItems (nextTau.getD ((mo.stop.brake.head?.map (·.tau)).getD mo.stop.ts)) none steps
/-- The least slice of sweep items. -/
def itemsBase (m : MapRec) (items : List SweepItem) : Nat :=
  match items with
  | [] => 0
  | i :: t => t.foldl (fun a x => min a (sliceOf x.2.2.1 m.sliceMs)) (sliceOf i.2.2.1 m.sliceMs)
/-- Two footprints share a voxel at a slice (R241). -/
def footMeets (a b : Foot) : Bool :=
  a.cells.any fun e => match tget b.cells e.1 with
    | none => false
    | some w => e.2 &&& rebase b.base a.base w != 0
/-- Tiles of a footprint: the cover list (R245). -/
def footTiles (f : Foot) : List Nat := (f.cells.map fun e => e.1 / 65536).eraseDups
/-- The footprint of a whole motion on a map. -/
def motionFoot (m : MapRec) (mo : Motion) (from_ : Nat) : Foot :=
  let items := motionItems mo (fun s => decide (s.tau1 > from_)) true m.sliceMs
  footOf m (itemsBase m items) items

end Sys2Proof.Machine
end

