-- ==== Sys2Proof/Machine/Plan.lean ====
section
/-! DEFINITION. The PLAN query up to its release (R14, R218 to R234, R245 to R248, R272, R275, R369): its block, its start node, the search, the closing
stop, smoothing and torque check, footprints, the plan record. -/
namespace Sys2Proof.Machine

/-! ### The block (R218, R369) -/

/-- The parameters of a PLAN. -/
structure PlanP where
  agent : Nat
  sets : Nat
  eeGoal : Bool
  riskHit : Bool
  flagged : Bool
  partialTl : Bool
  commit : Bool
  heur : Option Nat
  t0 : Nat
  nT : Nat
  popB : Nat
  jointBin : Nat
  succMax : Nat
  nodesMax : Nat
  maps : List Nat
  eePos : V3
  eeRot : List Int
  goalX : Int
  goalY : Int
  goalYaw : Int
  baseR : Nat
  yawTol : Nat
  jointTol : Nat
  postTol : Nat
  weight : Nat
  reach : Nat
  hint : Bytes
  deriving DecidableEq, Repr, Inhabited
/-- The parameters that a command's block spells, defaults filled in (R369). -/
def planOf (c : Cmd) : PlanP :=
  let b := c.block
  let f := fld b 2 1; let g := fld b 3 1
  let dv := fun i o n df => if bitAt g i then df else fld b o n
  let nz := fun v df => if v = 0 then df else v
  let hm := fld b 4 2
  { agent := fld b 0 2, sets := f % 16, eeGoal := bitAt f 4, riskHit := bitAt f 5, flagged := bitAt f 6, partialTl := bitAt f 7,
    commit := if bitAt g 7 then c.cls == 1 else bitAt g 0, heur := if hm = 0xffff then none else some hm, t0 := fld b 6 1, nT := fld b 7 1,
    popB := nz (fld b 8 1) (fld b 7 1), jointBin := nz (fld b 9 1) 21, succMax := nz (fld b 10 2) 16, nodesMax := nz (fld b 12 4) 16384,
    maps := (List.range (fld b 16 1)).map fun i => fld b (17 + i) 1, eePos := v3fld b 20, eeRot := quatFld b 32,
    goalX := sfld b 40 4, goalY := sfld b 44 4, goalYaw := sfld b 48 4, baseR := dv 1 52 4 16384, yawTol := dv 2 56 4 0x04000000,
    jointTol := dv 3 60 4 0x00200000, postTol := dv 4 64 4 0x00100000, weight := dv 5 68 2 0x0100, reach := dv 6 72 4 32768, hint := slice b 76 8 }
/-- The logical tiles that a query's work lies on. -/
def workTiles (q : QueryRec) : List Nat :=
  match q.kind with
  | .plan => let p := planOf q.cmd; (List.range p.nT).map (p.t0 + ·)
  | .solve => (List.range (fld q.cmd.block 7 1)).map (fld q.cmd.block 6 1 + ·)
  | .select => (List.range (fld q.cmd.block 13 1)).map (fld q.cmd.block 12 1 + ·)
  | .stopVerify => []
/-- No core of a live die holds a tile of the query's work, or its twin computes it: it makes no progress here (R307, R500, R502). Log entry 35 DEDUCED. -/
def stuck (d : Dev) (q : QueryRec) : Bool :=
  q.foreign || (workTiles q).any fun t => match d.pkg.map[t % 128]? with
    | some c => !dieLive d (c / 16)
    | none => d.pin.ready
/-- Every value of the block is in range (R218, R219, R369); `n` is the joint count of the agent's model, where there is one. -/
def planRangeOk (c : Cmd) (n : Option Nat) : Bool :=
  let b := c.block; let p := planOf c; let k := fld b 16 1
  b.length == 96 && decide (p.agent ≤ 4095) && decide (fld b 6 1 ≤ 127) && decide (1 ≤ p.nT) && decide (p.nT ≤ 32) && decide (p.t0 + p.nT ≤ 128) &&
  decide (1 ≤ p.popB) && decide (p.popB ≤ 64) && decide (14 ≤ p.jointBin) && decide (p.jointBin ≤ 26) && decide (1 ≤ p.succMax) && decide (p.succMax ≤ 256) &&
  decide (1024 ≤ p.nodesMax) && decide (p.nodesMax ≤ 65536) && p.nodesMax % p.nT == 0 && decide (k ≤ 3) &&
  (List.range 3).all (fun i => decide (fld b (17 + i) 1 < 64) && (decide (i < k) || fld b (17 + i) 1 == 0)) &&
  (!p.eeGoal || (quatOk p.eeRot && (n.map fun x => x != 0).getD true)) &&
  decide (p.baseR ≤ 2 ^ 24) && decide (p.yawTol < 2 ^ 31) && decide (p.jointTol < 2 ^ 31) && decide (p.postTol ≤ 2 ^ 24) && allZero (slice b 70 2) &&
  decide (p.reach ≤ 2 ^ 20) && allZero (slice b 84 12) && (p.heur.map fun h => decide (h ≤ 1023)).getD true && c.cls != 0 && !(decide (c.cls ≥ 2) && p.commit) &&
  (match c.origin with
   | .field _ ag => ag == p.agent
   | _ => true)
/-- The set slots that a PLAN may use: those of its mask, or every bound slot; none where it names an empty one (R218). -/
def planSlots (p : PlanP) (b : Bind) : Option (List Nat) :=
  let bound := (List.range 4).filter fun i => b.sets.getD i 0xffff != 0xffff
  if p.sets = 0 then some bound else
  let l := (List.range 4).filter fun i => bitAt p.sets i
  if l.all fun i => bound.contains i then some l else none
/-- The deadline turn (R69). -/
def deadlineTurn (d : Dev) (c : Cmd) : Nat := (c.deadline - 6000) / turnLen d - 1
/-- A map that a polder's query may check: its own, or granted to it (R118), and one whose version 0 has formed. Log entries 61 DEDUCED, 100 DEDUCED. -/
def mapUsable (d : Dev) (p h : Nat) : Bool :=
  ((tget d.world.maps h).map fun m => !m.removed && m.born && (m.owner == p || m.grants.contains p)).getD false
/-- The tag is that of another query of the polder that has not completed (R363). Log entry 36 DEDUCED. -/
def tagTaken (d : Dev) (p tag : Nat) : Bool := d.q.recs.any fun q => q.2.cmd.polder == p && q.2.cmd.tag == tag

/-! ### Pinned data -/

/-- Raw bytes of version `v` of model `h`. -/
def modelAt (d : Dev) (h v : Nat) : Bytes :=
  (((tget d.world.models h).bind fun m => m.vers.find? fun x => x.ver == v).map (·.raw)).getD []
/-- Raw bytes and build model of version `v` of set `h`. -/
def setAt (d : Dev) (h v : Nat) : Bytes × Bytes :=
  (((tget d.world.sets h).bind fun m => m.vers.find? fun x => x.ver == v).map fun x => (x.raw, x.buildModel)).getD ([], [])
/-- What a search works with: parameters, pinned model, pinned sets (slot, set, build model), heuristic model, how its checks stage, the home
map's slice length in ns, the start node, the goal solution. -/
structure SearchEnv where
  p : PlanP
  model : Bytes
  sets : List (Nat × Bytes × Bytes)
  heur : Option Bytes
  chk : CheckEnv
  start : Node
  startTau : Nat
  goalQ : Option (List Int)
  latOk : Bool
  deriving DecidableEq, Repr, Inhabited
/-- The map entries of a query's checks with a mask of planes (R157, R218, R235). -/
def pinEntries (d : Dev) (q : QueryRec) (planes : Nat) : List (Nat × Nat × Nat × Nat) :=
  q.pinMaps.map fun m => (m.1, planes, ((tget d.world.maps m.1).map (·.k)).getD 0, m.2)
/-- How a query's checks stage (R160). -/
def pinChk (d : Dev) (q : QueryRec) (planes : Nat) (reach : Int) : CheckEnv :=
  { maps := d.world.maps, content := q.content, sliceMs := ((tget d.world.maps q.homeMap).map (·.sliceMs)).getD 1, excl := some q.agent, reach := reach,
    entries := pinEntries d q planes }
/-- The pinned model of a query. -/
def pinModelRaw (d : Dev) (q : QueryRec) : Bytes := (q.pinModel.map fun m => modelAt d m.1 m.2).getD []
/-- The search environment of a query. -/
def searchEnv (d : Dev) (q : QueryRec) : SearchEnv :=
  let p := planOf q.cmd
  { p := p, model := pinModelRaw d q, sets := q.pinSets.map fun s => (s.1, setAt d s.2.1 s.2.2), heur := q.pinHeur.map fun m => modelAt d m.1 m.2,
    chk := pinChk d q (5 + 2 * b2n p.riskHit) p.reach, start := q.start.getD default, startTau := q.startTau, goalQ := q.goalQ, latOk := q.latOk }

/-! ### Start node, keys, goal and residual -/

/-- The first lattice set of the mask. -/
def firstLattice (sets : List (Nat × Bytes × Bytes)) : Option Bytes := (sets.find? fun s => isLattice s.2.1).map (·.2.1)
/-- Pose, velocity, rest and time of the nodes of a motion: its start, its step ends, the rest pose of its stop (R220). -/
def motionNodes (mo : Motion) : List (Pose × Vel × Bool × Nat) :=
  (if mo.isStop then [] else
    ({ x := mo.node0.x, y := mo.node0.y, yaw := mo.node0.yaw, q := mo.node0.q }, mo.node0.vel, mo.node0.rest, mo.startTau) ::
      mo.steps.map fun s => ({ x := s.x, y := s.y, yaw := s.yaw, q := s.q }, s.vel, s.rest, s.tau1)) ++
  [({ x := mo.stop.x, y := mo.stop.y, yaw := mo.stop.yaw, q := mo.stop.q }, zeroVel mo.stop.q.length, true, mo.stop.ts + mo.stop.tb)]
/-- Where a PLAN with wall deadline `dl` starts (R220); none in the case of its item 3 that ends the query. -/
def startPose (m : Bytes) (a : AgentRec) (dl : Nat) : Option (Pose × Vel × Bool × Nat) :=
  match a.cur with
  | some mo =>
    match (motionNodes mo).find? fun n => decide (n.2.2.2 ≥ dl) with
    | some n => some n
    | none => (motionNodes mo).getLast?.map fun n => (n.1, zeroVel n.1.q.length, true, dl)
  | none => a.snap.bind fun s =>
      if bitAt (fld s.raw 1 1) 0 then
        let p := (advance m s.raw 0).1
        some (p, zeroVel p.q.length, true, dl)
      else none
/-- The lattice heading nearest a yaw, the lower index on ties (R220). -/
def nearHeading (hs : Nat) (yaw : Int) : Nat :=
  let far := fun (h : Nat) => (wrapYaw (yaw - headAngle hs (h : Nat))).natAbs
  (List.range hs).foldl (fun b h => if far h < far b then h else b) 0
/-- The start node (R220, R224). -/
def startNode (lat : Option Bytes) (p : Pose) (v : Vel) (rest : Bool) : Node × Bool :=
  let hs := (lat.map fun s => fld s 10 1).getD 0
  let h := nearHeading hs p.yaw
  ({ (default : Node) with heading := h, hs := hs, x := p.x, y := p.y, yaw := p.yaw, q := p.q, vel := v, rest := rest },
   decide (hs ≠ 0) && decide ((wrapYaw (p.yaw - headAngle hs (h : Nat))).natAbs ≤ 524288))
/-- The state key of a node (R227). -/
def stateKey (e : SearchEnv) (n : Node) : Nat :=
  let cell := fun (x s : Int) => match firstLattice e.sets with
    | some l => floorShr (x - s) (fld l 11 1)
    | none => 0
  let joint := fun f => (n.q.zipIdx.filter fun x => x.2 % 4 == f).foldl (fun a x => a + floorShr x.1 e.p.jointBin * 2 ^ (16 * (x.2 / 4))) 0
  crc64 0 ([cell n.x e.start.x, cell n.y e.start.y, (n.heading : Int), ((n.tOff / 1000 * 1000 / max 1 (e.chk.sliceMs * 1000000) : Nat) : Int),
            joint 0, joint 1, joint 2, joint 3].flatMap fun x => leBytes 8 (tc 64 x))
/-- A node lies in the goal region (R230). Log entry 68 DEDUCED. -/
def inGoal (e : SearchEnv) (n : Node) : Bool :=
  let dx := n.x - e.p.goalX; let dy := n.y - e.p.goalY
  decide (dx * dx + dy * dy ≤ ((e.p.baseR * e.p.baseR : Nat) : Int)) && decide ((wrapYaw (n.yaw - e.p.goalYaw)).natAbs ≤ e.p.yawTol) &&
  (!e.p.eeGoal || (n.q.zip (e.goalQ.getD [])).all fun x => decide ((x.1 - x.2).natAbs ≤ e.p.jointTol))
/-- The residual of a node (R231). Log entry 68 DEDUCED. -/
def residualOf (e : SearchEnv) (n : Node) : Nat :=
  let dx := n.x - e.p.goalX; let dy := n.y - e.p.goalY
  let base := isqrt (dx * dx + dy * dy).toNat - e.p.baseR
  let ex := fun (pris : Bool) => total ((n.q.zip (e.goalQ.getD [])).zipIdx.map fun x =>
    if kinPris e.model x.2 == pris then (x.1.1 - x.1.2).natAbs - e.p.jointTol else 0)
  min 0xffffffff (base + if e.p.eeGoal then ex false / 2 ^ 13 + ex true else 0)
/-- The cost of a node in the frontier (R223). -/
def nodeCost (w : Nat) (n : Node) : Nat := min 0xffffffff (n.g + w * n.h / 256)

/-! ### The heuristic (R208 to R210) -/

/-- A feature element. Log entry 70 DEDUCED. -/
def feat (x : Int) : Byte := BitVec.ofNat 8 (tc 8 (iclamp x (-127) 127))
/-- The staged coarse cell under a point has its bit set at a slice, or lies outside the window. Log entry 70 DEDUCED. -/
def coarseAt (h : Option (Half × Mem)) (p : V3) (σ : Nat) : Bool :=
  match h with
  | none => true
  | some (half, _) =>
    let c := (p.sub half.origin).map fun x => floorShr x half.g
    if V3.all2 (fun a b => decide (0 ≤ a) && decide (a < b)) c half.cells then
      (tgetD half.coarse (c.x + half.cells.x * (c.y + half.cells.y * c.z)).toNat 0).getLsbD (probeBit half.sigmaW σ)
    else true
/-- The feature vector of a node (R209); `rev` marks a reverse primitive. Log entry 70 DEDUCED. -/
def features (e : SearchEnv) (raw : Bytes) (h : Option (Half × Mem)) (rev : Bool) (n : Node) : Bytes :=
  let f := if n.hs = 0 then 0 else headFrac n.heading n.hs 0
  let c := cosFrac f; let s := sinFrac f
  let dx := e.p.goalX - n.x; let dy := e.p.goalY - n.y
  let sh := fun (a b : Int) => floorShr (a * b) 30
  let ps := fld raw 6 1
  let rel := (angFrac e.p.goalYaw + 2 ^ 32 - f) % 2 ^ 32
  let rnd := fun (x : Int) => floorShr (127 * x + 2 ^ 29) 30
  let joints := (List.range 16).map fun j =>
    if j < kinN e.model && e.p.eeGoal then floorShr ((e.goalQ.getD []).getD j 0 - n.q.getD j 0) (if kinPris e.model j then 9 else 22) else 0
  let g := match h with
    | some x => x.1.g
    | none => 12
  let σ := sliceOf (e.startTau + n.tOff) e.chk.sliceMs
  let grid := (List.range 32).map fun i =>
    let u : Int := (2 * (i / 4 : Nat) + 1) * 2 ^ (g - 1); let v : Int := (2 * (i % 4 : Nat) - 3) * 2 ^ (g - 1)
    if coarseAt h ⟨n.x + sh c u - sh s v, n.y + sh s u + sh c v, 0⟩ σ then 127 else 0
  ([floorShr (sh c dx + sh s dy) ps, floorShr (sh (-s) dx + sh c dy) ps, rnd (cosFrac rel), rnd (sinFrac rel), floorShr (baseSpeed n.vel) 12,
    if rev then 127 else 0, 0, 0] ++ joints ++ grid ++ (List.range 8).map fun i => sfld e.p.hint i 1).map feat
/-- The heuristic values of a batch of feature vectors, in runs of at most 256, acc_sat, and what the layers count (R208, R210). Log entry 70 DEDUCED. -/
def heurRun (raw : Bytes) : Nat → List Bytes → List Nat × Bool × Work
  | 0, _ => ([], false, [])
  | _, [] => ([], false, [])
  | fuel + 1, fs =>
    let b := fs.take 256
    let r := netRun raw b.flatten (some b.length)
    let vs := (List.range b.length).map fun i => if r.fault then 0 else (iclamp (sfld r.out (64 * i) 4) 0 0x7fffffff).toNat
    let t := heurRun raw fuel (fs.drop 256)
    (vs ++ t.1, r.accSat || t.2.1, tnsWork r ++ t.2.2)

/-! ### Expansion (R226, R228) -/

/-- A successor with what its check needs: set, build model, primitive and its offset, its centres, and the saturations of their solution. -/
structure Succ where
  node : Node
  set : Bytes
  build : Bytes
  prim : Nat
  off : Nat
  rows : List (List V3)
  sat : Nat
  deriving DecidableEq, Repr, Inhabited
/-- The joints of a node lie in the posture of a lattice set (R226). -/
def inPosture (tol : Nat) (s : Bytes) (n : Node) : Bool :=
  n.q.zipIdx.all fun x => decide ((x.1 - sfld s (64 + 4 * x.2) 4).natAbs ≤ tol)
/-- The successors of a node, in slot order then primitive order (R226). Log entry 68 DEDUCED. -/
def successors (e : SearchEnv) (me : Nat × Nat) (n : Node) : List Succ × SolFlags :=
  if n.depth ≥ 40 then ([], {}) else
  e.sets.foldl (fun (acc : List Succ × SolFlags) s =>
    let raw := s.2.1
    let use := if isLattice raw then fld raw 10 1 == n.hs && inPosture e.p.postTol raw n && (n.parent.isSome || e.latOk) else true
    if !use then acc else
    (setOffs raw (fld raw 4 4) (setRecOff raw)).zipIdx.foldl (fun (acc : List Succ × SolFlags) o =>
      if isLattice raw && fld raw o.1 2 != n.heading then acc else
      let c := primCentres raw s.2.2 e.model o.2 o.1 n
      let k := primNext raw s.1 o.2 o.1 me n
      (acc.1 ++ [{ node := { k with key := stateKey e k }, set := raw, build := s.2.2, prim := o.2, off := o.1, rows := c.1, sat := c.2.sat }],
       acc.2.join c.2)) acc) ([], {})
/-- The candidate of a successor of node `n` (R166). -/
def succCand (e : SearchEnv) (n : Node) (s : Succ) : Cand :=
  candOf (e.startTau + n.tOff) (primDur s.set s.off) (primT s.set s.off) (primLimit s.set e.model s.off n)
/-- The radii that a successor's spheres are checked with (R139, R166). -/
def succRho (e : SearchEnv) (s : Succ) : List Int := if isLattice s.set then radii s.build else radii e.model
/-- What expanding a node gives: the clear successors kept, each with its clearance, in key order; acc_sat; how many checks ended in FAULT; what the engines count
on the core of the node's tile. -/
structure Expansion where
  clear : List Node
  accSat : Bool
  faults : Nat
  work : Work
  deriving DecidableEq, Repr, Inhabited
/-- One popped node expanded (R226, R228): heuristic batch, TOPK, checks. -/
def expand (e : SearchEnv) (me : Nat × Nat) (n : Node) : Expansion :=
  let su := successors e me n
  let batch := su.1.flatMap fun s => candNums (succCand e n s) (succRho e s) s.rows
  let halves := su.1.zipIdx.map fun s => (s.1, halfFor e.chk 0 batch s.2)
  let hv : List Nat × Bool × Work := match e.heur with
    | none => (su.1.map fun _ => 0, false, [])
    | some raw => heurRun raw (su.1.length + 1) (halves.map fun (s : Succ × Option (Half × Mem)) => features e raw s.2 (primRev s.1.set s.1.off) s.1.node)
  let scored := (halves.zip hv.1).map fun x => ({ x.1.1 with node := { x.1.1.node with h := x.2 } }, x.1.2)
  let kept : List (Succ × Option (Half × Mem)) := (sortBy (fun a b => decide (nodeCost e.p.weight a.1.node < nodeCost e.p.weight b.1.node) ||
    (nodeCost e.p.weight a.1.node == nodeCost e.p.weight b.1.node && decide (a.1.node.seq ≤ b.1.node.seq))) scored).take e.p.succMax
  let done : List (Succ × CheckOut) := kept.map fun s => (s.1, checkOne s.2 (succRho e s.1) (succCand e n s.1) s.1.rows none)
  let keys := scored.map fun s => (nodeCost e.p.weight s.1.node, s.1.node.seq)
  { clear := done.filterMap fun s => if s.2.code = 0 then some { s.1.node with clearance := clearanceOf s.2.gap } else none,
    accSat := hv.2.1 || su.2.accSat, faults := (done.filter fun s => s.2.code == 7).length,
    work := su.1.flatMap (fun s => primWork s.set e.model s.off n s.sat) ++ hv.2.2 ++ (if keys.isEmpty then [] else selOpWork 2 0 e.p.succMax [keys]) ++
      done.flatMap fun s => s.2.work }

/-- The tile whose first entry comes first in the merge: by key, then tile number (R80, R225). -/
def mergeHead (ts : Tab TileStore) : Option (Nat × (Nat × Nat × Nat)) :=
  ts.foldl (fun acc t => match t.2.queue.head?, acc with
    | none, a => a
    | some x, none => some (t.1, x)
    | some x, some a => if x.1 < a.2.1 || (x.1 == a.2.1 && decide (x.2.1 < a.2.2.1)) then some (t.1, x) else some a) none
/-- Entries popped in merged order until `n` nodes that are not stale are taken; stale ones are discarded and take no place (R228, R229). Log entry 68 DEDUCED. -/
def popNodes : Nat → Nat → Tab TileStore → List (Nat × Nat × Node) × Tab TileStore
  | 0, _, ts => ([], ts)
  | fuel + 1, n, ts =>
    if n = 0 then ([], ts) else
    match mergeHead ts with
    | none => ([], ts)
    | some (t, x) =>
      let st := tgetD ts t default
      let ts := tput ts t { st with queue := st.queue.drop 1 }
      match st.nodes[x.2.2]? with
      | none => popNodes fuel n ts
      | some nd =>
        if (tget st.visited nd.key).any fun g => decide (g < nd.g) then popNodes fuel n ts
        else let r := popNodes fuel (n - 1) ts; ((t, x.2.2, nd) :: r.1, r.2)
/-- A clear successor arrives at its tile (R228): the tiles, and whether it was dropped on a full tile store. Log entry 68 DEDUCED. -/
def arrive (e : SearchEnv) (ts : Tab TileStore) (n : Node) : Tab TileStore × Bool :=
  let t := e.p.t0 + n.key % max 1 e.p.nT
  let st := tgetD ts t default
  if (tget st.visited n.key).any fun g => decide (g ≤ n.g) then (ts, false)
  else if st.nodes.length ≥ e.p.nodesMax / max 1 e.p.nT then (ts, true)
  else
    let n := { n with residual := residualOf e n }
    (tput ts t { nodes := st.nodes ++ [n], queue := insertBy entLe (nodeCost e.p.weight n, n.seq, st.nodes.length) st.queue, visited := tput st.visited n.key n.g }, false)
/-- The recorded node with the least residual, then sequence number, then tile (R231). -/
def bestNode (ts : Tab TileStore) (start : Node) : Node :=
  let better := fun (a b : Node) => decide (a.residual < b.residual) || (a.residual == b.residual && decide (a.seq < b.seq))
  match ts.flatMap fun t => t.2.nodes with
  | [] => start
  | n :: l => l.foldl (fun b x => if better x b then x else b) n
/-- The root: its key, residual, heuristic value and place in tile t0 (stage 3 of R14). -/
def rootTiles (e : SearchEnv) : Tab TileStore × Bool × Work :=
  let n := { e.start with key := stateKey e e.start, residual := residualOf e e.start }
  let hv := match e.heur with
    | none => ([0], false, [])
    | some raw => heurRun raw 2 [features e raw (halfFor e.chk 0 [n.x, n.y, n.yaw] 0) false n]
  let n := { n with h := hv.1.getD 0 0 }
  ([(e.p.t0, { nodes := [n], queue := [(nodeCost e.p.weight n, 0, 0)], visited := [(n.key, 0)] })], hv.2.1, hv.2.2 ++ frnWork 1 0)

/-- FRN counter `o` of a die (R254). -/
def frnCnt (d : Dev) (die o n : Nat) : Dev := cnt d (dieWin die + 0x141000 + o) n
/-- Stage 3: the start node is pushed and the search begins. -/
def beginSearch (d : Dev) (id : Nat) (q : QueryRec) : Dev :=
  let r := rootTiles (searchEnv d q)
  let t0 := (planOf q.cmd).t0
  let d := modQ (tileWork d t0 r.2.2) id fun q => { q with stage := .search, tiles := r.1, accSat := q.accSat || r.2.1 }
  frnPeak d (tileCore d t0).1 (tileCore d t0).2
/-- GOAL_SOLVE_END (R272): the IK solution of the goal; without a goal pose stage 2 is skipped. -/
def fxGoalSolve (d : Dev) (id : Nat) : Dev :=
  match tget d.q.recs id with
  | none => d
  | some q =>
    if q.kind ≠ .plan || q.stage ≠ .goal || stuck d q then d else
    let e := searchEnv d q
    if !e.p.eeGoal then beginSearch d id q else
    let ip : IkParams :=
      { link := kinN e.model, point := V3.of 0, goalPos := e.p.eePos, goalRot := rotMat e.p.eeRot, pose := true, dofs := dofSet e.model 0xffff false,
        wRot := 0x00800000, lambda := 0x00040000, tol := 0x2000, stepMax := 0x00100000, floor := 0x2000, budget := 64 }
    let r := (ikSolve e.model ip (e.start.q, { x := e.p.goalX, y := e.p.goalY, yaw := e.p.goalYaw })).run {}
    let bad := decide (r.1.res > 0x2000)
    let q := { q with goalQ := some r.1.q.1, ikDegraded := bad, accSat := q.accSat || r.2.accSat, pivot := decide (0 < r.2.piv) }
    let mac := fkMacs e.model (kinN e.model) [kinN e.model] + 60 * ip.dofs.length
    let d := tileWork d e.p.t0 (slvWork 1 r.1.iters ((r.1.iters + 1) * mac) r.2.piv r.2.sat)
    let d := cnt (modQ d id fun _ => q) (dieWin (tileDie d e.p.t0) + 0x121004) (b2n bad)
    beginSearch d id q
/-- The search ends with an end node and goes on to its closing stop (R230 to R232). Log entry 72 DEDUCED. -/
def endSearch (d : Dev) (id : Nat) (n : Node) (goal tl : Bool) : Dev :=
  modQ d id fun q => { q with stage := .closing, endNode := some (if goal then { n with residual := 0 } else n), goalReached := goal, partialEnd := !goal, timeLimited := tl }
/-- The search ends on its budget (R68, R231). -/
def endBudget (d : Dev) (id : Nat) (q : QueryRec) : Dev := endSearch d id (bestNode q.tiles (q.start.getD default)) false false
/-- The frontier of a search is empty. Log entry 68 DEDUCED. -/
def frontierEmpty (q : QueryRec) : Bool := q.tiles.all fun t => t.2.queue.isEmpty
/-- SEARCH_STEP (R228 to R231). Log entry 68 DEDUCED. -/
def fxSearchStep (d : Dev) (id : Nat) : Dev :=
  let d := match tget d.q.recs id with
    | some q => if q.kind = .plan && q.stage = .goal && !(planOf q.cmd).eeGoal && !stuck d q then beginSearch d id q else d
    | none => d
  match tget d.q.recs id with
  | none => d
  | some q =>
    if q.stage ≠ .search || stuck d q then d else
    let e := searchEnv d q
    let pop := popNodes (total (q.tiles.map fun t => t.2.queue.length) + 1) (min e.p.popB (q.cmd.budget - q.expansions)) q.tiles
    if pop.1.isEmpty then endBudget (modQ d id fun q => { q with tiles := pop.2 }) id { q with tiles := pop.2 } else
    let ex := pop.1.map fun n => (n.1, expand e (n.1, n.2.1) n.2.2)
    let all := ex.flatMap fun x => x.2.clear.map fun s => (x.1, s)
    let key := fun (s : Node) => (nodeCost e.p.weight s, s.seq)
    let arr := sortBy (fun (a b : Nat × Node) =>
      decide ((key a.2).1 < (key b.2).1) || ((key a.2).1 == (key b.2).1 && (decide ((key a.2).2 < (key b.2).2) || ((key a.2).2 == (key b.2).2 && decide (a.1 ≤ b.1))))) all
    let pops := fun (t : Nat) => (tgetD q.tiles t default).queue.length - (tgetD pop.2 t default).queue.length
    let stored := fun (ts : Tab TileStore) (t : Nat) => (tgetD ts t default).nodes.length
    let st := arr.foldl (fun (acc : Tab TileStore × List Nat) a =>
      let r := arrive e acc.1 a.2
      (r.1, if r.2 then acc.2 ++ [e.p.t0 + a.2.key % max 1 e.p.nT] else acc.2)) (pop.2, [])
    let q := { q with tiles := st.1, expansions := q.expansions + pop.1.length, nodeFull := q.nodeFull || !st.2.isEmpty, accSat := q.accSat || ex.any fun x => x.2.accSat }
    let d := ex.foldl (fun d x => tileWork d x.1 x.2.work) d
    let d := (st.1.map (·.1)).foldl (fun d t => tileWork d t (frnWork (stored st.1 t - stored pop.2 t) (pops t))) d
    let d := st.2.foldl (fun d t => frnCnt d (tileDie d t) 0x18 1) (modQ d id fun _ => q)
    let d := (st.1.map fun t => tileCore d t.1).eraseDups.foldl (fun d c => frnPeak d c.1 c.2) d
    let d := raiseN (total (ex.map fun x => x.2.faults)) d 0x030 q.die id
    let tile := fun (s : Node) => e.p.t0 + s.key % max 1 e.p.nT
    let goals := sortBy (fun (a b : Node) => decide ((key a).1 < (key b).1) || ((key a).1 == (key b).1 && (decide ((key a).2 < (key b).2) || ((key a).2 == (key b).2 && decide (tile a ≤ tile b)))))
      ((arr.map (·.2)).filter (inGoal e))
    match goals with
    | g :: _ => endSearch d id g true false
    | [] => if q.expansions ≥ q.cmd.budget then endBudget d id q else d

/-! ### The path and its closing stop (R233, R275) -/

/-- The nodes from the start node to `n` (R221). -/
def pathTo (ts : Tab TileStore) : Nat → Node → List Node
  | 0, n => [n]
  | fuel + 1, n =>
    match n.parent with
    | none => [n]
    | some (t, i) => match (tgetD ts t default).nodes[i]? with
      | none => [n]
      | some p => pathTo ts fuel p ++ [n]
/-- The nodes of a query's plan. -/
def planPath (q : QueryRec) : List Node := pathTo q.tiles 41 (q.endNode.getD (q.start.getD default))
/-- The absolute time of a node. -/
def nodeTau (q : QueryRec) (n : Node) : Nat := q.startTau + n.tOff
/-- The pose of a node. -/
def nodePose (n : Node) : Pose := { x := n.x, y := n.y, yaw := n.yaw, q := n.q }
/-- The closing stop of a path given from its end: nodes are cut from the end until a rung passes; what is left of the path, and what the rungs gave (R233).
Log entry 69 DEDUCED. -/
def closeFrom (e : CheckEnv) (m : Bytes) (b : Bind) (startTau : Nat) : List Node → List Node × RungOut
  | [] => ([], {})
  | n :: rest =>
    let r := firstRung e m b (nodePose n) n.vel (startTau + n.tOff) n.rest false (List.range b.rungs)
    if r.stop.isSome || rest.isEmpty then (n :: rest, r)
    else let x := closeFrom e m b startTau rest; (x.1, x.2.after r)
/-- The checks of a query's closing stop: hard and reservation planes, reach 0 (R235). -/
def stopChk (d : Dev) (q : QueryRec) : CheckEnv := pinChk d q 5 0
/-- CLOSING_STOP (R233). -/
def fxClosingStop (d : Dev) (id : Nat) : Dev :=
  match tget d.q.recs id with
  | none => d
  | some q =>
    if q.stage ≠ .closing || stuck d q then d else
    let path := planPath q
    let r := closeFrom (stopChk d q) (pinModelRaw d q) q.bind q.startTau path.reverse
    modQ (raiseN r.2.faults (tileWork d (planOf q.cmd).t0 r.2.work) 0x030 q.die id) id fun q =>
      { q with stage := .finish, endNode := r.1.head?, stop := r.2.stop, cut := q.cut || decide (r.1.length < path.length), accSat := q.accSat || r.2.flags.accSat }
/-- The knots of stage 6 (R275): time, pose, and the step that holds it (0 the start node). -/
def planKnots (d : Dev) (q : QueryRec) (path : List Node) : List (Nat × Pose × Nat) :=
  let sets := (searchEnv d q).sets
  let steps := (path.zip (path.drop 1)).zipIdx.flatMap fun p =>
    let raw := ((sets.find? fun s => s.1 == p.1.2.set).map (·.2.1)).getD []
    let o := setOff raw p.1.2.prim
    (List.range (primT raw o)).map fun j => (nodeTau q p.1.1 + sampleAt (primDur raw o) (primT raw o) j, primPose raw o p.1.1 j, p.2 + 1)
  let m := pinModelRaw d q
  let brake := match q.stop, path.getLast? with
    | some s, some n => (List.range 16).map fun j =>
        let t := sampleAt (brakeDur s.tb) 16 j
        (s.ts + t, rungPose m q.bind s.rung (nodePose n) n.vel t, path.length - 1)
    | _, _ => []
  ((path.head?.map fun n => (nodeTau q n, nodePose n, 0)).toList ++ steps) ++ brake
/-- Yaw as an angle that does not jump at ±π. Log entry 72 DEDUCED. -/
def unwrapYaw : Int → List Int → List Int
  | _, [] => []
  | prev, y :: t => let v := prev + wrapYaw (y - prev); v :: unwrapYaw v t
/-- SMOOTH and RNE over the knots of a plan (R273 to R275): the step that holds the first knot that fails. -/
def checkKnots (m : Bytes) (v0 : Vel) (ks : List (Nat × Pose × Nat)) : Sol (Option Nat) := do
  let t0 := (ks.head?.map (·.1)).getD 0
  let ts := ks.map fun k => rdivAway (((k.1 - t0 : Nat) : Int) * 2 ^ 23) nsec
  let n := kinN m
  let axis := fun (f : Pose → Int) (rev : Bool) (v : Int) => do
    let f0 := if rev then 29 else 16
    let v ← convq f0 23 v
    smoothAxis ts (ks.map fun k => f k.2.1) f0 v 0 1
  let js ← (List.range n).mapM fun j => axis (fun p => p.q.getD j 0) (!kinPris m j) (v0.qd.getD j 0)
  let bs ← if kinBase m then do
      let x ← axis (·.x) false v0.vx
      let y ← axis (·.y) false v0.vy
      let y0 := (ks.head?.map fun k => k.2.1.yaw).getD 0
      let vw ← convq 29 23 v0.w
      let w ← smoothAxis ts (unwrapYaw y0 (ks.map fun k => k.2.1.yaw)) 29 vw 0 1
      pure (x, y, w)
    else pure ([], [], [])
  let g := fun (l : List (Int × Int)) i => l.getD i (0, 0)
  let rk := ks.zipIdx.map fun k =>
    ({ q := k.1.2.1.q, qd := js.map fun l => (g l k.2).1, qdd := js.map fun l => (g l k.2).2, base := { x := k.1.2.1.x, y := k.1.2.1.y, yaw := k.1.2.1.yaw },
       vx := (g bs.1 k.2).1, vy := (g bs.2.1 k.2).1, ax := (g bs.1 k.2).2, ay := (g bs.2.1 k.2).2, yawRate := (g bs.2.2 k.2).1, yawAcc := (g bs.2.2 k.2).2 } : RneKnot)
  let o ← rneRun m rk
  pure (o.viol.map fun v => ((ks[v.1]?).map fun k => k.2.2).getD 0)
/-- Stage 6 on fuel: at most four cut-backs, then the start node (R275). -/
def finishLoop (id : Nat) : Nat → Nat → Dev → QueryRec → Dev × QueryRec
  | 0, _, d, q => (d, q)
  | fuel + 1, cuts, d, q =>
    let path := planPath q
    if q.stop.isNone then (d, q) else
    let m := pinModelRaw d q
    let r := (checkKnots m ((path.head?.map (·.vel)).getD (zeroVel 0)) (planKnots d q path)).run {}
    let q := { q with accSat := q.accSat || r.2.accSat, pivot := q.pivot || decide (0 < r.2.piv) }
    let t0 := (planOf q.cmd).t0
    let k := (planKnots d q path).length
    let axes := kinN m + (if kinBase m then 3 else 0)
    let d := tileWork d t0 (slvWork 2 0 (k * (80 * axes + 96 * kinN m + 24)) r.2.piv r.2.sat)
    match r.1 with
    | none => (d, q)
    | some step =>
      if path.length ≤ 1 then (d, q) else
      let keep := if cuts ≥ 4 then path.take 1 else path.take (max 1 step)
      let c := closeFrom (stopChk d q) m q.bind q.startTau keep.reverse
      let d := cnt (tileWork d t0 c.2.work) (dieWin (tileDie d t0) + 0x121000)
      finishLoop id fuel (cuts + 1) (raiseN c.2.faults d 0x030 q.die id)
        { q with endNode := c.1.head?, stop := c.2.stop, cut := true, accSat := q.accSat || c.2.flags.accSat }
/-- STAGE_FINISH (R275): a plan that has been cut ends without the goal, its residual that of its new end node. Log entry 72 DEDUCED. -/
def fxStageFinish (d : Dev) (id : Nat) : Dev :=
  match tget d.q.recs id with
  | none => d
  | some q =>
    if q.stage ≠ .finish || stuck d q then d else
    let r := finishLoop id 6 0 d q
    let q := r.2
    let path := planPath q
    let q := if q.cut then { q with goalReached := false, partialEnd := true, endNode := q.endNode.map fun n => { n with residual := residualOf (searchEnv d q) n } } else q
    let q := { q with stage := .cover, stopInstead := decide (path.length ≤ 1) && (q.cut || q.stop.isNone) }
    modQ r.1 id fun _ => q

/-! ### Stage 7 and the plan record (R245 to R248) -/

/-- The steps of a plan with their samples (R247). -/
def planSteps (d : Dev) (q : QueryRec) (path : List Node) : List StepRec :=
  let e := searchEnv d q
  (path.zip (path.drop 1)).map fun p =>
    let s := ((e.sets.find? fun s => s.1 == p.2.set).map (·.2)).getD ([], [])
    let o := setOff s.1 p.2.prim
    let rows := (primCentres s.1 s.2 e.model p.2.prim o p.1).1
    { set := p.2.set, heading := p.2.heading, prim := p.2.prim, x := p.2.x, y := p.2.y, yaw := p.2.yaw, q := p.2.q, tOff := p.2.tOff / 1000, g := p.2.g, seq := p.2.seq,
      tau0 := nodeTau q p.1, tau1 := nodeTau q p.2, vel := p.2.vel, rest := p.2.rest,
      samples := rows.zipIdx.map fun r => { tau := nodeTau q p.1 + sampleAt (primDur s.1 o) (primT s.1 o) r.2, centres := r.1 } }
/-- The motion of a plan; none where no stop passes. -/
def planMotion (d : Dev) (q : QueryRec) : Option Motion :=
  q.stop.map fun st =>
    let path := planPath q
    { isStop := false, startTau := q.startTau, node0 := path.headD default, rho := radii (pinModelRaw d q), steps := planSteps d q path, stop := st }
/-- The 64-byte header of a plan record with `n` steps (R247). Log entry 72 DEDUCED. -/
def recordHead (q : QueryRec) (n : Nat) (clearance : Nat) : Bytes :=
  let e := q.endNode.getD default
  let p := planOf q.cmd
  let ver := fun i => ((q.pinSets.find? fun s => s.1 == i).map fun s => s.2.2).getD 0xffffffff
  leBytes 4 q.cmd.tag ++ leBytes 2 p.agent ++ leBytes 1 n ++
  leBytes 1 (b2n q.goalReached + 2 * b2n q.partialEnd + 4 * b2n q.timeLimited + 8 * b2n q.accSat + 16 * b2n q.pivot + 32 * b2n q.nodeFull + 64 * b2n q.ikDegraded) ++
  leBytes 4 ((q.pinMaps.head?.map (·.2)).getD 0) ++ leBytes 4 ((q.pinModel.map (·.2)).getD 0) ++ (List.range 4).flatMap (fun i => leBytes 4 (ver i)) ++
  leBytes 4 ((q.pinHeur.map (·.2)).getD 0xffffffff) ++ leBytes 4 e.g ++ leBytes 4 q.expansions ++ leBytes 4 (if q.goalReached then 0 else e.residual) ++
  leBytes 8 clearance ++ leBytes 8 q.startTau
/-- A step record (R247). Log entry 68 DEDUCED. -/
def stepBytes (n : Node) : Bytes :=
  leBytes 1 n.set ++ leBytes 1 n.heading ++ leBytes 2 n.prim ++ sbytes 4 n.x ++ sbytes 4 n.y ++ sbytes 4 n.yaw ++ leBytes 4 (n.tOff / 1000) ++ leBytes 4 n.g ++
  leBytes 4 n.seq ++ zeros 4
/-- Nanoseconds rounded up to whole µs. -/
def upUs (ns : Nat) : Nat := (ns + 999) / 1000
/-- The closing-stop record (R247). Log entry 58 DEDUCED. -/
def stopBytes (s : Option StopRec) : Bytes :=
  match s with
  | none => zeros 32
  | some s => leBytes 1 (s.rung + 4 * b2n s.atRest) ++ zeros 3 ++ leBytes 4 (upUs s.tb) ++ leBytes 8 s.ts ++ sbytes 4 s.x ++ sbytes 4 s.y ++ sbytes 4 s.yaw ++ zeros 4
/-- Header, steps and closing stop: the result content of a plan (R247, R248). A record that the lead placed stands for the twin's own (R491). -/
def planContent (q : QueryRec) (withSteps : Bool) : Bytes :=
  if q.tlPlaced && withSteps then q.result else
  let path := planPath q
  let steps := if withSteps then path.drop 1 else []
  let clr := (path.drop 1).foldl (fun a n => min a n.clearance) (2 ^ 64 - 1)
  recordHead q steps.length clr ++ steps.flatMap stepBytes ++ stopBytes q.stop
/-- The run part (R247). -/
def runPart (d : Dev) (q : QueryRec) (content : Bytes) (released : Nat) (staleHit stopRel : Bool) : Bytes :=
  leBytes 8 (crc64 0 content) ++ leBytes 6 released ++
  leBytes 1 (b2n staleHit + 2 * b2n q.replanned + 4 * b2n stopRel + 8 * b2n d.ldg.replay + 16 * b2n (simplex d)) ++ zeros 17
/-- A whole plan record. -/
def planRecord (d : Dev) (q : QueryRec) (withSteps : Bool) (released : Nat) (staleHit stopRel : Bool) : Bytes :=
  let c := planContent q withSteps
  c ++ runPart d q c released staleHit stopRel
/-- A plan that is released with the lead's record: a TIME_LIMITED one (R491), or one that a joining twin inherits (R500). Log entry 65 DEDUCED. -/
def needsTl (d : Dev) (q : QueryRec) : Bool :=
  let p := planOf q.cmd
  q.kind == .plan && (q.viaEntry || (q.timeLimited && p.commit && p.partialTl && d.pkg.twin))
/-- FOOTPRINT_COVER (R245, R246): the plan is ready for release; one whose footprint is too large ends instead. Log entry 63 DEDUCED. -/
def fxCover (d : Dev) (id : Nat) : Dev :=
  match tget d.q.recs id with
  | none => d
  | some q =>
    if q.stage ≠ .cover || stuck d q then d else
    let foots := match planMotion d q with
      | none => []
      | some mo => q.pinMaps.foldl (fun (t : Tab Foot) (h : Nat × Nat) => match tget d.world.maps h.1 with
          | some m => tput t h.1 (motionFoot m mo 0)
          | none => t) ([] : Tab Foot)
    if foots.any fun f => decide (f.2.cells.length > 262144) then endQuery d id stBadRange 3 (some (planRecord d q true 0 false false))
    else
      let lead := needsTl d q && (d.twin.role == Role.lead || d.twin.role == Role.solo)
      let d := modQ d id fun q => { q with stage := .ready, foots := foots }
      if lead then { d with twin := { d.twin with tlDue := d.twin.tlDue ++ [planRecord d q true 0 false false] } } else d

/-- GOAL_SOLVE_END. -/
def execGoalSolveEnd (q : Nat) (s : State) : Host.Outcome State Fault Refusal := onDev s fun d => fxGoalSolve d q
/-- SEARCH_STEP. -/
def execSearchStep (q : Nat) (s : State) : Host.Outcome State Fault Refusal := onDev s fun d => fxSearchStep d q
/-- CLOSING_STOP. -/
def execClosingStop (q : Nat) (s : State) : Host.Outcome State Fault Refusal := onDev s fun d => fxClosingStop d q
/-- STAGE_FINISH. -/
def execStageFinish (q : Nat) (s : State) : Host.Outcome State Fault Refusal := onDev s fun d => fxStageFinish d q
/-- FOOTPRINT_COVER. -/
def execFootprintCover (q : Nat) (s : State) : Host.Outcome State Fault Refusal := onDev s fun d => fxCover d q

end Sys2Proof.Machine
end

