-- ==== Sys2Proof/Machine/Queries.lean ====
section
/-! DEFINITION. Entering, activating, cancelling and ending queries (R55, R63, R68, R69, R152, R218 to R220, R276 to R281, R297 to R301, R363,
R392 to R400). -/
namespace Sys2Proof.Machine

/-- OK_PARTIAL. -/
def stPartial : Nat := 1
/-- STALE_HIT. -/
def stStaleHit : Nat := 2
/-- TIME_LIMITED. -/
def stTimeLimited : Nat := 3

/-! ### Entering the ledger turn -/

/-- What an opcode of R392 asks for. -/
def qKindOf (op : Nat) : QKind :=
  match op with
  | 0x500 => .plan
  | 0x501 => .stopVerify
  | 0x600 => .solve
  | _ => .select
/-- A twin is joining, and the join turn has not begun: queries admitted now are inherited (R500 items 2 to 4). -/
def inherits (d : Dev) : Bool :=
  (d.twin.role == .attaching && d.twin.tailNext.isSome && decide (d.twin.attach ≤ 4)) ||
  (d.twin.role == .solo && d.twin.snapTurn.isNone && (d.twin.attach == 2 || d.twin.attach == 4))
/-- A query takes its place with its stamp (R239, R397); `ag` is its agent and `ctrl` the agent's controller address (R249). -/
def enterQuery (d : Dev) (c : Cmd) (ag : Nat) (ctrl : Nat × Nat × Nat) : Dev :=
  let q : QueryRec := { (default : QueryRec) with
    kind := qKindOf c.op, cmd := c, places := placesOf c.block.length, agent := ag, admTurn := d.time.turn, admIndex := d.ldg.pos, stage := .entered,
    die := queryDie d c, ctrl := ctrl, viaEntry := inherits d && c.op != 0x501, foreign := d.twin.role == .attaching && inherits d && c.op != 0x501 }
  { d with q := { d.q with recs := tput d.q.recs d.q.next q, next := d.q.next + 1 } }
/-- The controller address of an agent. -/
def ctrlOf (a : AgentRec) : Nat × Nat × Nat := (a.bind.ctrlPort, a.bind.ctrlMac, a.bind.ctrlVlan)
/-- The query's class and budget are in range. -/
def qHeadOk (c : Cmd) : Bool := decide (c.cls ≤ 3) && c.budget != 0
/-- The agent that a command names, when it belongs to the command's polder. -/
def ownAgent (d : Dev) (c : Cmd) (h : Nat) : Option AgentRec :=
  (tget d.world.agents h).bind fun a => if a.polder = c.polder then some a else none
/-- The heuristic model of a PLAN may be used (R210). Log entry 61 DEDUCED. -/
def heurOk (d : Dev) (p : Nat) (h : Option Nat) : Bool :=
  match h with
  | none => true
  | some x => ((tget d.world.models x).map fun m => m.kind == 3 && m.owner == p && !m.removed).getD false
/-- All maps of a query have one slice length (R158). -/
def sameSlices (d : Dev) (hs : List Nat) : Bool :=
  match hs with
  | [] => true
  | h :: t => t.all fun x => (tget d.world.maps x).map (·.sliceMs) == (tget d.world.maps h).map (·.sliceMs)
/-- PLAN in its ledger turn (R118, R158, R210, R218, R219, R363). Log entry 36 DEDUCED. -/
def fxPlan (d : Dev) (c : Cmd) : Dev :=
  let p := planOf c
  let a := tget d.world.agents p.agent
  if !planRangeOk c (a.map fun a => kinN (curModelRaw d a.bind.model)) || !qHeadOk c then answer d c stBadRange 0 else
  if tagTaken d c.polder c.tag then answer d c stBadState 4 else
  match ownAgent d c p.agent with
  | none => dikeRefuse d c
  | some a =>
    if a.leaving || (planSlots p a.bind).isNone then answer d c stBadState 0
    else if !((a.bind.homeMap :: p.maps).all fun h => mapUsable d c.polder h) || !heurOk d c.polder p.heur then dikeRefuse d c
    else if !sameSlices d (a.bind.homeMap :: p.maps) then answer d c stBadState 0
    else enterQuery d c p.agent (ctrlOf a)
/-- STOP_VERIFY in its ledger turn (R152, R366, R370). Log entry 36 DEDUCED. -/
def fxStopVerify (d : Dev) (c : Cmd) : Dev :=
  let b := c.block; let h := fld b 0 2
  let own := match c.origin with
    | .field _ ag => ag == h
    | _ => true
  if b.length ≠ 4 || h > 4095 || fld b 2 1 > 1 || fld b 3 1 ≠ 0 || c.cls ≠ 0 || !qHeadOk c || !own then answer d c stBadRange 0 else
  if tagTaken d c.polder c.tag then answer d c stBadState 4 else
  match ownAgent d c h with
  | none => dikeRefuse d c
  | some a => if a.leaving || a.state = 0 then answer d c stBadState 0 else enterQuery d c h (ctrlOf a)
/-- The problem records of a SOLVE block. -/
def solveRecs (b : Bytes) : List Bytes := (List.range (fld b 8 2)).map fun i => slice b (64 + fld b 48 4 * i) (fld b 48 4)
/-- The fields of a SOLVE block that no model bears on are in range (R278, R279, R281). -/
def solveBlockOk (c : Cmd) : Bool :=
  let b := c.block
  decide (64 ≤ b.length) && decide (b.length ≤ 4194304) && solveHdrRange b && allZero (slice b 52 12) && b.length == 64 + fld b 8 2 * fld b 48 4 &&
  (solveRecs b).all (solveRecHead (fld b 0 1)) && (c.cls != 0 || ((fld b 0 1 == 1 || fld b 0 1 == 2 || fld b 0 1 == 4) && decide (fld b 8 2 ≤ 16)))
/-- The whole block is in range for a model (R278, R279). -/
def solveModelOk (m : Bytes) (c : Cmd) : Bool :=
  let b := c.block
  solveHdrOk m b && (solveRecs b).all fun r => solveRecLen m (fld b 0 1) r == fld b 48 4 && solveRecOk m b r
/-- SOLVE in its ledger turn (R278, R281). Log entry 36 DEDUCED. -/
def fxSolve (d : Dev) (c : Cmd) : Dev :=
  let b := c.block; let h := fld b 2 2
  let m := tget d.world.models h
  let m1 := m.filter fun m => m.kind == 1
  let use := bitAt (fld b 1 1) 0
  if !solveBlockOk c || !qHeadOk c || !((m1.map fun m => solveModelOk (modelDef m) c).getD true) then answer d c stBadRange 0 else
  if tagTaken d c.polder c.tag then answer d c stBadState 4 else
  if (m.map fun m => m.owner != c.polder).getD true || (use && (ownAgent d c (fld b 4 2)).isNone) then dikeRefuse d c
  else if m1.isNone || (m.map fun m => m.removed || m.vers.isEmpty).getD true ||
      (use && ((ownAgent d c (fld b 4 2)).map fun a => a.bind.model != h || a.state == 0 || a.snap.isNone).getD true) then answer d c stBadState 0
  else enterQuery d c (fld b 4 2) (0, 0, 0)
/-- SELECT in its ledger turn (R297, R301). Log entry 36 DEDUCED. -/
def fxSelect (d : Dev) (c : Cmd) : Dev :=
  if !selBlkOk c.block (c.cls == 0) || !qHeadOk c then answer d c stBadRange 0
  else if tagTaken d c.polder c.tag then answer d c stBadState 4 else enterQuery d c 0 (0, 0, 0)

/-! ### Activation (R398 to R400) -/

/-- A query waits for its first active slot, or again after its die was fenced (R399, R502). -/
def waitsSlot (q : QueryRec) : Bool :=
  match q.stage with
  | .spilled => true
  | .entered => !(q.replanned && decide (q.actTurn ≠ 0))
  | _ => false
/-- A query of classes 1 to 3 holds an active slot: until it ends, and in the turn in which it ends (R399, R400). -/
def holdsSlot (d : Dev) (q : QueryRec) : Bool :=
  decide (q.cmd.cls ≠ 0) && decide (q.actTurn ≠ 0) && (if q.stage = .ended then q.endTurn == d.time.turn else !waitsSlot q)
/-- The sets that a PLAN's mask picks are joint-space sets for at least one slot (R221). -/
def usesJoint (d : Dev) (q : QueryRec) : Bool :=
  let p := planOf q.cmd
  let hs := if q.pinSets.isEmpty then
      match tget d.world.agents q.agent with
      | none => []
      | some a => ((planSlots p a.bind).getD []).map fun i => a.bind.sets.getD i 0xffff
    else q.pinSets.map fun s => s.2.1
  hs.any fun h => ((tget d.world.sets h).map fun s => s.kind == 2).getD false
/-- Bytes of a query's node store (R221). -/
def nodeStore (d : Dev) (q : QueryRec) : Nat :=
  if q.kind = .plan then (planOf q.cmd).nodesMax * (if usesJoint d q then 128 else 64) else 0
/-- Bytes of the search pool of every die, set by the image (R254, R305). -/
def poolBytes (d : Dev) : Nat := fld (actImg d) 18 2 * 1048576
/-- Bytes of the pool of a die that node stores hold. -/
def poolUsed (d : Dev) (die : Nat) : Nat := total ((d.q.recs.filter fun q => q.2.die == die && holdsSlot d q.2).map fun q => nodeStore d q.2)
/-- Active slots in use on a die. -/
def slotsHeld (d : Dev) (die : Nat) : Nat := (d.q.recs.filter fun q => q.2.die == die && holdsSlot d q.2).length
/-- Cost of a query in the deficit counters (R398). -/
def drrCost (q : QueryRec) : Nat :=
  256 * match q.kind with
    | .plan => (planOf q.cmd).nT
    | .solve => fld q.cmd.block 7 1
    | .select => fld q.cmd.block 13 1
    | .stopVerify => 1

/-- A PLAN pins and takes its start node and the agent's binding, or ends without work (R15, R143, R147, R151, R152, R220, R400); a re-plan (R242) pins
afresh, with the latest snapshot, and is tested again. Log entry 99 DEDUCED. -/
def pinPlan (d : Dev) (id : Nat) (q : QueryRec) : Dev :=
  let p := planOf q.cmd
  match tget d.world.agents q.agent with
  | none => endQuery d id stBadState 0
  | some a =>
    let manual := (a.snap.map fun s => bitAt (fld s.raw 1 1) 2).getD false
    let hs := (a.bind.homeMap :: p.maps).eraseDups
    let maps := hs.filterMap fun h => ((tget d.world.maps h).bind fun m => if m.removed then none else curVer m).map fun v => (h, v.ver)
    let slots := (planSlots p a.bind).getD []
    let sets := slots.filterMap fun i =>
      let h := a.bind.sets.getD i 0xffff
      ((tget d.world.sets h).bind curSet).map fun v => (i, h, v.ver)
    let mod := ((tget d.world.models a.bind.model).bind curModel)
    let heur := p.heur.bind fun h => ((tget d.world.models h).bind curModel).map fun v => (h, v.ver)
    if a.state ≠ 1 || manual || maps.length ≠ hs.length || slots.isEmpty || sets.length ≠ slots.length || (p.heur.isSome && heur.isNone) then endQuery d id stBadState 0
    else match mod with
    | none => endQuery d id stBadState 0
    | some m =>
      match startPose m.raw a q.cmd.deadline with
      | none => endQuery d id stBadState 2
      | some (pose, vel, rest, tau) =>
        let raws := sets.map fun s => (s.1, setAt d s.2.1 s.2.2)
        let n := startNode (firstLattice raws) pose vel rest
        modQ d id fun q => { q with stage := .goal, pinMaps := maps, pinModel := some (a.bind.model, m.ver), pinSets := sets, pinHeur := heur,
                                    content := imgContent (actImg d), snap := a.snap, bind := a.bind, homeMap := a.bind.homeMap, start := some n.1, startTau := tau, latOk := n.2 }
/-- A SOLVE or SELECT pins what it uses. -/
def pinWork (d : Dev) (id : Nat) (q : QueryRec) : Dev :=
  if q.kind = .select then modQ d id fun q => { q with stage := .compute, content := imgContent (actImg d) } else
  let h := fld q.cmd.block 2 2
  match (tget d.world.models h).bind curModel with
  | none => endQuery d id stBadState 0
  | some v => modQ d id fun q => { q with stage := .compute, pinModel := some (h, v.ver), content := imgContent (actImg d),
                                          snap := if bitAt (fld q.cmd.block 1 1) 0 then (tget d.world.agents q.agent).bind (·.snap) else none }
/-- A query pins and starts (R15, R400). -/
def pinQuery (d : Dev) (id : Nat) (q : QueryRec) : Dev :=
  match q.kind with
  | .plan => pinPlan d id q
  | .stopVerify => modQ d id fun q => { q with stage := .ready }
  | _ => pinWork d id q
/-- A query takes an active slot; one that has held one before keeps its pins and snapshot (R502). -/
def activateQ (d : Dev) (id : Nat) : Dev :=
  match tget d.q.recs id with
  | none => d
  | some q =>
    if q.actTurn ≠ 0 && q.pinMaps.length + q.pinModel.toList.length > 0 then
      modQ d id fun q => { q with stage := if q.kind = .plan then .goal else .compute }
    else
      let q := { q with actTurn := max 1 d.time.turn }
      pinQuery (modQ d id fun _ => q) id q

/-- Where an activation pass stands: the device, activations made per die, queries that the limit of 256 has held back, the last polder that activated one. -/
structure PassSt where
  d : Dev
  acts : Tab Nat
  held : List Nat
  last : Option Nat
  deriving DecidableEq, Repr, Inhabited
/-- Stamp order (R239). -/
def stampLe (a b : Nat × QueryRec) : Bool := decide (a.2.admTurn < b.2.admTurn) || (a.2.admTurn == b.2.admTurn && decide (a.2.admIndex ≤ b.2.admIndex))
/-- The oldest waiting query of a polder and class. -/
def headQ (d : Dev) (p c : Nat) : Option (Nat × QueryRec) :=
  (sortBy stampLe (d.q.recs.filter fun q => q.2.cmd.polder == p && q.2.cmd.cls == c && waitsSlot q.2)).head?
/-- Why a head is blocked: 0 it is not, 1 no slot or pool, 2 the 256 activations of its die (R398). -/
def headBlock (s : PassSt) (q : QueryRec) : Nat :=
  if slotsHeld s.d q.die ≥ 2048 || poolUsed s.d q.die + nodeStore s.d q > poolBytes s.d && q.kind == .plan then 1
  else if tgetD s.acts q.die 0 ≥ 256 then 2 else 0
/-- A polder's turn in a round: heads are activated while its deficit lasts. -/
def drainP (p c : Nat) : Nat → PassSt → PassSt
  | 0, s => s
  | fuel + 1, s =>
    match headQ s.d p c with
    | none => s
    | some (id, q) =>
      match headBlock s q with
      | 1 => s
      | 2 => if s.held.contains id then s else { s with held := s.held ++ [id] }
      | _ =>
        if drrCost q > (polder s.d p).deficit then s else
        let d := activateQ (modPolder s.d p fun x => { x with deficit := x.deficit - drrCost q }) id
        drainP p c fuel { s with d := d, acts := tput s.acts q.die (tgetD s.acts q.die 0 + 1), last := some p }
/-- One round over the polders. -/
def drrRound (c fuel : Nat) (order : List Nat) (s : PassSt) : PassSt :=
  order.foldl (fun s p =>
    if (headQ s.d p c).isNone then s else
    drainP p c fuel { s with d := modPolder s.d p fun x => { x with deficit := min (x.deficit + x.weight) (x.weight + 8192) } }) s
/-- Rounds until every polder that has a waiting query of the class has a blocked head. -/
def drrRounds (c : Nat) (order : List Nat) : Nat → Nat → PassSt → PassSt
  | 0, _, s => s
  | fuel + 1, n, s =>
    let open_ := order.any fun p => match headQ s.d p c with
      | none => false
      | some h => headBlock s h.2 == 0
    if open_ then drrRounds c order fuel n (drrRound c n order s)
    else
      -- a head that only the limit of 256 holds back is counted even when no round runs for it
      { s with held := order.foldl (fun l p => match headQ s.d p c with
          | none => l
          | some h => if headBlock s h.2 = 2 && !l.contains h.1 then l ++ [h.1] else l) s.held }
/-- Polders that exist, in ascending number. -/
def polders (d : Dev) : List Nat := (List.range 17).filter fun p => decide ((polder d p).state ≠ 0)
/-- The result block of a SOLVE (R280). -/
def solveResult (q : QueryRec) (recs : List Bytes) (deg tl : Bool) : Bytes :=
  let body := recs.flatten
  leBytes 1 (fld q.cmd.block 0 1) ++ leBytes 1 (b2n deg + 2 * b2n tl) ++ leBytes 2 recs.length ++ leBytes 4 ((q.pinModel.map (·.2)).getD 0) ++
  leBytes 8 (crc64 0 body) ++ zeros 16 ++ body
/-- Problem i of a SOLVE and the logical tile that it runs on (R278). -/
def solveTiled (q : QueryRec) : List (Bytes × Nat) :=
  (solveRecs q.cmd.block).zipIdx.map fun r => (r.1, fld q.cmd.block 6 1 + r.2 % max 1 (fld q.cmd.block 7 1))
/-- What the problems of a SOLVE count at their tiles (R283). -/
def solveCounts (d : Dev) (q : QueryRec) (os : List SolveOut) : Dev :=
  ((solveTiled q).zip os).foldl (fun d x =>
    tileWork d x.1.2 (slvWork 1 (if fld q.cmd.block 0 1 = 3 then x.2.iters else 0) x.2.macs x.2.piv x.2.sat)) d
/-- A SOLVE ends with the outcomes of its problems, each with whether its deadline stopped it (R280, R281). -/
def solveFinish (d : Dev) (id : Nat) (q : QueryRec) (os : List (SolveOut × Bool)) : Dev :=
  let deg := (os.filter fun o => decide (0 < o.1.piv)).length
  let tl := os.any (·.2)
  endQuery (solveCounts d q (os.map (·.1))) id (if tl then stTimeLimited else if os.any (·.1.budgetEnd) then stPartial else 0) deg
    (some (solveResult q (os.map fun o => solveRecord o.1 o.2 false 0) (decide (0 < deg)) tl))
/-- A SOLVE completes (R281). Log entry 35 DEDUCED. -/
def solveEnd (d : Dev) (id : Nat) (q : QueryRec) : Dev :=
  let m := pinModelRaw d q
  let snap := q.snap.map fun s => snapOf m s.raw
  solveFinish d id q ((solveRecs q.cmd.block).map fun r => (solveProblem m q.cmd.block r snap q.cmd.budget, false))
/-- What the operations of a SELECT count, each with the logical tile that it runs on (R298, R299): the chunks on their tiles, the merge of their outputs, or of
the lists of a MERGE, on tile t0. Log entry 45 DEDUCED. -/
def selectWork (b : Bytes) : List (Nat × Work) :=
  let op := fld b 0 1; let md := fld b 1 1; let k := fld b 8 4; let n := fld b 4 4; let nt := max 1 (fld b 13 1); let t0 := fld b 12 1
  let es := elemsOf n (b.drop (selBlkHead b))
  if op = 4 then [(t0, mergeWork md (cutLens (selBlkLens b) es))] else
  let op1 := if op = 2 ∧ k > 1024 then 1 else op
  let c := (n + nt - 1) / nt
  let chunks := (List.range nt).filterMap fun j => let x := (es.drop (j * c)).take c; if x.isEmpty then none else some (t0 + j, x)
  chunks.map (fun x => (x.1, selOpWork op1 md k [x.2])) ++
    if nt = 1 then [] else [(t0, mergeWork md (chunks.map fun x => (selRun op1 md k [x.2]).out))]
/-- A SELECT completes (R299 to R301); an unsorted MERGE list sets SEL_ERR.unsorted of the core of tile t0 (R290, R298). Log entry 35 DEDUCED. -/
def selectEnd (d : Dev) (id : Nat) (q : QueryRec) : Dev :=
  let b := q.cmd.block
  let o := selBlkRun b
  let d := (selectWork b).foldl (fun d w => tileWork d w.1 w.2) (cnt d (dieWin q.die + 0x131000) (b2n (fld b 0 1 == 2 && decide (fld b 8 4 > 1024))))
  let c := tileCore d (fld b 12 1)
  match o.broke with
  | some (l, _) => endQuery (cnt (stick d (engReg c.1 3 c.2 8) 4) (dieWin c.1 + 0x131004)) id stBadRange l
  | none => endQuery d id 0 o.out.length (some (selResult b o false))
/-- A problem of a SOLVE when its deadline comes: how far it got, `v`, is open. An IK problem gives the best iterate of the iterations made (R270); any other has
ended or has a body that lies outside R71. The flag: the deadline stopped it. Log entries 2 DESIGN CHOICE, 35 DEDUCED. -/
def lateProblem (m blk rec : Bytes) (snap : Option SnapVals) (budget v : Nat) : SolveOut × Bool :=
  if fld blk 0 1 = 3 then
    let o := solveProblem m blk rec snap (v % (budget + 1))
    let stopped := !o.converged && decide (v % (budget + 1) < budget)
    ({ o with budgetEnd := o.budgetEnd && !stopped }, stopped)
  else if v % 2 = 0 then (solveProblem m blk rec snap budget, false)
  else ({ body := leBytes (solveBodyLen m blk rec) (v / 2) }, true)
/-- The problems of a SOLVE when its deadline comes. -/
def lateProblems (d : Dev) (q : QueryRec) : List (SolveOut × Bool) × Dev :=
  let m := pinModelRaw d q
  let snap := q.snap.map fun s => snapOf m s.raw
  (solveRecs q.cmd.block).foldl (fun (acc : List (SolveOut × Bool) × Dev) r =>
    let v := freeVal acc.2
    (acc.1 ++ [lateProblem m q.cmd.block r snap q.cmd.budget v.1], v.2)) ([], d)
/-- An inherited SOLVE or SELECT ends on the joiner at its deadline, without a reply: the lead has answered it (R500). Log entry 24 DEDUCED. -/
def dropQuery (d : Dev) (id : Nat) : Dev := modQ d id fun q => { q with stage := .ended, endTurn := d.time.turn }
/-- A SOLVE or SELECT that works ends at its deadline (R281, R301). Log entry 35 DEDUCED. -/
def workLate (d : Dev) (id : Nat) (q : QueryRec) : Dev :=
  if q.foreign then dropQuery d id else
  match q.kind with
  | .solve => let r := lateProblems d q; solveFinish r.2 id q r.1
  | .select => endQuery d id stTimeLimited 0 (some (selResult q.cmd.block (default : SelOut) true))
  | _ => d
/-- A query that still waits for a slot at its deadline ends TIME_LIMITED, without work; a SELECT with the head of its result block (R69, R301, R400). Log
entry 35 DEDUCED. -/
def waitLate (d : Dev) (id : Nat) (q : QueryRec) : Dev :=
  if q.kind = .select || q.kind = .solve && q.foreign then workLate d id q else endQuery d id stTimeLimited 0
/-- A query waits past its deadline turn: it ends without work (R69, R400). Log entry 35 DEDUCED. -/
def endLate (d : Dev) : Dev :=
  (d.q.recs.filter fun q => (waitsSlot q.2) && decide (deadlineTurn d q.2.cmd < d.time.turn)).foldl (fun d q => waitLate d q.1 q.2) d
/-- Queries left waiting take their spillway places (R399). -/
def spillRest (d : Dev) : Dev :=
  (d.q.recs.filter fun q => q.2.stage == .entered && waitsSlot q.2 && q.2.cmd.cls != 0).foldl (fun d q => cnt (modQ d q.1 fun q => { q with stage := .spilled }) 0x100030) d
/-- The activation pass of a turn (R398). -/
def activationPass (d : Dev) : Dev :=
  let d := endLate d
  let d := (sortBy stampLe (d.q.recs.filter fun q => q.2.cmd.cls == 0 && waitsSlot q.2)).foldl (fun d q => activateQ d q.1) d
  let ps := polders d
  let order := (ps.filter fun p => decide (d.q.rr ≤ p)) ++ ps.filter fun p => decide (p < d.q.rr)
  let n := (d.q.recs.filter fun q => waitsSlot q.2).length
  let s := [1, 2, 3].foldl (fun s c => drrRounds c order (8193 * (n + 1)) (n + 1) s) ({ (default : PassSt) with d := d })
  let d := cnt s.d 0x10003C s.held.length
  let d := ps.foldl (fun d p => if d.q.recs.any fun q => q.2.cmd.polder == p && q.2.cmd.cls != 0 && waitsSlot q.2 then d else modPolder d p fun x => { x with deficit := 0 }) d
  let d := spillRest d
  match s.last with
  | none => d
  | some p => { d with q := { d.q with rr := ((ps.filter fun x => decide (p < x)).head?).getD (ps.headD 0) } }

/-! ### Work of SOLVE and SELECT, budgets and deadlines -/

/-- The work of a SOLVE or SELECT ends, or a search ends on its budget or on an empty frontier (R68, R231, R276); work on a fenced die makes no progress, and of
class 0 ends (R502). Log entry 35 DEDUCED. -/
def fxBudgetEnd (d : Dev) (id : Nat) : Dev :=
  match tget d.q.recs id with
  | none => d
  | some q =>
    if stuck d q then (if q.stage = .compute && q.cmd.cls = 0 && !q.foreign then endQuery d id stInvalid 4 else d) else
    match q.stage, q.kind with
    | .search, _ => if frontierEmpty q || q.expansions ≥ q.cmd.budget then endBudget d id q else d
    | .compute, .solve => solveEnd d id q
    | .compute, .select => selectEnd d id q
    | _, _ => d
/-- The end of the deadline turn, or a later one, finds the query without an end (R69, R232). Log entry 35 DEDUCED. -/
def fxDeadline (d : Dev) (id : Nat) : Dev :=
  match tget d.q.recs id with
  | none => d
  | some q =>
    if d.time.turn < deadlineTurn d q.cmd then d
    else if waitsSlot q then waitLate d id q
    else match q.stage with
    | .goal => endSearch d id (bestNode q.tiles (q.start.getD default)) false true
    | .search => endSearch d id (bestNode q.tiles (q.start.getD default)) false true
    | .compute => workLate d id q
    | _ => d
/-- A query whose re-plan starts in this turn pins again; past its deadline turn its search is over before it begins (R242). Log entry 35 DEDUCED. -/
def startReplans (d : Dev) : Dev :=
  (sortBy stampLe (d.q.recs.filter fun q => q.2.stage == .entered && !waitsSlot q.2)).foldl (fun d q =>
    let d := pinQuery d q.1 q.2
    match tget d.q.recs q.1 with
    | some r => if r.stage = .goal && decide (deadlineTurn d r.cmd < d.time.turn) then endSearch d q.1 (r.start.getD default) false true else d
    | none => d) d
/-- PLAN_CANCEL (R55, R244, R370). -/
def fxPlanCancel (d : Dev) (c : Cmd) : Dev :=
  if c.block.length ≠ 4 then answer d c stBadRange 0 else
  let ids := ((liveQueries d).filter fun q => q.2.cmd.polder == c.polder && q.2.cmd.tag == fld c.block 0 4).map (·.1)
  ok (endQueries d ids stCancelled 0) c (if ids.isEmpty then 0 else 1)

/-- PLAN. Log entry 37 DESIGN CHOICE. -/
def execPlan (c : Cmd) (s : State) : Host.Outcome State Fault Refusal := onDev s fun d => activationPass (fxPlan d c)
/-- STOP_VERIFY. -/
def execStopVerify (c : Cmd) (s : State) : Host.Outcome State Fault Refusal := onDev s fun d => activationPass (fxStopVerify d c)
/-- PLAN_CANCEL. -/
def execPlanCancel (c : Cmd) (s : State) : Host.Outcome State Fault Refusal := onDev s fun d => fxPlanCancel d c
/-- SOLVE. -/
def execSolve (c : Cmd) (s : State) : Host.Outcome State Fault Refusal := onDev s fun d => activationPass (fxSolve d c)
/-- SELECT. -/
def execSelect (c : Cmd) (s : State) : Host.Outcome State Fault Refusal := onDev s fun d => activationPass (fxSelect d c)
/-- BUDGET_END. -/
def execBudgetEnd (q : Nat) (s : State) : Host.Outcome State Fault Refusal := onDev s fun d => fxBudgetEnd d q
/-- DEADLINE_EXPIRY. -/
def execDeadlineExpiry (q : Nat) (s : State) : Host.Outcome State Fault Refusal := onDev s fun d => fxDeadline d q

end Sys2Proof.Machine
end

