-- ==== Sys2Proof/Machine/Release.lean ====
section
/-! DEFINITION. The release phase (R16, R17, R52, R153, R232, R236, R239 to R252, R471, R491, R492) and egress of result frames (R18, R82, R83). -/
namespace Sys2Proof.Machine

/-! ### Results and their replies -/

/-- Results of this turn wait for the twin's digest (R18, R486, R492). -/
def twinWaits (d : Dev) : Bool :=
  d.pkg.twin && !d.ldg.replay && (match d.twin.role with
    | .lead => true
    | .follow => true
    | .arbitrating => d.twin.prev == Role.follow
    | _ => false)
/-- The package releases at all in its role (R486); in replay it does, towards the host (R87). -/
def releasing (d : Dev) : Bool :=
  !d.pkg.twin || d.ldg.replay || (match d.twin.role with
    | .detached => false
    | .quarantined => false
    | _ => true)
/-- Where a result goes and how it stands on its port (R82, R83, R249). -/
structure ResultTo where
  agent : Nat
  ctrl : Nat × Nat × Nat
  order : Nat
  pcp : Nat
  ty : Nat
  stop : Bool
  deriving DecidableEq, Repr, Inhabited
/-- A result queued at its release: its frame, if it sends one, and the reply of its query, both held for the twin where `waits` says so. In ATTACHING only an
inherited result sends a frame (R486, R500). -/
def sendResult (d : Dev) (dest : ResultTo) (polder tag digest : Nat) (waits : Bool) (rep : Option (Cmd × Reply)) (payload : Option Bytes) : Dev :=
  let quiet := waits && d.pkg.twin && d.twin.role == .attaching
  let waits := waits && twinWaits d
  let d := if payload.isSome then modAgent d dest.agent fun a => { a with frames := a.frames + 1 } else d
  let a := tgetD d.world.agents dest.agent default
  let valid := b2n (a.state ≠ 3 && !d.wdn.safe.on)
  let body := match (if quiet then none else payload) with
    | none => []
    | some p => fieldFrame d dest.ty dest.agent a.frames (turnStart d (d.time.turn + 1)) valid (b2n dest.stop) p
  let d := match rep with
    | some (c, r) => if waits then d else reply d c r.status r.detail r.result r.admitted r.released r.due r.idx
    | none => d
  if body.isEmpty && !waits then d else
  egress d { (default : EgFrame) with
    turn := d.time.turn, agent := dest.agent, order := dest.order, port := dest.ctrl.1, mac := dest.ctrl.2.1, vlan := dest.ctrl.2.2, pcp := dest.pcp, waits := waits,
    polder := polder, tag := tag, digest := digest, rep := if waits then rep else none, body := body }
/-- The reply of a query as it ends: INVALID_SAFE in the safe state (R471). -/
def endReply (d : Dev) (q : QueryRec) (st det released : Nat) (res : Option Bytes) : Cmd × Reply :=
  let safe := d.wdn.safe.on
  (q.cmd, { tag := q.cmd.tag, status := if safe then stInvalid else st, admitted := q.admTurn, released := released, detail := if safe then 3 else det,
            result := res, noIrq := q.cmd.noIrq, due := d.time.turn, idx := q.admIndex })
/-- A query ends at its release; its reply goes with its result. -/
def closeQ (d : Dev) (id st det : Nat) (res : Bytes) (released : Nat) : Dev :=
  modQ d id fun q => { q with stage := .ended, endTurn := d.time.turn, relTurn := released, status := if d.wdn.safe.on then stInvalid else st,
                              detail := if d.wdn.safe.on then 3 else det, result := res, tiles := [] }

/-! ### Stops (R153, R236, R240, R251, R252) -/

/-- A footprint meets one released earlier in this phase for another agent on the same map (R241 item 2). -/
def phaseHit (d : Dev) (map agent : Nat) (f : Foot) : Bool := d.q.phase.any fun p => p.1 == map && p.2.1 != agent && footMeets f p.2.2
/-- A motion becomes an agent's current plan with its home-map footprint, which enters the plane at this turn's formation (R107, R245). -/
def releaseMotion (d : Dev) (agent map : Nat) (mo : Motion) (f : Foot) : Dev :=
  let d := modMap (modAgent d agent fun a => { a with cur := some mo }) map fun m => { m with events := m.events ++ [(4, .foot agent (some f))] }
  { d with q := { d.q with phase := d.q.phase ++ [(map, agent, f)] } }
/-- The motion of a committed stop. -/
def stopMotion (d : Dev) (a : AgentRec) (st : StopRec) : Motion :=
  { isStop := true, startTau := st.ts, node0 := default, rho := radii (modelAt d a.bind.model st.modelVer), steps := [], stop := st }
/-- The stop verified in this turn is released as the agent's current plan: whether there was one, whether it overlaps, and the device. Log entry 90 DEDUCED. -/
def releaseStop (d : Dev) (agent : Nat) : Bool × Bool × Dev :=
  match tget d.world.agents agent with
  | none => (false, false, d)
  | some a =>
    match a.stop, tget d.world.maps a.bind.homeMap with
    | some st, some m =>
      if st.turn ≠ d.time.turn || a.state = 3 then (false, false, d) else
      let mo := stopMotion d a st
      let f := motionFoot m mo 0
      let hit := phaseHit d a.bind.homeMap agent f
      let d := if hit then raise d 0x087 0 0xF0 agent else d
      (true, hit, frnCnt (releaseMotion d agent a.bind.homeMap mo f) (tileDie d a.tile) 0x14 1)
    | _, _ => (false, false, d)
/-- The payload of a STOP_RESULT (R251); where every rung failed, with the versions that its verification read; a stop that was never committed leaves its fields
open: a free value. Log entry 90 DEDUCED. -/
def stopPayload (d : Dev) (a : AgentRec) (tag : Nat) (engaged unsafe_ hit : Bool) : Bytes × Dev :=
  let ver := fun (kept : Nat) (read : Option Nat) => leBytes 4 (if unsafe_ then read.getD kept else kept)
  let map := ((tget d.world.maps a.bind.homeMap).bind curVer).map (·.ver)
  let model := ((tget d.world.models a.bind.model).bind curModel).map (·.ver)
  let r := match a.stop with
    | some st => (ver st.mapVer map ++ ver st.modelVer model ++ leBytes 4 (upUs st.tb) ++ leBytes 8 st.ts ++ sbytes 4 st.x ++ sbytes 4 st.y, d)
    | none => let v := freeVal d; (ver v.1 map ++ ver (v.1 / 2 ^ 32) model ++ leBytes 20 (v.1 / 2 ^ 64), v.2)
  let b := leBytes 1 a.rung ++ leBytes 1 (b2n engaged + 2 * b2n unsafe_ + 4 * b2n hit) ++ zeros 2 ++ r.1 ++ leBytes 4 tag ++ zeros 4
  (b ++ leBytes 8 (crc64 0 b) ++ leBytes 6 d.time.turn ++ zeros 10, r.2)
/-- A STOP_RESULT of an agent that answers no request (R83, R252). -/
def stopNotice (d : Dev) (agent : Nat) (engaged unsafe_ hit : Bool) : Dev :=
  match tget d.world.agents agent with
  | none => d
  | some a =>
    let p := stopPayload d a 0 engaged unsafe_ hit
    sendResult p.2 { agent := agent, ctrl := ctrlOf a, order := 1, pcp := 7, ty := 0x21, stop := engaged } a.polder 0 (crc64 0 (p.1.take 40)) true none (some p.1)
/-- Item 1 of the release order: the committed stops of agents whose stream fell silent or whose result met a mismatch (R153, R492). -/
def releaseStale (d : Dev) : Dev :=
  (d.world.agents.filter fun a => a.2.stopDue == some d.time.turn).foldl (fun d a =>
    let r := releaseStop d a.1
    let d := modAgent r.2.2 a.1 fun x => { x with stopDue := none }
    if r.1 then stopNotice (modAgent d a.1 fun x => { x with stopsReleased := satInc x.stopsReleased 1 }) a.1 true false r.2.1 else d) d
/-- A STOP_VERIFY reports the turn's verification and, where it asks so, releases the stop (R236, R252); one of a fenced die does neither (R502). -/
def finishVerify (d : Dev) (id : Nat) (q : QueryRec) : Dev :=
  match tget d.world.agents q.agent with
  | none => d
  | some a =>
    if !dieLive d q.die then endQuery d id stInvalid 4 else
    let engage := bitAt (fld q.cmd.block 2 1) 0
    let r := if engage then releaseStop d q.agent else (false, false, d)
    let bad := a.state == 3
    let p := stopPayload r.2.2 a q.cmd.tag r.1 bad r.2.1
    let released := if r.1 then d.time.turn else 0
    let rep := endReply d q 0 a.rung released (some p.1)
    let silent := (match q.cmd.origin with
      | .field _ _ => true
      | _ => false) && rep.2.status == 0
    sendResult (closeQ p.2 id 0 a.rung p.1 released) { agent := q.agent, ctrl := q.ctrl, order := 0, pcp := 7, ty := 0x21, stop := false } q.cmd.polder q.cmd.tag
      (crc64 0 (p.1.take 40)) true (if silent then none else some rep) (some p.1)
/-- The STOP_VERIFYs of the turn in stamp order (R240 item 2). -/
def verifyAll (d : Dev) : Dev :=
  (sortBy stampLe (d.q.recs.filter fun q => q.2.kind == .stopVerify && q.2.stage == .ready)).foldl (fun d q => finishVerify d q.1 q.2) d

/-! ### Plans (R240 to R243) -/

/-- A plan as it would run: the steps of the agent's plan up to its start node that end after the release turn's start, then its own (R220, R245). Log entry 62 DEDUCED. -/
def chainMotion (d : Dev) (a : AgentRec) (mo : Motion) : Motion :=
  match a.cur with
  | none => mo
  | some old =>
    let prior := old.steps.filter fun s => decide (s.tau1 ≤ mo.startTau) && decide (turnStart d d.time.turn < s.tau1)
    if prior.isEmpty then mo else { mo with startTau := old.startTau, node0 := old.node0, steps := prior ++ mo.steps }
/-- The footprints of a motion on a query's checked maps. -/
def footsOf (d : Dev) (q : QueryRec) (mo : Motion) : Tab Foot :=
  q.pinMaps.foldl (fun (t : Tab Foot) (h : Nat × Nat) => match tget d.world.maps h.1 with
    | some m => tput t h.1 (motionFoot m mo 0)
    | none => t) []
/-- The words of a version in a plane, the footprint of agent `skip` left out of its home map's reservation plane. Log entry 62 DEDUCED. -/
def recheckWord (m : MapRec) (v : MapVer) (skip : Option Nat) (plane key base : Nat) : BitVec 64 :=
  if plane = 2 && skip.isSome then
    match tget v.bricks (2 * 65536 * 16 + key / 4096) with
    | none => 0
    | some b => rebase b.base base (resvWord v.foots skip key b.base)
  else readWord m v plane (cellVox m key) base
/-- Recheck item 1 on one map (R115, R116, R241). Beyond 16 versions every tile of the cover list counts as set, in the static bitmap too, where a set
tile is a hit (R241). Log entry 57 DEDUCED. -/
def recheckMap (d : Dev) (q : QueryRec) (map ver : Nat) (f : Foot) : Bool :=
  match tget d.world.maps map with
  | none => false
  | some m =>
    match curVer m with
    | none => false
    | some cur =>
      let far := fun (v : Nat) => (v + 2 ^ 32 - ver) % 2 ^ 32
      let n := far cur.ver
      let ds := m.deltas.filter fun x => decide (1 ≤ far x.ver) && decide (far x.ver ≤ n)
      let pend := if m.pend.isEmpty then none else some (formFrom m cur cur.ver (sliceOf (turnStart d (d.time.turn + 1)) m.sliceMs) m.pend)
      let view := (pend.map (·.1)).getD cur
      let ds := ds ++ (pend.map (·.2)).toList
      if n > 16 || ds.length < n then !f.cells.isEmpty else
      let skip := if map = q.homeMap then some q.agent else none
      let planes := if (planOf q.cmd).riskHit then [0, 1, 2] else [0, 2]
      let inPlane := fun (pl t : Nat) => ds.any fun x => (match pl with
        | 0 => x.hard
        | 1 => x.risk
        | _ => x.resv).contains t
      f.cells.any fun c =>
        let t := c.1 / 65536
        ds.any (fun x => x.stat.contains t) || planes.any fun pl => inPlane pl t && (c.2 &&& recheckWord m view skip pl c.1 f.base) != 0
/-- The release recheck of a plan with its footprints (R16, R241, R243). Log entry 57 DEDUCED. -/
def recheck (d : Dev) (q : QueryRec) (foots : Tab Foot) : Bool :=
  (q.pinMaps.any fun h => match tget foots h.1 with
    | none => false
    | some f => recheckMap d q h.1 h.2 f) ||
  ((planOf q.cmd).commit && foots.any fun f => phaseHit d f.1 q.agent f.2)
/-- Status of a plan as it stands (R231, R232, R365). Log entry 72 DEDUCED. -/
def planStatus (q : QueryRec) : Nat := if q.timeLimited then stTimeLimited else if q.goalReached then 0 else stPartial
/-- The die of a query's lowest tile (R52, R240). -/
def relDie (d : Dev) (q : QueryRec) : Nat := tileDie d (planOf q.cmd).t0
/-- The plan's result leaves: its record to the host, its frame for a commit = 1 plan (R243, R247, R250). Log entry 58 DEDUCED. -/
def planOut (d : Dev) (id : Nat) (q : QueryRec) (st det : Nat) (staleHit stopRel : Bool) : Dev :=
  let rec_ := planRecord d q true d.time.turn staleHit stopRel
  let frame := planRecord d q (!stopRel) d.time.turn staleHit stopRel
  let commit := (planOf q.cmd).commit
  let d := frnCnt (closeQ d id st det rec_ d.time.turn) (relDie d q) 0x04 1
  sendResult d { agent := q.agent, ctrl := q.ctrl, order := 2, pcp := 5, ty := 0x20, stop := stopRel } q.cmd.polder q.cmd.tag (crc64 0 (planContent q (!stopRel)))
    (!q.timeLimited && !q.viaEntry) (some (endReply d q st det d.time.turn (some rec_))) (if commit then some frame else none)
/-- The committed stop is released in place of the plan; with none verified nothing moves (R232, R233, R242). Log entry 58 DEDUCED. -/
def stopInPlace (d : Dev) (id : Nat) (q : QueryRec) (st : Nat) (staleHit : Bool) : Dev :=
  let r := if (planOf q.cmd).commit then releaseStop d q.agent else (false, false, d)
  planOut r.2.2 id q st (if st = stStaleHit then b2n r.1 else 0) staleHit r.1
/-- The query runs again from stage 1 in the next turn (R242). -/
def replanQ (d : Dev) (id : Nat) (q : QueryRec) : Dev :=
  frnCnt (modQ d id fun q => { restartQ q with stage := .entered, replanned := true, pinMaps := [], pinModel := none, pinSets := [], pinHeur := none,
                                               stopInstead := false, tlPlaced := false, result := [] }) (relDie d q) 0x0C 1
/-- One ready plan in its turn of the order: the device and whether its flow waits behind it. Its footprint goes to the home map that it pinned; one that
would hold more than 262,144 entries keeps the plan from its release (R246). Log entries 62 DEDUCED, 99 DEDUCED. -/
def releasePlan (d : Dev) (id : Nat) (q : QueryRec) : Dev × Bool :=
  let p := planOf q.cmd
  match tget d.world.agents q.agent with
  | none => (endQuery d id stCancelled 0, true)
  | some a =>
    if p.commit && (q.stopInstead || (q.timeLimited && !p.partialTl)) then (stopInPlace d id q (planStatus q) false, false) else
    match planMotion d q with
    | none => (planOut d id q (planStatus q) 0 false false, false)
    | some mo =>
      let mo := if p.commit then chainMotion d a mo else mo
      let foots := footsOf d q mo
      if foots.any fun f => decide (f.2.cells.length > 262144) then (endQuery d id stBadRange 3 (some (planRecord d q true 0 false false)), true) else
      let hit := recheck d q foots
      let d := if hit then frnCnt d (relDie d q) 0x08 1 else d
      if hit && !p.flagged then (if q.replanned then (stopInPlace d id q stStaleHit true, false) else (replanQ d id q, true)) else
      let d := match p.commit, tget foots q.homeMap with
        | true, some f => releaseMotion d q.agent q.homeMap mo f
        | _, _ => d
      let d := modAgent d q.agent fun a => { a with released := satInc a.released 1 }
      (planOut d id q (if hit then stStaleHit else planStatus q) 0 hit false, false)
/-- Where item 3 of the order stands: the device, the flows that wait, the plans taken per die (R52, R240). -/
structure RelSt where
  d : Dev
  blocked : List (Nat × Nat)
  counts : Tab Nat
  deriving DecidableEq, Repr, Inhabited
/-- One query of the flows, in stamp order. Log entry 62 DEDUCED. -/
def releaseNext (s : RelSt) (id : Nat) : RelSt :=
  match tget s.d.q.recs id with
  | none => s
  | some q =>
    let flow := (q.cmd.polder, q.cmd.cls)
    let hold := { s with blocked := s.blocked ++ [flow] }
    if q.stage = .ended then (if q.endTurn = s.d.time.turn && q.relTurn = 0 then hold else s)
    else if s.blocked.contains flow then s
    else if q.stage ≠ .ready || (needsTl s.d q && !q.tlPlaced) then hold
    else
      let die := relDie s.d q
      if tgetD s.counts die 0 ≥ 256 then { hold with d := frnCnt s.d die 0x10 1 }
      else
        let r := releasePlan s.d id q
        { d := r.1, blocked := if r.2 then s.blocked ++ [flow] else s.blocked, counts := tput s.counts die (tgetD s.counts die 0 + 1) }
/-- Plans of classes 1 to 3; in the safe state every ready one ends instead (R240 item 3, R471). Log entries 62 DEDUCED, 90 DEDUCED. -/
def releasePlans (d : Dev) : Dev :=
  let qs := sortBy stampLe (d.q.recs.filter fun q => q.2.cmd.cls != 0)
  if d.wdn.safe.on then
    (qs.filter fun q => q.2.stage == .ready).foldl (fun d q => endQuery d q.1 stInvalid 3 (some (planRecord d q.2 true 0 false false))) d
  else (qs.foldl (fun s q => releaseNext s q.1) ({ (default : RelSt) with d := d })).d
/-- A joiner that has not yet applied the ledger of the turn that runs (R500 item 3). -/
def lags (d : Dev) : Bool := d.twin.tailNext.isSome && (d.ldg.current.map (·.turn)) != some d.time.turn
/-- RELEASE_PHASE: once in a turn (R240). Log entries 38 DESIGN CHOICE, 62 DEDUCED, 90 DEDUCED. -/
def fxRelease (d : Dev) : Dev :=
  if !running d || d.q.relTurn = d.time.turn || lags d then d else
  let d := { d with q := { d.q with relTurn := d.time.turn, phase := [] } }
  if !releasing d then d else releasePlans (verifyAll (releaseStale d))

/-! ### The lead's record of a TIME_LIMITED plan (R491) -/

/-- The steps, footprints and stop of a plan rebuilt from a record: the end node is the one that the record's last step or start names, and the
steps are those of the package's own search nodes with the record's numbers. A plan that the joiner inherits takes what its search gave from the record too
(R500). Log entry 65 DEDUCED. -/
def takeRecord (d : Dev) (id : Nat) (q : QueryRec) (rec_ : Bytes) : Dev :=
  let e := searchEnv d q
  let n := fld rec_ 6 1
  let start := q.start.getD default
  let nodes := (List.range n).foldl (fun (l : List Node) i =>
    let prev := l.getLast?.getD start
    let o := 64 + 32 * i
    let slot := fld rec_ o 1 % 4
    let raw := ((e.sets.find? fun s => s.1 == slot).map fun s => s.2.1).getD []
    let p := fld rec_ (o + 2) 2
    l ++ [{ primNext raw slot p (setOff raw p) (0, i) prev with seq := fld rec_ (o + 24) 4, g := fld rec_ (o + 20) 4 }]) []
  let store : TileStore := { (default : TileStore) with nodes := start :: nodes }
  let last := nodes.getLast?.getD start
  let so := 64 + 32 * n
  let r := rungTb e.model q.bind (fld rec_ so 1 % 4) last.vel
  let stop := if n = 0 && allZero (slice rec_ so 32) then none else r.map fun tb =>
    rungStop e.model q.bind (fld rec_ so 1 % 4) (nodePose last) last.vel (fld rec_ (so + 8) 8) tb (bitAt (fld rec_ so 1) 2)
  let f := fld rec_ 7 1
  let d := if !q.foreign then d else modQ d id fun q =>
    { q with stage := .ready, goalReached := bitAt f 0, partialEnd := bitAt f 1, timeLimited := bitAt f 2, accSat := bitAt f 3, pivot := bitAt f 4, nodeFull := bitAt f 5,
             ikDegraded := bitAt f 6, expansions := fld rec_ 40 4 }
  modQ d id fun q => { q with tlPlaced := true, result := rec_.take (so + 32), tiles := [(0, store)], endNode := some { last with residual := fld rec_ 44 4 }, stop := stop,
                              stopInstead := stop.isNone }
/-- TL_RECORD_ENTRY: the entry takes effect; a follow compares its own record's digest (R491). Log entry 56 DESIGN CHOICE. -/
def fxTlRecord (d : Dev) (payload : Bytes) : Dev :=
  let n := fld payload 6 1
  let content := payload.take (96 + 32 * n)
  match (liveQueries d).find? fun q => q.2.kind == .plan && q.2.cmd.tag == fld payload 0 4 && (planOf q.2.cmd).agent == fld payload 4 2 && needsTl d q.2 with
  | none => d
  | some (id, q) =>
    if q.tlPlaced || !(q.stage == .ready || (q.foreign && !waitsSlot q)) then d else
    let d := if d.twin.role = .follow && !q.viaEntry && crc64 0 (planContent q true) ≠ crc64 0 content then raise (cnt d 0x300024) 0x05B 0 0xD8 0 else d
    takeRecord d id q content

/-! ### Egress (R18, R82, R83, R249) -/

/-- A queued frame may leave: its turn has ended and nothing holds it. -/
def mayLeave (d : Dev) (f : EgFrame) : Bool :=
  !d.ldg.replay && decide (f.turn < d.time.turn || f.turn = 0) && (!f.waits || f.equal) && !(d.pkg.twin && f.order ≤ 2 &&
    (match d.twin.role with
      | .detached => true
      | .quarantined => true
      | .arbitrating => d.twin.prev == Role.follow
      | _ => false))
/-- Order on a port: class-0 results, stops, results of classes 1 to 3, request statuses; then turn, agent, order of queueing. -/
def egressLe (a b : EgFrame) : Bool :=
  let k := fun (f : EgFrame) => [f.order, f.turn, if f.order = 1 then f.agent else 0, f.id]
  decide (k a ≤ k b)
/-- RESULT_EGRESS: the first frame that may leave is sent, or discarded where its port has no link (R558). -/
def fxEgress (d : Dev) : Dev :=
  match sortBy egressLe (d.host.egress.filter (mayLeave d)) with
  | [] => d
  | f :: _ =>
    let d := { d with host := { d.host with egress := d.host.egress.filter fun x => x.id != f.id } }
    if f.body.isEmpty then d
    else if portEn d f.port && bitAt d.fab.fieldUp f.port then
      fldCnt (send d (.field f.port (ethHead d f.port f.mac f.vlan f.pcp ++ f.body))) f.port 1
    else fldCnt d f.port 4

/-- RELEASE_PHASE. -/
def execReleasePhase (s : State) : Host.Outcome State Fault Refusal := onDev s fxRelease
/-- TL_RECORD_ENTRY. -/
def execTlRecordEntry (payload : Bytes) (s : State) : Host.Outcome State Fault Refusal := onDev s fun d => fxTlRecord d payload
/-- RESULT_EGRESS. -/
def execResultEgress (s : State) : Host.Outcome State Fault Refusal := onDev s fxEgress

end Sys2Proof.Machine
end

