-- ==== Sys2Proof/Machine/Cutoff.lean ====
section
/-! DEFINITION. The ledger cutoff (R54, R58 to R67): internal entries, the order of entries, the seal, recording (R84, R85). -/
namespace Sys2Proof.Machine

/-! ### Internal entries (R61, R67, R342, R434, R491, R522) -/

/-- The cutoff of the ledger of turn `n` in TAI ns (R13). -/
def cutoffTime (d : Dev) (n : Nat) : Nat := turnStart d n - 2000
/-- An internal entry of unit `u` placed in the ledger of turn `n`. Log entries 56 DESIGN CHOICE, 60 DEDUCED. -/
def placeInternal (d : Dev) (n kind u : Nat) (payload : Bytes) : Dev :=
  placeEntry { d with ldg := { d.ldg with intern := d.ldg.intern + 1 } } n
    { (default : Entry) with kind := kind, internal := true, source := srcUnit u, ctr := d.ldg.intern + 1, ts := cutoffTime d n, payload := payload }
/-- A TIMEOUT entry for a stream stands in the ledger of turn `n` (R67, R123). -/
def timeoutDue (d : Dev) (n : Nat) (s : StreamRec) : Bool :=
  decide (s.openTurn < n) && s.closeTurn.isNone && !s.timeoutSince && decide (s.lastArr + s.timeoutMs * 1000000 ≤ cutoffTime d n)
/-- The TIMEOUT entry of a stream (R67). Log entry 56 DESIGN CHOICE. -/
def placeTimeout (d : Dev) (n stream : Nat) : Dev :=
  match tget d.world.streams stream with
  | none => d
  | some s =>
    if !timeoutDue d n s then d else
    placeInternal (modStream d stream fun s => { s with timeoutSince := true }) n 0x10 1 (leBytes 2 stream ++ zeros 6)
/-- The tile map as it will be from the boundary into turn `n`, when it differs from the present one, made at its cutoff from the live cores and from
the image that is in force then (R32, R307). Log entry 42 DEDUCED. -/
def dueMap (fz : Fuses) (d : Dev) (n : Nat) : Dev :=
  let img := imageAt d n
  let d := { d with pkg := { d.pkg with cut := liveMasks fz d } }
  if !d.pkg.dirty && imgCounts img == imgCounts (actImg d) then d else
  let m := tileMapOf fz d img
  { d with pkg := { d.pkg with dirty := false, due := if m = d.pkg.map then none else some m } }
/-- Cores of a tile map. -/
def mapCores (m : List Nat) : Nat := m.eraseDups.length
/-- The payload of a TILE_MAP entry (R44, R67). -/
def tilePayload (d : Dev) (m : List Nat) : Bytes :=
  fit 512 (m.flatMap (leBytes 4)) ++ leBytes 1 (mapCores m) ++ zeros 3 ++ leBytes 4 (d.pkg.gen + 1)
/-- The internal entries of the ledger of turn `n`. Log entry 56 DESIGN CHOICE. -/
def formInternal (fz : Fuses) (d : Dev) (n : Nat) : Dev :=
  let d := d.ldg.cuts.foldl (fun d c => placeInternal d n 7 1 (leBytes 2 c.1 ++ zeros 2 ++ leBytes 4 c.2)) { d with ldg := { d.ldg with cuts := [] } }
  let d := (d.world.streams.map (·.1)).foldl (fun d s => placeTimeout d n s) d
  let d := dueMap fz d n
  let d := match d.pkg.due with
    | some m => placeInternal d n 0x11 1 (tilePayload d m)
    | none => d
  let d := if (d.img.at_.map fun a => decide (a ≤ n)).getD false then placeInternal d n 0x12 1 (leBytes 8 1) else d
  let d := if (d.fab.commitTurn.map fun a => decide (a ≤ n)).getD false then placeInternal d n 0x12 1 (leBytes 8 2) else d
  let d := (d.cal.outcomes.filter fun o => o.1 == n).foldl (fun d o => placeInternal d n 6 2 (calRecord d o.2)) d
  let d := if d.twin.role = .lead || d.twin.role = .solo then
      d.twin.tlDue.foldl (fun d r => placeInternal d n 7 4 r) (modTwin d fun x => { x with tlDue := [] }) else d
  let m := mirrorEntries d
  m.1.foldl (fun d e => placeEntry d n e) m.2

/-! ### Seal and record (R65, R66, R84, R85) -/

/-- The 48-byte seal of a ledger. -/
def sealBytes (d : Dev) (l : Ledger) (replayed : Bool) : Bytes :=
  sealHead d l.turn l.gap replayed l.entries ++ leBytes 8 l.digest ++ leBytes 8 l.prevDigest ++ leBytes 4 l.tileGen ++ leBytes 1 l.cores ++ zeros 11
/-- An entry that names a mirror block: a MAP entry of source type 2 (R522, R524). -/
def isMirror (e : Entry) : Bool := e.kind == 5 && e.source / 8192 == 2
/-- A turn's record: its seal, its entries with their padding, then the bodies of the mirror blocks that its MAP entries name, each after the 32 bytes that
its entry holds (R84, R524). Log entry 94 DESIGN CHOICE. -/
def recordBytes (d : Dev) (l : Ledger) (replayed : Bool) : Bytes :=
  sealBytes d l replayed ++ (l.entries.zipIdx.flatMap fun e => entryHead e.1 e.2 ++ padTo 8 e.1.payload) ++ l.blocks.flatMap fun b => padTo 8 (b.drop 32)
/-- Bytes of a turn's record. Log entry 94 DESIGN CHOICE. -/
def recordLen (l : Ledger) : Nat := 48 + ledgerBytes l.entries + total (l.blocks.map fun b => (b.length - 32 + 7) / 8 * 8)
/-- The mirror blocks that entries name, as the package holds them (R522). -/
def blocksOf (d : Dev) (es : List Entry) : List Bytes :=
  (es.filter isMirror).map fun e =>
    (((mirrorIn d (e.source % 64) (fld e.payload 5 1)).bind fun m => m.held.find? fun h => h.1 == e.ctr).map (·.2.2)).getD e.payload
/-- Bytes of the record ring of R28. -/
def ringBytes : Nat := 4294967296
/-- Oldest records leave until `n` bytes more fit. -/
def trimRing (n : Nat) : List Ledger → List Ledger
  | [] => []
  | l :: t => if total ((l :: t).map recordLen) + n ≤ ringBytes then l :: t else trimRing n t
/-- A 48-bit turn in a register pair. -/
def setTurnPair (d : Dev) (o n : Nat) : Dev := rset (rset d o n) (o + 4) (n / 2 ^ 32 % 65536)
/-- A ledger recorded in the ring of bulk memory; a full ring that stops recording signals PF vector 59 (R84, R358). Log entry 108 DEDUCED. -/
def recordRing (d : Dev) (l : Ledger) : Dev :=
  let stop := bitAt (rget d 0x500000) 2
  if stop && total (d.ldg.ring.map recordLen) + recordLen l > ringBytes then irq (rfield (rfield d 0x500000 0 0 0) 0x500000 4 4 1) 0 59 else
  let ring := trimRing (recordLen l) d.ldg.ring ++ [l]
  let d := { d with ldg := { d.ldg with ring := ring, recGap := false } }
  setTurnPair (setTurnPair d 0x500030 ((ring.head?.map (·.turn)).getD l.turn)) 0x500038 l.turn
/-- A write to a ring in host memory that may pass its end. -/
def ringWrite (d : Dev) (base size at_ : Nat) (b : Bytes) : Dev :=
  let n := size - at_
  let d := send d (.hostWrite (base + at_) (b.take n))
  if b.length ≤ n then d else send d (.hostWrite base (b.drop n))
/-- A ledger recorded in the host ring, or its turn counted as not recorded (R85); the first turn of a gap signals PF vector 59 (R358). Log entries 73 DEDUCED,
108 DEDUCED. -/
def recordHost (d : Dev) (l : Ledger) (replayed : Bool) : Dev :=
  let size := bits (rget d 0x500048) 31 20 * 1048576
  let head := rget d 0x50004C
  let used := (head + size - rget d 0x500050 % max 1 size) % max 1 size
  if size < 16777216 then d
  else if used + recordLen l ≥ size then
    let d' := cnt { d with ldg := { d.ldg with recGap := true } } 0x500028
    if d.ldg.recGap then d' else irq d' 0 59
  else
    let d := ringWrite d (rget d 0x500040 / 4096 * 4096 + 2 ^ 32 * rget d 0x500044) size head (recordBytes d l replayed)
    setTurnPair (rset { d with ldg := { d.ldg with recGap := false } } 0x50004C ((head + recordLen l) % size)) 0x500038 l.turn
/-- The ledger as this package's own record shows it: gap_before as its own record has it, replayed in replay, and the digest of the seal bytes so
recorded (R65, R66, R85, R87). Log entry 97 DEDUCED. -/
def ownSeal (d : Dev) (l : Ledger) (replayed : Bool) : Ledger :=
  if l.gap = d.ldg.recGap ∧ replayed = false then l
  else { l with gap := d.ldg.recGap, digest := ledgerDigest d l.turn d.ldg.recGap replayed l.prevDigest l.entries }
/-- A sealed ledger is recorded while recording is on. -/
def recordLedger (d : Dev) (l : Ledger) (replayed : Bool) : Dev :=
  let l := ownSeal d l replayed
  if !bitAt (rget d 0x500000) 0 then d else if bitAt (rget d 0x500000) 1 then recordHost d l replayed else recordRing d l
/-- The registers of the last seal (R89). -/
def sealRegs (d : Dev) (l : Ledger) : Dev :=
  let d := setTurnPair d 0x500008 l.turn
  rset (rset (rset (rset d 0x500010 l.digest) 0x500014 (l.digest / 2 ^ 32)) 0x500018 l.entries.length) 0x50001C (ledgerBytes l.entries)
/-- The ledger of turn `n` from its entries, chained to the last digest. -/
def makeLedger (d : Dev) (n : Nat) (es : List Entry) : Ledger :=
  let gap := d.ldg.recGap
  { turn := n, entries := es, prevDigest := d.ldg.digest, digest := ledgerDigest d n gap false d.ldg.digest es, gap := gap,
    tileGen := d.pkg.gen + b2n d.pkg.due.isSome, cores := mapCores (d.pkg.due.getD d.pkg.map), blocks := blocksOf d es }
/-- A ledger takes its place as that of the coming turn: chained, shown, recorded. -/
def takeSeal (d : Dev) (l : Ledger) : Dev :=
  recordLedger (sealRegs { d with ldg := { d.ldg with ready := some l, digest := l.digest, opened := tdel d.ldg.opened l.turn } } l) l false

/-! ### The cutoff -/

/-- The package builds its own ledgers (R486, R488). -/
def builds (d : Dev) : Bool := !follows d && !d.ldg.replay && !d.wdn.safe.stopped
/-- The next ledger to be sealed is still open. -/
def cutoffDue (d : Dev) : Bool := d.time.running && !d.pin.trip && decide (d.time.sealedTo ≤ d.time.turn) && !d.ldg.replay
/-- LEDGER_CUTOFF: internal entries are formed and the ledger of the coming turn is sealed (R65, R67); a follow closes its shadow (R489), and in a latched
safe state no ledger is built (R477). Log entry 75 DEDUCED. -/
def fxCutoff (fz : Fuses) (d : Dev) : Dev :=
  if !cutoffDue d then d else
  let n := d.time.sealedTo + 1
  let d := atTime d (cutoffTime d n)
  let close := fun (d : Dev) => modTime d fun x => { x with sealedTo := n }
  if !builds d then close (dueMap fz d n) else
  let d := formInternal fz d n
  let l := makeLedger d n (orderEntries (openLedger d n))
  let d := takeSeal d l
  let d := if d.twin.role = .lead || (d.twin.role = .solo && decide (d.twin.attach ≥ 2)) then
      twinSend d (.seal n l.entries.length (ledgerBytes l.entries) l.digest) else d
  close d
/-- STREAM_TIMEOUT: at a cutoff the TIMEOUT entry of a stream whose timeout has elapsed (R67). -/
def fxStreamTimeout (d : Dev) (stream : Nat) : Dev :=
  let n := d.time.sealedTo + 1
  if !cutoffDue d || !builds d then d else
  match tget d.world.streams stream with
  | none => d
  | some s => if timeoutDue d n s then placeTimeout (atTime d (cutoffTime d n)) n stream else d

/-- LEDGER_CUTOFF. -/
def execLedgerCutoff (s : State) : Host.Outcome State Fault Refusal := onFz s fxCutoff
/-- STREAM_TIMEOUT. -/
def execStreamTimeout (n : Nat) (s : State) : Host.Outcome State Fault Refusal := onDev s fun d => fxStreamTimeout d n

end Sys2Proof.Machine
end

