-- ==== Sys2Proof/Machine/Record.lean ====
section
/-! DEFINITION. LEDGER_CTL (R86, R87, R374): snapshots, and the requests that begin, feed and end a replay. -/
namespace Sys2Proof.Machine

/-- The ledger part changed. -/
def modLdg (d : Dev) (f : LdgRec → LdgRec) : Dev := { d with ldg := f d.ldg }
/-- The host address and the length in bytes that a LEDGER_CTL block names (R374). -/
def ctlAddr (c : Cmd) : Nat := fld c.block 16 8
/-- Its length. -/
def ctlLen (c : Cmd) : Nat := fld c.block 24 4 * 4096
/-- Its turn. -/
def ctlTurn (c : Cmd) : Nat := fld c.block 8 6
/-- The block is in range for an operation: unused fields are 0. -/
def ctlOk (c : Cmd) (op : Nat) : Bool :=
  c.block.length == 32 && bits (fld c.block 0 8) 63 3 == 0 && fld c.block 14 2 == 0 && ctlAddr c % 4096 == 0 && fld c.block 28 4 == 0 && decide (1 ≤ op) && decide (op ≤ 4)
/-- The reply to a command outside any ledger during replay (R367). -/
def outside (d : Dev) (c : Cmd) (st det : Nat) : Dev := reply d c st det none 0 0 0 0
/-- The answer to a LEDGER_CTL: in its ledger turn, or outside any ledger during replay (R367). -/
def ctlAnswer (d : Dev) (c : Cmd) (st det : Nat) : Dev := if d.ldg.replay then outside d c st det else answer d c st det

/-- The state of R86 as it stands. Log entry 53 DESIGN CHOICE. -/
def takeSnap (d : Dev) : Snap :=
  { turn := d.time.turn, world := d.world, q := d.q, pld := d.pld, egress := d.host.egress, tileGen := d.pkg.gen,
    digest := ((d.ldg.current.map (·.prevDigest)).getD d.ldg.digest) }
/-- A query as an attach snapshot describes it: stamp, polder, class, agent, tiles, pins, budget, deadline, without its progress; the lead computes it (R500
item 2). -/
def describe (q : QueryRec) : QueryRec :=
  if q.kind = .stopVerify || q.stage = .ended then q else { restartQ q with viaEntry := true, foreign := true, tlPlaced := q.tlPlaced, result := [] }
/-- At the start of the turn that it has named, a lead sends its state to the joiner; what its live plans give goes by internal entries from then on, that of
plans that are ready too (R500 items 2, 4). Log entry 24 DEDUCED. -/
def sendSnap (d : Dev) : Dev :=
  if d.twin.snapTurn ≠ some d.time.turn || d.twin.role ≠ .solo then d else
  let d := { d with q := { d.q with recs := tmap (fun _ (q : QueryRec) => if q.stage = .ended then q else { q with viaEntry := q.kind != .stopVerify }) d.q.recs } }
  let due := (sortBy stampLe (d.q.recs.filter fun q => q.2.kind == .plan && q.2.stage == .ready && !q.2.tlPlaced)).map fun q => planRecord d q.2 true 0 false false
  let x := takeSnap d
  twinSend (modTwin d fun t => { t with snapTurn := none, tlDue := t.tlDue ++ due.filter fun r => !t.tlDue.contains r })
    (.snapshot { x with egress := [], q := { x.q with recs := tmap (fun _ q => describe q) x.q.recs } })
/-- SNAPSHOT (R86, R374). -/
def fxSnapshot (d : Dev) (c : Cmd) : Dev :=
  let s := ctlTurn c; let k := d.time.turn
  if !ctlOk c 1 || s < k + 2 || k + 10000 < s then ctlAnswer d c stBadRange 0
  else if d.ldg.replay || d.ldg.snapshot.isSome then ctlAnswer d c stBadState 0
  else modLdg d fun l => { l with snapshot := some (s, k, c) }
/-- At the start of the named turn the state is copied (R86). Log entry 53 DESIGN CHOICE. -/
def snapAt (d : Dev) : Dev :=
  match d.ldg.snapshot with
  | none => d
  | some (s, _, _) => if s = d.time.turn && d.host.taken.isNone then { d with host := { d.host with taken := some (takeSnap d) } } else d
/-- SNAPSHOT_END: the copy has been written; its size in 4 KiB units is a free value, since the spec gives the snapshot no layout (log entry 2). Log entry 53 DESIGN CHOICE. -/
def fxSnapshotEnd (d : Dev) : Dev :=
  match d.ldg.snapshot, d.host.taken with
  | some (_, adm, c), some x =>
    let r := freeVal d
    let d := modLdg { r.2 with host := { r.2.host with taken := none } } fun l => { l with snapshot := none }
    if r.1 * 4096 > ctlLen c then reply d c stBadRange r.1 none adm 0 0 0
    else reply { d with host := { d.host with snaps := tput d.host.snaps (ctlAddr c) x } } c 0 r.1 none adm 0 0 0
  | _, _ => d

/-- The package is attached to a twin or a member of a fabric (R374). -/
def attached (d : Dev) : Bool := (d.pkg.twin && d.twin.role != .detached) || d.fab.state != .unjoined
/-- The snapshot in a buffer, when it is of the named turn. Log entry 53 DESIGN CHOICE. -/
def snapIn (d : Dev) (c : Cmd) : Option Snap := (tget d.host.snaps (ctlAddr c)).bind fun x => if x.turn = ctlTurn c then some x else none
/-- The replay begins: what is in flight ends with CANCELLED, the snapshot stands (R86, R87, R374). Log entry 98 DEDUCED. -/
def enterReplay (d : Dev) (c : Cmd) (adm : Nat) : Dev :=
  match snapIn d c with
  | none => reply d c stBadCheck 0 none adm 0 0 0
  | some x =>
    let d := endQueries d ((liveQueries d).map (·.1)) stCancelled 0
    let d := { d with world := x.world, q := x.q, pld := x.pld, host := { d.host with egress := x.egress }, pkg := { d.pkg with gen := x.tileGen } }
    let d := modLdg d fun l => { l with replay := true, prepared := some x.turn, digest := x.digest, current := none, ready := none, opened := [], runs := [], cuts := [],
                                        asks := [], replayRun := none, replayDone := 0, replayDiff := false, preparing := none }
    reply (modTime (rfield d 0x500000 3 3 1) fun t => { t with turn := x.turn }) c 0 0 none adm 0 0 0
/-- REPLAY_PREPARE (R374): it takes effect at the end of its ledger turn, during replay at once. -/
def fxReplayPrepare (d : Dev) (c : Cmd) : Dev :=
  if !ctlOk c 2 then ctlAnswer d c stBadRange 0
  else if attached d || d.ldg.preparing.isSome then ctlAnswer d c stBadState 0
  else if d.ldg.replay then enterReplay d c 0
  else modLdg d fun l => { l with preparing := some (c, d.time.turn) }
/-- A REPLAY_PREPARE takes effect at the end of its ledger turn. -/
def prepareEnd (d : Dev) : Dev :=
  match d.ldg.preparing with
  | none => d
  | some (c, adm) => enterReplay (modLdg d fun l => { l with preparing := none }) c adm

/-- Entries of a record, read back from their bytes (R62). -/
def readEntries : Nat → Bytes → List Entry × Bytes
  | 0, b => ([], b)
  | n + 1, b =>
    let len := fld b 16 4
    let e : Entry := { kind := fld b 0 1, internal := bitAt (fld b 1 1) 0, more := bitAt (fld b 1 1) 1, source := fld b 2 2, ctr := fld b 4 4, ts := fld b 8 8,
                       polder := bits (fld b 20 1) 4 0, cls := bits (fld b 21 1) 1 0, payload := slice b 32 len }
    let r := readEntries n (b.drop (32 + (len + 7) / 8 * 8))
    (e :: r.1, r.2)
/-- What the digest of a recorded turn covers of its entries: headers and payloads without their padding (R66). -/
def rawEntries : Nat → Bytes → Bytes
  | 0, _ => []
  | n + 1, b => let len := fld b 16 4; slice b 0 (32 + len) ++ rawEntries n (b.drop (32 + (len + 7) / 8 * 8))
/-- The mirror blocks of a turn's MAP entries, read from the bytes after its entries, with the bytes after them (R524); fewer where the bytes end too early.
Log entry 94 DESIGN CHOICE. -/
def readBlocks : List Entry → Bytes → List Bytes × Bytes
  | [], b => ([], b)
  | e :: es, b =>
    if !isMirror e then readBlocks es b else
    match blockRecs (fld e.payload 20 4) b with
    | none => ([], b)
    | some (_, rest) =>
      let n := b.length - rest.length
      let r := readBlocks es (b.drop ((n + 7) / 8 * 8))
      ((e.payload ++ b.take n) :: r.1, r.2)
/-- The record of a turn holds every mirror block that its entries name, and their digests verify (R87, R524). -/
def blocksGood (l : Ledger) : Bool :=
  l.blocks.length == (l.entries.filter isMirror).length && l.blocks.all fun b => crc64 0 (b.take 24 ++ b.drop 32) == fld b 24 8
/-- The consecutive turn records that a buffer holds from turn `next` on (R84, R374); at most `n` of them, each with the digest
recomputed under R66 (R87); one that does not follow ends the buffer. Log entries 54 DEDUCED, 98 DEDUCED. -/
def readRecords : Nat → Option Nat → Bytes → List (Ledger × Nat)
  | 0, _, _ => []
  | n + 1, next, b =>
    let t := fld b 0 6; let es := fld b 8 4; let len := fld b 12 4
    if b.length < 48 || b.length < 48 + len || (next.map fun x => x != t).getD false || (next.isSome && t = 0) then [] else
    let ents := (readEntries es (slice b 48 len)).1
    let bl := readBlocks ents (b.drop (48 + len))
    let l : Ledger := { turn := t, entries := ents, prevDigest := fld b 24 8, digest := fld b 16 8, gap := bitAt (fld b 6 1) 0,
                        tileGen := fld b 32 4, cores := fld b 36 1, blocks := bl.1 }
    (l, crc64 l.prevDigest (b.take 16 ++ rawEntries es (slice b 48 len))) :: readRecords n (some (t + 1)) bl.2
/-- REPLAY_RUN (R87, R374): the records of the buffer wait for their turns. -/
def fxReplayRun (m : Mem) (d : Dev) (c : Cmd) : Dev :=
  if !ctlOk c 3 then ctlAnswer d c stBadRange 0
  else if !d.ldg.replay || d.ldg.replayRun.isSome then ctlAnswer d c stBadState 0
  else
    let b := mgets m (hostBase + ctlAddr c) (ctlLen c)
    modLdg d fun l => { l with replayRun := some (c, readRecords (ctlLen c / 48) none b), replayDone := 0, replayDiff := false }
/-- REPLAY_END (R374): the package executes no further turn until a package reset; the end of the replay signals PF vector 59 (R358). Log entries 54 DEDUCED, 108
DEDUCED. -/
def fxReplayEnd (d : Dev) (c : Cmd) : Dev :=
  if !ctlOk c 4 then ctlAnswer d c stBadRange 0
  else if !d.ldg.replay then ctlAnswer d c stBadState 0
  else
    let d := irq (outside d c 0 0) 0 59
    modTime (rfield (modLdg d fun l => { l with replay := false, prepared := none, replayRun := none }) 0x500000 3 3 0) fun t => { t with started := false, running := false }
/-- LEDGER_CTL by its operation. -/
def fxLedgerCtl (m : Mem) (d : Dev) (c : Cmd) : Dev :=
  match bits (fld c.block 0 1) 2 0 with
  | 1 => fxSnapshot d c
  | 2 => fxReplayPrepare d c
  | 3 => fxReplayRun m d c
  | 4 => fxReplayEnd d c
  | _ => ctlAnswer d c stBadRange 0

/-- SNAPSHOT. -/
def execSnapshot (c : Cmd) (s : State) : Host.Outcome State Fault Refusal := onDev s fun d => pfOnly d c fxSnapshot
/-- SNAPSHOT_END. -/
def execSnapshotEnd (s : State) : Host.Outcome State Fault Refusal := onDev s fxSnapshotEnd
/-- REPLAY_PREPARE. -/
def execReplayPrepare (c : Cmd) (s : State) : Host.Outcome State Fault Refusal := onDev s fun d => pfOnly d c fxReplayPrepare
/-- REPLAY_RUN. -/
def execReplayRun (c : Cmd) (s : State) : Host.Outcome State Fault Refusal := onMem s fun _ m d => (m, pfOnly d c (fxReplayRun m))
/-- REPLAY_END. -/
def execReplayEnd (c : Cmd) (s : State) : Host.Outcome State Fault Refusal := onDev s fun d => pfOnly d c fxReplayEnd

end Sys2Proof.Machine
end

