-- ==== Sys2Proof/Machine/Formation.lean ====
section
/-! DEFINITION. Map versions at a turn end (R95, R107, R111 to R117, R120, R121) and the tile map at a boundary (R30 to R32, R334, R502). -/
namespace Sys2Proof.Machine

/-! ### Versions -/

/-- The slice that bit 0 of a version formed at the end of the current turn stands for (R107). -/
def formSlice (d : Dev) (m : MapRec) : Nat := sliceOf (turnStart d (d.time.turn + 1)) m.sliceMs
/-- A blind fill of this turn belongs to a stream whose fill is to be removed (R120). Log entry 55 DEDUCED. -/
def unfilled (m : MapRec) : Change → Bool
  | .blind p lo hi => m.unfill.any fun r => r.plane == p && r.lo == lo && r.hi == hi
  | _ => false
/-- The changes that the next formation applies, turn by turn: removed blind fill first, the pending set, this turn's events (R111, R114, R120). Log entry 55 DEDUCED. -/
def formTurns (d : Dev) (m : MapRec) : List PendTurn :=
  let σ := formSlice d m
  let kept := fun (cs : List (Nat × Change)) => cs.filter fun e => !unfilled m e.2
  let now := kept m.events
  let old := (m.pend.map fun t => { t with changes := kept t.changes }) ++ (if now.isEmpty then [] else [{ sigma := σ, changes := now }])
  if old.isEmpty || m.unfill.isEmpty then old else { sigma := σ, changes := [(0, .commit m.unfill none)] } :: old
/-- Bytes that a new version adds to the world store, its delta with it (R121). -/
def formBytes (m : MapRec) (v : MapVer) : Nat :=
  verBytes (mapTileCount m) (curVer m) v + (4 * mapTileCount m + 7) / 8
/-- A formed version becomes the current one; the deltas kept are the 16 newest (R113, R116, R117). -/
def publish (d : Dev) (h : Nat) (m : MapRec) (r : MapVer × Delta) : Dev :=
  let d := if storeUsed d + formBytes m r.1 + storeReserve > storeBytes then raise d 0x01B 0 0xF0 h else d
  let ds := m.deltas ++ [r.2]
  let v := { r.1 with place := placeVer h (curVer m) r.1 }
  let d := modMap d h fun x => { x with vers := (m.vers.filter fun v => mapPinned d h v.ver) ++ [v], deltas := ds.drop (ds.length - 16), events := [], pend := [],
                                        deferTurns := 0, unfill := [], born := true }
  mirrorsOut d h m v (formSlice d m) r.2
/-- The version that the map's changes make. -/
def nextForm (d : Dev) (m : MapRec) (turns : List PendTurn) : MapVer × Delta := formFrom m ((curVer m).getD default) (nextVer m) (formSlice d m) turns
/-- Fewer than four versions would stay live beside a new one (R113, R114). -/
def roomFor (d : Dev) (h : Nat) (m : MapRec) : Bool := decide ((m.vers.filter fun v => mapPinned d h v.ver).length < 4)
/-- The world store holds the new version. -/
def storeFits (d : Dev) (m : MapRec) (v : MapVer) : Bool := decide (storeUsed d + formBytes m v ≤ storeBytes)
/-- A query pinned to a version that is expired ends as at its deadline turn, with status TIME_LIMITED whatever its stage (R69, R114). Log entry 57 DEDUCED. -/
def expireQ (d : Dev) (id : Nat) : Dev :=
  match tget d.q.recs id with
  | none => d
  | some q =>
    let tail := fun (d : Dev) => fxCover (fxStageFinish (fxClosingStop d id) id) id
    let marked := modQ d id fun q => { q with timeLimited := true }
    if waitsSlot q then endQuery d id stTimeLimited 0 else
    match q.stage with
    | .goal => tail (endSearch d id (bestNode q.tiles (q.start.getD default)) false true)
    | .search => tail (endSearch d id (bestNode q.tiles (q.start.getD default)) false true)
    | .closing => tail marked
    | .finish => tail marked
    | .cover => tail marked
    | .ready => if q.kind = .plan then marked else d
    | .compute => workLate d id q
    | _ => d
/-- The oldest live version retires with the queries that pin it (R114). Log entry 57 DEDUCED. -/
def expireOldest (d : Dev) (h : Nat) : Dev :=
  match tget d.world.maps h with
  | none => d
  | some m =>
    match m.vers with
    | v :: w :: rest =>
      let ids := ((liveQueries d).filter fun q => q.2.pinMaps.contains (h, v.ver)).map (·.1)
      let d := (sortBy (fun a b => decide (a ≤ b)) ids).foldl expireQ d
      modMap d h fun m => { m with vers := w :: rest, expiryCnt := satInc m.expiryCnt 1 }
    | _ => d
/-- A version forms, or the turn's changes wait in the pending set (R114, R121). Log entry 57 DEDUCED. -/
def formOrDefer (d : Dev) (h : Nat) (m : MapRec) (turns : List PendTurn) : Dev :=
  let r := nextForm d m turns
  let try_ := fun (d : Dev) (m : MapRec) => roomFor d h m && storeFits d m r.1
  let wait := fun (d : Dev) => modMap (if storeFits d m r.1 then d else raise d 0x01B 0 0xF0 h) h fun m => { m with pend := turns, events := [], unfill := [], deferTurns := m.deferTurns + 1 }
  if try_ d m then publish d h m r
  else if m.deferTurns + 1 < m.pinHoldMax then wait d
  else
    let d := expireOldest d h
    let m := tgetD d.world.maps h m
    if storeFits d m r.1 then publish d h m r else wait d
/-- Version 0 of a new map, formed where it fits the world store (R95, R121). -/
def formFirst (d : Dev) (h : Nat) (m : MapRec) : Dev :=
  let turns := formTurns d m
  let r := formFrom m default 0 (formSlice d m) turns
  if storeFits d m r.1 then publish d h m r
  else modMap (raise d 0x01B 0 0xF0 h) h fun m => { m with pend := turns, events := [], unfill := [], deferTurns := m.deferTurns + 1 }
/-- Versions that nothing pins and that are not current retire (R113). -/
def retire (d : Dev) (h : Nat) : Dev :=
  modMap d h fun m => { m with vers := m.vers.filter fun v => some v.ver == (curVer m).map (·.ver) || mapPinned d h v.ver }
/-- A map at a turn end. -/
def formMap (d : Dev) (h : Nat) : Dev :=
  match tget d.world.maps h with
  | none => d
  | some m =>
    if m.removed then d
    else if m.vers.isEmpty then formFirst d h m
    else
      let d := retire d h
      let m := tgetD d.world.maps h m
      let turns := formTurns d m
      if turns.isEmpty then d else formOrDefer d h m turns
/-- PIN_HOLD_EXPIRY (R114): the deferral of a map's pending set has lasted pin_hold_max turn ends. -/
def fxPinExpiry (d : Dev) (h : Nat) : Dev :=
  match tget d.world.maps h with
  | none => d
  | some m => if m.pend.isEmpty || m.removed || m.deferTurns + 1 < m.pinHoldMax || roomFor d h m then d else formOrDefer d h m (formTurns d m)

/-! ### The tile map at a boundary -/

/-- A query has work on tiles: it has started and is not yet ready (R32). -/
def hasWork (q : QueryRec) : Bool := !waitsSlot q && q.stage != .ready && q.stage != .ended && q.stage != .entered
/-- The queries whose tiles have moved restart (R32). Log entry 57 DEDUCED. -/
def restartMoved (d : Dev) (old : List Nat) : Dev :=
  let moved := fun (t : Nat) => old.getD (t % 128) 0xff != d.pkg.map.getD (t % 128) 0xff
  { d with q := { d.q with recs := tmap (fun _ (q : QueryRec) => if hasWork q && (workTiles q).any moved then restartQ q else q) d.q.recs } }
/-- A query whose slot was held on a fenced die moves to the die of its new tile t0, or waits in the spillway (R502). -/
def moveFenced (d : Dev) (id : Nat) : Dev :=
  match tget d.q.recs id with
  | none => d
  | some q =>
    let die := tileDie d ((workTiles q).headD 0)
    let room := decide (slotsHeld d die < 2048) && decide (poolUsed d die + nodeStore d q ≤ poolBytes d)
    modQ d id fun q => if room then { q with die := die } else { restartQ q with die := die, stage := .spilled }
/-- The queries of fenced dies in stamp order. -/
def moveAll (d : Dev) : Dev :=
  let qs := d.q.recs.filter fun q => q.2.cmd.cls != 0 && q.2.stage != .ended && holdsSlot d q.2 && !dieLive d q.2.die
  (sortBy stampLe qs).foldl (fun d q => moveFenced d q.1) d
/-- Queries that wait take the die of their tile where theirs is fenced. -/
def moveWaiting (d : Dev) : Dev :=
  { d with q := { d.q with recs := tmap (fun _ (q : QueryRec) =>
      if q.cmd.cls != 0 && waitsSlot q && !dieLive d q.die then { q with die := tileDie d ((workTiles q).headD 0) } else q) d.q.recs } }
/-- Owners of banks after a change of the live cores: removed ones have none, those of a die that has come back take the plan's (R334, R504). Log entry 48 DEDUCED. -/
def mapOwners (d : Dev) (old : List Nat) : Dev :=
  { d with eng := { d.eng with owner := tmap (fun k (o : Nat × Nat × Bool) =>
      let die := k / 16
      if !dieLive d die || coreGone d die (k % 16) then (0x1f, o.2.1, false)
      else if !old.any (fun c => c / 16 == die) then (let v := planOwner d (actImg d) die (k % 16); (v, v, false)) else o) d.eng.owner } }
/-- A tile map takes effect, and with it the slot mapping of the live cores that it was made from (R32, R304). -/
def setTiles (d : Dev) (map : List Nat) (gen : Nat) : Dev :=
  let old := d.pkg.map
  let d := { d with pkg := { d.pkg with map := map, m := mapCores map, gen := gen % 2 ^ 32, due := none, slots := d.pkg.cut } }
  moveWaiting (moveAll (movePasses (restartMoved (mapOwners (deratedCheck (countCheck d)) old) old) old))
/-- A TILE_MAP entry: its own map on the package that forms ledgers, the live cores of any other (R67, R87). Log entry 42 DEDUCED. -/
def tileEntry (fz : Fuses) (d : Dev) (payload : Bytes) : Dev :=
  let m := fld payload 512 1; let gen := fld payload 516 4
  let own := !d.ldg.replay && !follows d
  let map := if own then (if m = 0 then [] else (List.range 128).map fun i => fld payload (4 * i) 4) else tileMapOf fz d (actImg d)
  let d := if own then d else { d with pkg := { d.pkg with cut := liveMasks fz d } }
  let d := if d.ldg.replay && m > mapCores map then modLdg d fun l => { l with replayDiff := true } else d
  setTiles { d with pkg := { d.pkg with dirty := d.pkg.dirty && own } } map gen
/-- TILE_MAP_CHANGE: at the boundary the change that its cutoff found due takes effect; a change after that cutoff is not due yet (R32). Log entry 38
DESIGN CHOICE. -/
def fxTileChange (d : Dev) : Dev :=
  match d.pkg.due with
  | none => d
  | some m => setTiles d m (d.pkg.gen + 1)

/-- PIN_HOLD_EXPIRY. -/
def execPinHoldExpiry (map : Nat) (s : State) : Host.Outcome State Fault Refusal := onDev s fun d => fxPinExpiry d map
/-- TILE_MAP_CHANGE. -/
def execTileMapChange (s : State) : Host.Outcome State Fault Refusal := onDev s fxTileChange

end Sys2Proof.Machine
end

