-- ==== Sys2Proof/Machine/Units.lean ====
section
/-! DEFINITION. The unit operations of the engines and of the DMA agent (R164, R168, R183, R203, R222, R253, R267, R282, R294, R330): what each
does to the banks and to the engine's registers, and its length in cycles; bank ownership (R332 to R335). -/
namespace Sys2Proof.Machine

/-- What a unit operation leaves: the memory, the device, its length in cycles. -/
abbrev UnitRes := Mem × Dev × Nat

/-! ### Bank ownership -/

/-- Owner code of bank `b` of a die (R332): core 0x00 to 0x0F, 0x10 DMA agent, 0x11 ledger writer, 0x12 host aperture, 0x1F none; at reset core `b`. Log entry 48 DEDUCED. -/
def bankOwner (d : Dev) (die b : Nat) : Nat := ((tget d.eng.owner (die * 16 + b)).map (·.1)).getD b
/-- Banks of a die that an owner code owns. -/
def ownedBy (d : Dev) (die who b : Nat) : Bool := bankOwner d die b == who
/-- Bank number over all dies (die × 16 + bank) of an address, where it lies in a bank. -/
def bankOf (a : Nat) : Option Nat := if 2 ^ 44 ≤ a ∧ a < 2 ^ 44 + 128 * 2 ^ 24 then some ((a - 2 ^ 44) / 2 ^ 24) else none
/-- An access to address `a` by owner code `who` is not blocked (R335). Log entry 49 DEDUCED. -/
def mayTouch (d : Dev) (who a : Nat) : Bool :=
  match bankOf a with
  | none => true
  | some k => ownedBy d (k / 16) who (k % 16)
/-- Memory as an owner code reads it: a blocked read gives zeros (R335). -/
def bankView (d : Dev) (who : Nat) (m : Mem) : Mem := m.filter fun c => mayTouch d who c.1
/-- `m` with the bytes of `m'` where `p` allows, and its own elsewhere. -/
def mmerge (m m' : Mem) (p : Nat → Bool) : Mem := (m'.filter fun c => p c.1).foldl (fun a c => mput a c.1 c.2) (m.filter fun c => !p c.1)
/-- What an owner code leaves of a memory it changed: blocked writes are discarded (R335). -/
def bankMerge (d : Dev) (who : Nat) (m m' : Mem) : Mem := mmerge m m' (mayTouch d who)
/-- Blocked accesses of a die counted (R335): the rows of the regions (location, rows) that lie in a bank of another owner. Log entry 49 DEDUCED. -/
def countBlocked (d : Dev) (die who : Nat) (regs : List (Nat × Nat)) : Dev :=
  regs.foldl (fun d r => if ownedBy d die who (bits r.1 21 18) then d else cnt d (dieWin die + 0x10008 + 0x100 * bits r.1 21 18) r.2) d
/-- The 22-bit location in an operand. -/
def opLoc (operand : Nat) : Nat := bits operand 21 0

/-! ### Engine registers and faults -/

/-- A descriptor fault of an engine: the sticky bits and the source 0x030 + e (R169, R202, R253, R282, R295). -/
def engFault (d : Dev) (die e c mask operand : Nat) : Dev := raise (stick d (engReg die e c 8) mask) (0x030 + e) die (c * 8 + e) (opLoc operand)
/-- Cycles that the engine's master lost in the banks of its core, added to BNK_CONF_b_m unless BNK_CTL holds them (R336, R346): open values that repeat
with the memory, the work of the die's units, the operand and the bank (R73). Log entry 105 DESIGN CHOICE. -/
def bankConf (m : Mem) (d : Dev) (die e c operand : Nat) : Dev :=
  if bitAt (rget d (dieWin die + 0x11000)) 1 then d else
  ((List.range 16).filter fun b => ownedBy d die c b).foldl (fun x b =>
    cntWrap x (dieWin die + 0x10020 + 0x100 * b + 4 * [2, 5, 3, 4, 1].getD e 0)
      (Config.portLoss (bankView d c m, (tgetD d.eng.lathes die default).units, e, operand, b))) d
/-- No other unit of the die has an operation listed. -/
def lone (d : Dev) (die c e : Nat) : Bool :=
  let me := ((coresUsed d die).zipIdx.find? fun x => x.1 == c).map fun x => 8 * x.2 + e
  (tgetD d.eng.lathes die default).units.all fun u => some u.1 == me || u.2.runs.isEmpty
/-- Cycles lost at a port by an operation, counted in the engine's counter at `o`. `reads`, where it is given, are the rows that the operation asks for together,
cycle by cycle: alone on its die it loses what their sub-arrays make it lose (R331). Otherwise an open value that repeats with the operation's data (R73). Log
entry 105 DESIGN CHOICE. -/
def conflicts (m : Mem) (d : Dev) (die e c operand o : Nat) (reads : Option (List (List Nat)) := none) : Nat × Dev :=
  let alone := if lone d die c e then reads else none
  let n := match alone with
    | some rs => total (rs.map rowClash)
    | none => Config.portLoss (bankView d c m, (tgetD d.eng.lathes die default).units, e, operand, 16 + o)
  (n, engCnt (if alone.isSome then d else bankConf m d die e c operand) die e c o n)
/-- The span of jobs taken in order by `n` lanes, the lane that is free first taking the next (R178, R277). -/
def laneSpan (n : Nat) (jobs : List Nat) : Nat :=
  (jobs.foldl (fun lanes j => match sortBy (fun a b => decide (a ≤ b)) lanes with
    | [] => [j]
    | x :: t => (x + j) :: t) (List.replicate n 0)).foldl max 0

/-! ### Sweep (R157 to R185) -/

/-- The words of a brick at a bulk-memory address, those that are not 0 (R105). -/
def brickWords (m : Mem) (d : Dev) (die a : Nat) : Tab (BitVec 64) :=
  match brickAt d a with
  | some b => b.words
  | none => (List.range 4096).filterMap fun i => let w := leNat (bulkGets m d die (a + 8 * i) 8); if w = 0 then none else some (i, BitVec.ofNat 64 w)
/-- A map entry as SWP_STAGE reads it from bulk memory through the addresses of the descriptor (R105, R157, R162); footprints are those of the version that
it names. -/
def bulkSrc (m : Mem) (d : Dev) (die : Nat) (desc : StageDesc) (excl : Option Nat) (e : StageEntry) : StageSrc :=
  let g := gridMap e.k e.boxMin e.boxMax
  let nodes := (windowTiles desc g).filterMap fun t => let r := leNat (bulkGets m d die (e.root + 8 * t) 8); if r = 0 then none else some (t, r)
  let bricks := nodes.foldl (fun (bs : Tab Brick) n => (List.range 48).foldl (fun bs i =>
    let r := bulkGets m d die (n.2 + 16 * i) 16
    if bitAt e.planes (i / 16) && bitAt (fld r 6 1) 0 then tput bs (brickKey (i / 16) n.1 (i % 16)) { base := fld r 0 6, words := brickWords m d die (fld r 8 8) } else bs) bs) []
  let foots := (((tget d.world.maps e.handle).bind fun x => verNo x e.version).map (·.foots)).getD []
  let node := fun i => nodeOf (bulkGets m d die (e.node + 64 * i) 64)
  { m := g, v := { (default : MapVer) with ver := e.version, bricks := bricks, foots := foots }, planes := e.planes, excl := excl, nodes := nodes.map Prod.fst,
    geo := { root := if e.node = 0 then none else some (node 0), node := node, prim := fun k i => primOf k (bulkGets m d die (e.prim + 64 * i) 64),
             obj := fun i => let b := bulkGets m d die (e.obj + 64 * i) 8; (fld b 4 4, fld b 1 1) } }
/-- The staging of the descriptor whose bytes are `bs` (R157 to R164). -/
def stageBulk (m : Mem) (d : Dev) (die : Nat) (bs : Bytes) : Option (Half × Mem × Nat) :=
  let desc := parseStage bs
  stageFrom m die desc (desc.entries.zipIdx.map fun e => bulkSrc m d die desc (if e.2 = 0 then desc.excl else none) e.1)
/-- Key of a half. -/
def halfKey (die core operand : Nat) : Nat := (die * 16 + core) * 2 + b2n (bitAt operand 22)
/-- A half marked not staged. Log entry 40 DEDUCED. -/
def dropHalf (d : Dev) (k : Nat) : Dev := { d with eng := { d.eng with halves := tdel d.eng.halves k } }
/-- SWP_STAGE (R157 to R164); a descriptor out of range leaves the half not staged (log entry 40). -/
def opStage (m : Mem) (d : Dev) (die core operand : Nat) : UnitRes :=
  let d := countBlocked d die core [(opLoc operand, 1 + bits (fld (mgets m (rowField die (opLoc operand)) 64) 0 1) 2 0)]
  let k := halfKey die core operand
  let v := bankView d core m
  let bs := mgets v (rowField die (opLoc operand)) 320
  let desc := parseStage bs
  match stageBulk v d die bs with
  | none => (m, engFault (dropHalf d k) die 0 core 1 operand, 1600)
  | some (h, m', len) =>
    let d := countBlocked d die core [(desc.fineRow, 512 * h.fine.length), (desc.geoRow, h.geoNodes), (desc.geoRow + desc.geoMax, 2 * h.geoPrims)]
    (bankMerge d core m m', engSet { d with eng := { d.eng with halves := tput d.eng.halves k h } } die 0 core 0x38 len, len)
/-- Cycles of one candidate on its lane, those lost apart, read back from its record and its result (R179). -/
def candCycles (spheres : Nat) (cand res : Bytes) : Nat :=
  let code := fld res 0 1
  let samples := if code = 0 then fld cand 20 1 else if code = 3 || code = 7 then 0 else fld res 1 1 + 1
  16 + samples * ((12 * spheres + 63) / 64) + fld res 4 4
/-- What the lane of candidate `n` adds to that (R179, R180): tests issued past its first hit, cycles refused at the row port, cycles waiting with no test to
issue. They repeat with the data of the check; LIMIT and FAULT issue no tests, and only a hit leaves tests past it. Log entry 105 DESIGN CHOICE. -/
def laneLoss (v : Mem) (half : Option Half) (operand n : Nat) (res : Bytes) : Nat × Nat × Nat :=
  let code := fld res 0 1
  let x := Config.laneLoss (v, half, operand) n
  if code = 3 || code = 7 then (0, 0, 0) else (if code = 0 then 0 else x.1, x.2.1, x.2.2)
/-- SWP_CHECK (R165 to R179); bit n of `ecc` is set for a candidate not yet retired when a double-bit window error strikes (R185). Log entries 46 DESIGN
CHOICE, 105 DESIGN CHOICE. -/
def opCheck (m : Mem) (d : Dev) (die core operand : Nat) (ecc : Option Nat) : UnitRes :=
  let k := halfKey die core operand
  let addr := rowField die (opLoc operand)
  let v := bankView d core m
  let hd := mgets v addr 64
  let count := min 256 (bits (fld hd 0 2) 8 0)
  let s := bits (fld hd 2 1) 6 0
  let half := tget d.eng.halves k
  let d := countBlocked d die core [(opLoc operand, 5), (bits (fld hd 4 4) 21 0, (count + 1) / 2), (bits (fld hd 8 4) 21 0, (count + 1) / 2)]
  let r := sweepCheck v die addr half ecc
  let st := r.2
  let res := fun n => mgets r.1 (rowField die (fld hd 8 4) + 32 * n) 32
  let loss := (List.range count).map fun n => laneLoss v half operand n (res n)
  let d := addWork (bankConf m d die 0 core operand) die core (swpWork st (total (loss.map (·.1)), total (loss.map (·.2.1)), total (loss.map (·.2.2))))
  let d := if st.badDesc then engFault d die 0 core 1 operand else d
  let d := Nat.repeat (fun d => engFault d die 0 core 2 operand) st.badCand d
  let d := if ecc.isSome then raise (stick (dropHalf d k) (engReg die 0 core 8) 8) 0x022 die (core * 8) (opLoc operand) else d
  let jobs := (List.range count).zip loss |>.map fun n =>
    candCycles s (mgets r.1 (rowField die (fld hd 4 4) + 32 * n.1) 32) (res n.1) + n.2.1 + n.2.2.1 + n.2.2.2
  (bankMerge d core m r.1, d, laneSpan 32 jobs + 8)
/-- SWP_INVAL (R183). -/
def opInval (m : Mem) (d : Dev) (die core operand : Nat) : UnitRes := (m, dropHalf d (halfKey die core operand), 1)

/-! ### Tensor (R186 to R203) -/

/-- TNS_LOAD (R203): weights from bulk memory into staging rows of the core's home bank. -/
def opLoad (m : Mem) (d : Dev) (die core operand : Nat) : UnitRes :=
  let d := countBlocked d die core [(opLoc operand, 1)]
  let bs := mgets (bankView d core m) (rowField die (opLoc operand)) 16
  let n := fld bs 8 4
  let row := fld bs 12 4
  let len := 1600 + (n + 47) / 48
  if fld bs 0 8 % 64 ≠ 0 || n % 64 ≠ 0 || n < 64 || n > 8388608 || row ≥ 131072 || row + n / 64 > 131072 || !bulkOk die (fld bs 0 8) n then
    (m, engSet (engFault d die 1 core 1 operand) die 1 core 0x24 len, len)
  else
    let m' := mputs m (rowAddr die core row) (bulkGets m d die (fld bs 0 8) n)
    let d := countBlocked d die core [(core * 2 ^ 18, n / 64)]
    (bankMerge d core m m', engSet d die 1 core 0x24 len, len)
/-- TNS_TABLE (R195, R203): 16 rows into table [23:22]; rows outside a bank of the core are a descriptor fault (R202). -/
def opTable (m : Mem) (d : Dev) (die core operand : Nat) : UnitRes :=
  let loc := opLoc operand
  if !locOk loc 16 || !ownedBy d die core (bits loc 21 18) then (m, engFault d die 1 core 1 operand, 24)
  else (m, { d with eng := { d.eng with tables := tput d.eng.tables ((die * 16 + core) * 8 + bits operand 23 22) (mgets m (rowField die loc) 1024) } }, 24)
/-- TNS_LAYER (R188 to R202). Entries of a table that is not loaded are free values. Log entries 2 DESIGN CHOICE, 50 DEDUCED. -/
def opLayer (m : Mem) (d : Dev) (die core operand : Nat) : UnitRes :=
  let d := countBlocked d die core [(opLoc operand, 1)]
  let v := bankView d core m
  let l := parseLayer (mgets v (rowField die (opLoc operand)) 64)
  let own := ownedBy d die core
  let f := layerFault own v die core l
  let st := fun (b : Bytes) (m : Mem) => if own (bits l.stLoc 21 18) && locOk l.stLoc 1 then mputs m (rowField die l.stLoc) b else m
  if f ≠ 0 then
    let z := if own (bits l.outLoc 21 18) then mfill m (rowField die l.outLoc) (64 * min (tensorRows l.outFmt l.cOut l.m) (bankRows - bits l.outLoc 17 0)) 0 else m
    (st (layerStatus false f 0 0 64) z, engSet (engCnt (engFault d die 1 core 1 operand) die 1 core 0xC 1) die 1 core 0x28 64, 64)
  else
    let c := conflicts m d die 1 core operand 0x20
    let base := c.2.free
    let tab := tget d.eng.tables ((die * 16 + core) * 8 + l.act)
    let d := if l.act ≠ 0xff ∧ tab = none then { c.2 with free := base + 256 } else c.2
    let entry := fun i => match tab with
      | some t => fld t (4 * i) 4
      | none => Config.freeNat (base + i)
    let o := layerRun v l entry (rowField die l.inLoc) (rowAddr die core l.wLoc) (rowAddr die core l.scLoc) (rowField die l.auxLoc)
    let cyc := l.cycles + c.1
    let m' := st (layerStatus o.accSat 0 o.sat o.clamp cyc) (mputs m (rowField die l.outLoc) o.out)
    (m', addWork d die core (tnsWork { layers := 1, macs := l.macs, sat := o.sat, clamp := o.clamp, cyc := cyc }), cyc)

/-! ### Solver (R267, R282) -/

/-- Header of a batch as solveProblem reads it: the bytes that SLV_BATCH replaces left out. -/
def batchHdr (bs : Bytes) : Bytes := bs.take 48 ++ zeros 16
/-- What SLV_BATCH reads of its descriptor, model and records, with the tests on them (R263, R282). -/
structure BatchJob where
  hdr : Bytes
  count : Nat
  solver : Nat
  mdl : Bytes
  recs : List Bytes
  snap : Option SnapVals
  seed : Nat
  resLoc : Nat
  res : Nat
  stride : Nat
  badLoc : Bool
  badDesc : Bool
/-- The job of a batch descriptor; `own` tells the banks of the core, `v` is memory as it reads it. -/
def batchJob (own : Nat → Bool) (v : Mem) (agents : Tab AgentRec) (die operand : Nat) : BatchJob :=
  let bs := mgets v (rowField die (opLoc operand)) 64
  let hdr := batchHdr bs
  let count := bits (fld bs 8 2) 10 0
  let modelLoc := bits (fld bs 60 4) 21 0
  let mdl := mgets v (rowField die modelLoc) (kinSize (mgets v (rowField die modelLoc) 64))
  let recA := rowField die (fld bs 48 4)
  let rl := solveRecLen mdl (fld bs 0 1) (mgets v recA 8)
  let stride := 16 + (solveBodyLen mdl hdr (mgets v recA 8) + 7) / 8 * 8
  let resOk := own (bits (fld bs 52 4) 21 18) && locOk (fld bs 52 4) ((count * stride + 63) / 64)
  let recs := (List.range count).map fun i => mgets v (recA + rl * i) rl
  let ag := (tget agents (bits (fld bs 4 2) 11 0)).bind fun a => a.snap.map fun x => (a.bind.model, x)
  let use := bitAt (fld bs 1 1) 0
  { hdr := hdr, count := count, solver := fld bs 0 1, mdl := mdl, recs := recs, snap := if use then ag.map fun x => snapOf mdl x.2.raw else none,
    seed := fld bs 56 4, resLoc := fld bs 52 4, res := rowField die (fld bs 52 4), stride := stride,
    badLoc := !own (bits (opLoc operand) 21 18) || !locOk (opLoc operand) 1 || !own (bits (fld bs 48 4) 21 18) || !resOk || !own (bits modelLoc 21 18) ||
      !locOk (fld bs 48 4) ((count * rl + 63) / 64) || !locOk modelLoc ((mdl.length + 63) / 64),
    badDesc := bits operand 47 22 != 0 || bits (fld bs 48 4) 31 22 != 0 || bits (fld bs 52 4) 31 22 != 0 || bits (fld bs 60 4) 31 22 != 0 ||
      !solveHdrOk mdl hdr || !kinOk mdl || (use && !(ag.any fun x => x.1 == fld bs 2 2)) || !recs.all (solveRecOk mdl hdr) }
/-- The outcomes of a job's problems, in order. -/
def batchOuts (j : BatchJob) : List SolveOut := j.recs.map fun r => solveProblem j.mdl j.hdr r j.snap j.seed
/-- What a faulted batch leaves at its result location: every record that the core may write and that lies in the bank, degraded and not solved (R282). -/
def batchRefused (own : Nat → Bool) (m : Mem) (j : BatchJob) : Mem :=
  (List.range j.count).foldl (fun m i =>
    if own (bits j.resLoc 21 18) && decide (bits j.resLoc 17 0 * 64 + j.stride * (i + 1) ≤ bankRows * 64)
      then mputs m (j.res + j.stride * i) (solveRecord {} false true (j.stride - 16)) else m) m
/-- SLV_BATCH (R263, R280, R282). -/
def opBatch (m : Mem) (d : Dev) (die core operand : Nat) : UnitRes :=
  let j := batchJob (ownedBy d die core) (bankView d core m) d.world.agents die operand
  let d := countBlocked d die core [(opLoc operand, 1)]
  if j.badLoc || j.badDesc then
    (batchRefused (ownedBy d die core) m j, engFault d die 2 core (b2n j.badDesc + 4 * b2n j.badLoc) operand, 64)
  else
    let outs := batchOuts j
    let c := conflicts m d die 2 core operand 0x2C
    let d := addWork c.2 die core (slvWork j.count (total (if j.solver = 3 then outs.map (·.iters) else [])) (total (outs.map (·.macs)))
      (total (outs.map (·.piv))) (total (outs.map (·.sat))))
    (mputs m j.res (outs.flatMap fun o => solveRecord o false false 0), d,
      laneSpan 16 ((j.recs.zip outs).map fun p => solveCycles j.mdl j.hdr p.1 (p.2.iters + 1)) + c.1)
/-- What SLV_ROWS reads of its descriptor and candidates (R267): each candidate with its 32 bytes, its staged samples and its node pose. -/
structure RowsJob where
  count : Nat
  candA : Nat
  cands : List (Bytes × Bytes × (List Int × Int × Int × Int))
  badLoc : Bool
  badDesc : Bool
/-- The job of a descriptor. The staged joint-space records follow it, candidate i's being record i; the model and the node poses come as operand
(log entry 7). -/
def rowsJob (own : Nat → Bool) (v : Mem) (die operand : Nat) (u : UnitDesc) : RowsJob :=
  let bs := mgets v (rowField die (opLoc operand)) 64
  let count := bits (fld bs 0 2) 8 0
  let candA := rowField die (fld bs 4 4)
  let rows := (12 * kinS u.model + 63) / 64
  let recs := ((List.range count).foldl (fun (acc : List Bytes × Nat) _ =>
    let len := 16 + 4 * kinN u.model * (mget v acc.2).toNat
    (acc.1 ++ [mgets v acc.2 len], acc.2 + len)) ([], rowField die (opLoc operand) + 64)).1
  let cands := (List.range count).map fun i => mgets v (candA + 32 * i) 32
  { count := count, candA := candA, cands := cands.zip (recs.zip u.nodes),
    badDesc := bits operand 47 22 != 0 || bits (fld bs 0 2) 15 9 != 0 || bitAt (fld bs 2 1) 7 || fld bs 3 1 != 0 || bits (fld bs 4 4) 31 22 != 0 ||
      count = 0 || count > 256 || !kinOk u.model || u.nodes.length ≠ count ||
      recs.any (fun r => decide ((r.headD 0).toNat < 1) || decide ((r.headD 0).toNat > 32)),
    badLoc := !own (bits (opLoc operand) 21 18) || !locOk (opLoc operand) 1 || !own (bits (fld bs 4 4) 21 18) || !locOk (fld bs 4 4) ((count + 1) / 2) ||
      (cands.zip recs).any (fun p => !own (bits (fld p.1 23 1) 3 0) || decide (bits (fld p.1 24 4) 17 0 + rows * (p.2.headD 0).toNat > bankRows)) }
/-- Joint positions of a staged record, sample by sample: home positions plus the offsets staged. -/
def rowsSamples (u : UnitDesc) (p : Bytes × Bytes × (List Int × Int × Int × Int)) : List (List Int) :=
  (List.range (p.2.1.headD 0).toNat).map fun i => p.2.2.1.zipIdx.map fun q => q.1 + sfld p.2.1 (16 + 4 * (kinN u.model * i + q.2)) 4
/-- A candidate of a job worked out: its 32 bytes, its limit sample and joint, its samples, its node pose (R265, R267). Log entry 7 DESIGN CHOICE. -/
def rowsWork (u : UnitDesc) (j : RowsJob) : List (Bytes × Option (Nat × Nat) × List (List Int) × BasePose) :=
  j.cands.map fun p => (p.1, limitSample u.model (rowsSamples u p), rowsSamples u p, { x := p.2.2.2.1, y := p.2.2.2.2.1, yaw := p.2.2.2.2.2 })
/-- Samples of a worked candidate that come before its limit. -/
def beforeLimit (w : Bytes × Option (Nat × Nat) × List (List Int) × BasePose) : Nat := (w.2.1.map (·.1)).getD w.2.2.1.length
/-- The candidate array with limit samples filled in and a sphere row for each sample before the limit (R267). -/
def rowsWrite (m : Mem) (die : Nat) (u : UnitDesc) (j : RowsJob) : Mem :=
  ((rowsWork u j).zipIdx).foldl (fun m w =>
    let c := w.1.1
    let body := c.take 21 ++ leBytes 1 ((w.1.2.1.map (·.1)).getD 0xff) ++ leBytes 1 ((w.1.2.1.map (·.2)).getD (fld c 22 1)) ++ c.drop 23
    ((w.1.2.2.1.take (beforeLimit w.1)).zipIdx).foldl (fun m q =>
      mputs m (rowAddr die (bits (fld c 23 1) 3 0) (bits (fld c 24 4) 17 0 + q.2 * ((12 * kinS u.model + 63) / 64))) (sphereRow u.model w.1.2.2.2 q.1))
      (mputs m (j.candA + 32 * w.2) body)) m
/-- SLV_ROWS (R267). Log entry 7 DESIGN CHOICE. -/
def opRows (m : Mem) (d : Dev) (die core operand : Nat) (u : UnitDesc) : UnitRes :=
  let j := rowsJob (ownedBy d die core) (bankView d core m) die operand u
  let d := countBlocked d die core [(opLoc operand, 1)]
  if j.badDesc || j.badLoc then (m, engFault d die 2 core (b2n j.badDesc + 4 * b2n j.badLoc) operand, 64)
  else
    let work := rowsWork u j
    let cf := conflicts m d die 2 core operand 0x2C
    let rowCyc := fun (macs : Nat) => 16 + (macs + 3) / 4 + (12 * kinS u.model + 63) / 64
    let jobs := work.map fun w => 64 + 32 * kinN u.model + (if beforeLimit w = 0 then 0 else
      rowCyc (rowsMacs u.model 1) + (beforeLimit w - 1) * rowCyc (chainMacs u.model (kinN u.model) (sphereLinks u.model)))
    let sat := total (work.flatMap fun w => (w.2.2.1.take (beforeLimit w)).map fun q => (fkCentres u.model w.2.2.2 q).2.sat)
    let d := addWork cf.2 die core (rowsCount j.count (work.filter fun w => w.2.1.isSome).length (total (work.map fun w => rowsMacs u.model (beforeLimit w))) sat)
    (rowsWrite m die u j, d, laneSpan 16 jobs + cf.1)

/-! ### Select (R288 to R296) -/

/-- The rows that a select operation reads, eight to a cycle, where it reads its input once in row order (R287, R292): TOPK, and SORT and UNIQ of one piece; none
where merge passes follow. -/
def selReads (op : Nat) (u : SelDesc) : Option (List (List Nat)) :=
  let pieces := (u.n + 63) / 64
  if op = 2 || ((op = 1 || op = 3) && pieces ≤ 1) then
    some ((List.range pieces).map fun i => (List.range (min 8 ((u.n + 7) / 8 - 8 * i))).map fun j => bits u.src 17 0 + 8 * i + j)
  else none
/-- The operations of the select engine by code (R288 to R296); a faulted one completes and counts as an operation (R302). -/
def opSel (m : Mem) (d : Dev) (die core op operand : Nat) : UnitRes :=
  let own := ownedBy d die core
  let v := bankView d core m
  let addr := rowField die (opLoc operand)
  let c := conflicts m d die 3 core operand 0x1C (selReads op (parseSel op (mgets v addr 64)))
  let r := selUnit v own die op addr c.1
  let o := r.2.2.1
  if r.2.2.2.1 || !own (bits (opLoc operand) 21 18) || bits operand 47 22 ≠ 0 then
    let m' := if r.2.2.2.1 then r.1 else
      let st := r.2.1.st
      if locOk st 1 && own (bits st 21 18) then mputs v (rowField die st) (selStatus {} true 16) else v
    (bankMerge d core m m', addWork (engFault d die 3 core (if op = 0 || op > 4 then 2 else 1) operand) die core (selWork 0 false 16), 16)
  else
    let d := if o.broke.isSome then cnt (stick c.2 (engReg die 3 core 8) 4) (dieWin die + 0x131004) else c.2
    (bankMerge d core m r.1, addWork d die core (selWork r.2.1.n o.sat r.2.2.2.2), r.2.2.2.2)

/-! ### Frontier (R222, R253) -/

/-- A queue stored. -/
def putFrn (d : Dev) (k : Nat) (q : FrnQueue) : Dev := { d with eng := { d.eng with frn := tput d.eng.frn k q } }
/-- The unit is full: the 256 largest entries of the fullest queue, the lowest number on ties, move to its tile store (R222). Log entry 67 DEDUCED. -/
def frnSpill (d : Dev) (die core : Nat) : Dev :=
  if frnHeld d die core < 65536 then d else
  match (frnQueues d die core).foldl (fun (b : Option (Nat × FrnQueue)) p => match b with
      | some x => if x.2.inUnit.length < p.2.inUnit.length then some p else b
      | none => some p) none with
  | none => d
  | some (k, q) =>
    let keep := q.inUnit.take (q.inUnit.length - 256)
    engCnt (putFrn d k { inUnit := keep, inStore := (q.inUnit.drop (q.inUnit.length - 256)).foldl (fun s e => insertBy entLe e s) q.inStore }) die 4 core 0x1C 1
/-- A queue with fewer than 64 entries in the unit takes the 256 smallest of its tile store (R222). Log entry 67 DEDUCED. -/
def frnRefill (d : Dev) (die core q : Nat) : Dev :=
  let k := frnKey die core q
  match tget d.eng.frn k with
  | none => d
  | some x =>
    if x.inUnit.length ≥ 64 || x.inStore.isEmpty then d
    else frnPeak (engCnt (putFrn d k { inUnit := (x.inStore.take 256).foldl (fun s e => insertBy entLe e s) x.inUnit, inStore := x.inStore.drop 256 }) die 4 core 0x20 1) die core
/-- What a frontier operation shows before it begins: an operand whose row lies outside the bank raises FRN_DESC (R310), and so does, where the operation needs
it, a queue that is not open, which sets bad_queue (R253). Log entry 50 DEDUCED. -/
def frnBad (d : Dev) (die core operand : Nat) (needsQueue : Bool) : Option Dev :=
  if !locOk (opLoc operand) 1 then some (engFault d die 4 core 0 operand)
  else if needsQueue && !thas d.eng.frn (frnKey die core (bits operand 31 22)) then some (engFault d die 4 core 2 operand) else none
/-- FRN_OPEN: the queue is open with no entries. Log entry 7 DESIGN CHOICE. -/
def opOpen (m : Mem) (d : Dev) (die core operand : Nat) : UnitRes :=
  match frnBad d die core operand false with
  | some d => (m, d, 16)
  | none => (m, putFrn d (frnKey die core (bits operand 31 22)) { inUnit := [], inStore := [] }, 16)
/-- FRN_PUSHB: entries enter one by one, the largest spilling when the unit is full; an entry after the least one in the tile store goes there. Log entries 7 DESIGN CHOICE, 67 DEDUCED. -/
def opPush (m : Mem) (d : Dev) (die core operand : Nat) (u : UnitDesc) : UnitRes :=
  let k := frnKey die core (bits operand 31 22)
  match frnBad d die core operand true with
  | some d => (m, d, 4 + u.entries.length)
  | none =>
    let d := u.entries.foldl (fun d e =>
      let d := frnSpill d die core
      let q := tgetD d.eng.frn k default
      frnPeak (match q.inStore with
        | [] => putFrn d k { q with inUnit := insertBy entLe e q.inUnit }
        | s :: _ => if entLe s e then putFrn d k { q with inStore := insertBy entLe e q.inStore } else putFrn d k { q with inUnit := insertBy entLe e q.inUnit }) die core) d
    (m, engCnt64 d die 4 core 0xC u.entries.length, 4 + u.entries.length)
/-- The smallest entry of a queue taken, after a refill where it lies in the tile store. Log entry 67 DEDUCED. -/
def frnPop (d : Dev) (die core q : Nat) : Option (Nat × Nat × Nat) × Dev :=
  let d := frnRefill d die core q
  let k := frnKey die core q
  match tget d.eng.frn k with
  | none => (none, d)
  | some x => match x.inUnit with
    | [] => (none, d)
    | e :: t => (some e, putFrn d k { x with inUnit := t })
/-- A frontier entry (R223): the key, with the sequence number in its low half and the cost in its high half, the node index, four reserved bytes. -/
def frnBytes (e : Nat × Nat × Nat) : Bytes := leBytes 4 e.2.1 ++ leBytes 4 e.1 ++ leBytes 4 e.2.2 ++ zeros 4
/-- FRN_POPB: pop_b entries in key order, fewer where the queue empties, to the row that the descriptor names; refill waits are free (R222). Log entry 7 DESIGN CHOICE. -/
def opPop (m : Mem) (d : Dev) (die core operand : Nat) (u : UnitDesc) : UnitRes :=
  let q := bits operand 31 22
  match frnBad d die core operand true with
  | some d => (m, d, 4 + u.pops)
  | none =>
    let stored := ((tget d.eng.frn (frnKey die core q)).map fun x => !x.inStore.isEmpty).getD false
    let r := (List.range u.pops).foldl (fun (acc : List (Nat × Nat × Nat) × Dev) _ =>
      match frnPop acc.2 die core q with
      | (some e, d) => (acc.1 ++ [e], d)
      | (none, d) => (acc.1, d)) ([], d)
    let d := engCnt64 r.2 die 4 core 0x14 r.1.length
    let w := if stored then conflicts m d die 4 core operand 0x24 else (0, d)
    (bankMerge d core m (mputs (bankView d core m) (rowAddr die u.bank u.row) (r.1.flatMap frnBytes)), w.2, 4 + u.pops + w.1)
/-- FRN_CLOSE: the entries are discarded. -/
def opClose (m : Mem) (d : Dev) (die core operand : Nat) : UnitRes :=
  let k := frnKey die core (bits operand 31 22)
  match frnBad d die core operand true with
  | some d => (m, d, 16)
  | none => (m, { d with eng := { d.eng with frn := tdel d.eng.frn k } }, 16)

/-! ### DMA (R330) -/

/-- A DMA fault: DMA_DESC (R330). -/
def dmaFault (d : Dev) (die operand : Nat) : Dev := raise d 0x035 die 0x80 (opLoc operand)
/-- The owner code of a transfer's identity: the core of a slot of the die, or the DMA agent (R330, R332). Log entry 50 DEDUCED. -/
def dmaWho (d : Dev) (die v : Nat) : Option Nat := if v = 0x1f then some 0x10 else if v < 16 then slotCore d die v else none
/-- The address of a bank byte: [23:0] in bank [27:24] of a die; none outside a bank. -/
def dmaBank (die a n : Nat) : Option Nat := if a < 2 ^ 28 && bits a 23 0 + n ≤ bankBytes then some (bankBase die (bits a 27 24) + bits a 23 0) else none
/-- Blocked rows of a bank range of a transfer counted. Log entry 49 DEDUCED. -/
def dmaBlocked (d : Dev) (die who a n : Nat) : Dev :=
  countBlocked d die who [(bits a 27 24 * 2 ^ 18, (bits a 23 0 % 64 + n + 63) / 64)]
/-- The four transfers by code (R330). A source in a bank need not be aligned (R337). Log entry 50 DEDUCED. -/
def opDma (fz : Fuses) (m : Mem) (d : Dev) (die code operand : Nat) : UnitRes :=
  let bs := mgets m (rowField die (opLoc operand)) 32
  let src := fld bs 0 8
  let dst := fld bs 8 8
  let n := fld bs 16 4
  let dest := if code = 4 then bits (fld bs 21 1) 2 0 else die
  let len := if code = 3 then 64 + (n + 31) / 32 else if code = 4 then 16 + (n + 63) / 64 else 1600 + (n + 47) / 48
  let srcA := if code = 1 then (if bulkOk die src n then some (bulkBase die + src) else none)
    else if code = 3 then (if src + n ≤ 4194304 then some (ctlBase die + src) else none) else dmaBank die src n
  let dstA := if code = 2 then (if bulkOk die dst n then some (bulkBase die + dst) else none) else if dst % 64 ≠ 0 then none else dmaBank dest dst n
  if n % 64 ≠ 0 || n < 64 || n > 67108864 || bits (fld bs 20 1) 7 5 ≠ 0 || bits (fld bs 21 1) 7 3 ≠ 0 || !allZero (slice bs 22 10) || (code = 4 && (dest = die || dest ≥ popDies fz)) then (m, dmaFault d die operand, len)
  else match srcA, dstA, dmaWho d die (bits (fld bs 20 1) 4 0) with
  | some a, some b, some who =>
    let d := if code = 2 || code = 4 then dmaBlocked d die who src n else d
    let d := if code = 2 then d else dmaBlocked d dest who dst n
    let bs := if code = 1 then bulkGets (bankView d who m) d die src n else mgets (bankView d who m) a n
    (bankMerge d who m (mputs (bankView d who m) b bs), d, len)
  | _, _, _ => (m, dmaFault d die operand, len)

/-! ### Commands -/

/-- A unit operation of a core as a command: its work, without the queue, tokens and cycle that OPERATION_START gives it (log entry 41). -/
def runUnit (s : State) (die core : Nat) (f : Mem → Dev → UnitRes) : Host.Outcome State Fault Refusal :=
  onCore s die core fun fz m d => if coreLive fz d die core then ((f m d).1, (f m d).2.1) else (m, d)
/-- SWP_STAGE (R164). -/
def execSwpStage (die core operand : Nat) (s : State) : Host.Outcome State Fault Refusal := runUnit s die core fun m d => opStage m d die core operand
/-- SWP_CHECK (R168). -/
def execSwpCheck (die core operand : Nat) (ecc : Option Nat) (s : State) : Host.Outcome State Fault Refusal :=
  runUnit s die core fun m d => opCheck m d die core operand ecc
/-- SWP_INVAL (R183). -/
def execSwpInval (die core operand : Nat) (s : State) : Host.Outcome State Fault Refusal := runUnit s die core fun m d => opInval m d die core operand
/-- TNS_LOAD (R203). -/
def execTnsLoad (die core operand : Nat) (s : State) : Host.Outcome State Fault Refusal := runUnit s die core fun m d => opLoad m d die core operand
/-- TNS_TABLE (R203). -/
def execTnsTable (die core operand : Nat) (s : State) : Host.Outcome State Fault Refusal := runUnit s die core fun m d => opTable m d die core operand
/-- TNS_LAYER (R198). -/
def execTnsLayer (die core operand : Nat) (s : State) : Host.Outcome State Fault Refusal := runUnit s die core fun m d => opLayer m d die core operand
/-- SLV_BATCH (R282). -/
def execSlvBatch (die core operand : Nat) (s : State) : Host.Outcome State Fault Refusal := runUnit s die core fun m d => opBatch m d die core operand
/-- SLV_ROWS (R267). -/
def execSlvRows (die core operand : Nat) (desc : UnitDesc) (s : State) : Host.Outcome State Fault Refusal :=
  runUnit s die core fun m d => opRows m d die core operand desc
/-- SEL_SORT (R288). -/
def execSelSort (die core operand : Nat) (s : State) : Host.Outcome State Fault Refusal := runUnit s die core fun m d => opSel m d die core 1 operand
/-- SEL_TOPK (R289). -/
def execSelTopk (die core operand : Nat) (s : State) : Host.Outcome State Fault Refusal := runUnit s die core fun m d => opSel m d die core 2 operand
/-- SEL_UNIQ (R288). -/
def execSelUniq (die core operand : Nat) (s : State) : Host.Outcome State Fault Refusal := runUnit s die core fun m d => opSel m d die core 3 operand
/-- SEL_MERGE (R290). -/
def execSelMerge (die core operand : Nat) (s : State) : Host.Outcome State Fault Refusal := runUnit s die core fun m d => opSel m d die core 4 operand
/-- FRN_OPEN (R253). -/
def execFrnOpen (die core operand : Nat) (s : State) : Host.Outcome State Fault Refusal := runUnit s die core fun m d => opOpen m d die core operand
/-- FRN_PUSHB (R253). -/
def execFrnPushb (die core operand : Nat) (desc : UnitDesc) (s : State) : Host.Outcome State Fault Refusal :=
  runUnit s die core fun m d => opPush m d die core operand desc
/-- FRN_POPB (R253). -/
def execFrnPopb (die core operand : Nat) (desc : UnitDesc) (s : State) : Host.Outcome State Fault Refusal :=
  runUnit s die core fun m d => opPop m d die core operand desc
/-- FRN_CLOSE (R253). -/
def execFrnClose (die core operand : Nat) (s : State) : Host.Outcome State Fault Refusal := runUnit s die core fun m d => opClose m d die core operand
/-- FRONTIER_REFILL (R222). -/
def execFrontierRefill (die core queue : Nat) (s : State) : Host.Outcome State Fault Refusal :=
  onCore s die core fun _ m d => (m, frnRefill d die core queue)
/-- A transfer as a command. Log entry 41 DESIGN CHOICE. -/
def runDma (s : State) (die code operand : Nat) : Host.Outcome State Fault Refusal :=
  onDie s die fun fz m d => if dieLive d die then ((opDma fz m d die code operand).1, (opDma fz m d die code operand).2.1) else (m, d)
/-- DMA_IN (R330). -/
def execDmaIn (die operand : Nat) (s : State) : Host.Outcome State Fault Refusal := runDma s die 1 operand
/-- DMA_OUT (R330). -/
def execDmaOut (die operand : Nat) (s : State) : Host.Outcome State Fault Refusal := runDma s die 2 operand
/-- DMA_CTRL (R330). -/
def execDmaCtrl (die operand : Nat) (s : State) : Host.Outcome State Fault Refusal := runDma s die 3 operand
/-- DMA_LINK (R330). -/
def execDmaLink (die operand : Nat) (s : State) : Host.Outcome State Fault Refusal := runDma s die 4 operand

end Sys2Proof.Machine
end

