-- ==== Sys2Proof/Machine/Lathe.lean ====
section
/-! DEFINITION. Bundle streams (R303 to R339): the turn plan, issue and start of operations, tokens and credits, barriers, the checks at the end of a
turn, bank owners, the background bank test, block resets. -/
namespace Sys2Proof.Machine

/-! ### Units and their places -/

/-- Queues of a unit at the start of a turn: empty, with no route (R317, R318). Log entry 11 DESIGN CHOICE. -/
def emptyUnit : UnitQ := { (default : UnitQ) with route := 0xff0ff0ff0ff }
/-- The lathe of a die. -/
def latheOf (d : Dev) (die : Nat) : LatheRec := tgetD d.eng.lathes die default
/-- A lathe changed. -/
def modLathe (d : Dev) (die : Nat) (f : LatheRec → LatheRec) : Dev := { d with eng := { d.eng with lathes := tput d.eng.lathes die (f (latheOf d die)) } }
/-- A unit's queues. -/
def unitOf (d : Dev) (die unit : Nat) : UnitQ := tgetD (latheOf d die).units unit emptyUnit
/-- A unit's queues changed. -/
def modUnit (d : Dev) (die unit : Nat) (f : UnitQ → UnitQ) : Dev :=
  modLathe d die fun l => { l with units := tput l.units unit (f (tgetD l.units unit emptyUnit)) }
/-- The core and engine of a unit; the DMA agent and the lathe count as engine 0 of core 0 (R320). None for a slot at or beyond the usable cores and
for a reserved id (R303, R304). -/
def unitPlace (d : Dev) (die unit : Nat) : Option (Nat × Nat) :=
  if unit = 0x80 || unit = 0x81 then some (0, 0)
  else if unit < 0x80 && unit % 8 < 5 then ((coresUsed d die)[unit / 8]?).map fun c => (c, unit % 8) else none
/-- Hops between two dies (R20, R22). -/
def hops (a b : Nat) : Nat := (if a % 2 = b % 2 then 0 else 1) + (max (a / 2) (b / 2) - min (a / 2) (b / 2))
/-- The fixed delay of a token (R320). -/
def tokDelay (d : Dev) (die unit toDie toUnit : Nat) : Nat :=
  if die ≠ toDie then 96 * hops die toDie + 4 else
  let s := (unitPlace d die unit).getD (0, 0)
  let r := (unitPlace d toDie toUnit).getD (0, 0)
  if s.1 = r.1 then 2 + (r.2 + 5 - s.2) % 5 else 6 + ((max s.1 r.1 - min s.1 r.1) + 3) / 4
/-- A token sent at cycle `cyc` (R320). -/
def sendTok (d : Dev) (die unit cyc : Nat) (isData : Bool) (toDie toUnit : Nat) (cb : Bool) : Dev :=
  { d with eng := { d.eng with order := d.eng.order + 1, transit := d.eng.transit ++
      [{ due := cyc + tokDelay d die unit toDie toUnit, toDie := toDie, toUnit := toUnit, isData := isData, tok := { die := die, unit := unit, cb := cb },
         order := d.eng.order }] } }
/-- A data token to each used destination of a route, in destination order (R318). -/
def sendRoute (d : Dev) (die unit cyc route : Nat) : Dev :=
  (List.range 4).foldl (fun d i =>
    let x := bits route (12 * i + 11) (12 * i)
    if x % 256 = 0xff then d else sendTok d die unit cyc true (bits x 10 8) (x % 256) (bitAt x 11)) d
/-- A credit token back to the sender of every consumed data token with credit-back (R319). -/
def sendCredits (d : Dev) (die unit cyc : Nat) (used : List Tok) : Dev :=
  (used.filter (·.cb)).foldl (fun d t => sendTok d die unit cyc false t.die t.unit false) d
/-- A sticky bit of LTH_ERR and a warden source of the lathe. Log entry 50 DEDUCED. -/
def latheErr (d : Dev) (die bit src detail : Nat) : Dev := raise (stick d (dieWin die + 8) (2 ^ bit)) src die 0x81 detail
/-- A wrapping counter of the lathe, unless cnt_freeze holds it (R345). -/
def latheCnt (d : Dev) (die o n : Nat) : Dev := if bitAt (rget d (dieWin die)) 1 then d else cntWrap d (dieWin die + o) n
/-- Operations of a unit that still run at cycle `cyc`. -/
def stillRuns (q : UnitQ) (cyc : Nat) : List RunOp := q.runs.filter fun r => decide (cyc < r.ends)
/-- The unit is idle at `cyc`: nothing waits and nothing runs. -/
def unitIdle (q : UnitQ) (cyc : Nat) : Bool := q.ops.isEmpty && (stillRuns q cyc).isEmpty
/-- The completion cycle of a BAR_WAIT that has not been released. -/
def noEnd : Nat := 2 ^ 48
/-- The lathes issue and start work: turns run and no latched safe state has stopped them (R477). -/
def latheOn (d : Dev) (die : Nat) : Bool := running d && !d.wdn.safe.stopped && dieLive d die

/-! ### The plan (R308 to R310) -/

/-- The entries of half `h` of a die's plan buffer, up to the one marked last (R308). -/
def planFrom (d : Dev) (base : Nat) : Nat → Nat → List Nat
  | 0, _ => []
  | n + 1, i =>
    let e := rget d (base + 8 * i) + 2 ^ 32 * rget d (base + 8 * i + 4)
    if bitAt e 56 then [e] else e :: planFrom d base n (i + 1)
/-- PLAN_SEAL (R309). -/
def fxPlanSeal (d : Dev) (die v : Nat) : Dev := if bitAt v 0 then modLathe d die fun l => { l with sealed := true } else d
/-- The boundary takes the sealed half over, or the turn's plan is empty (R309). -/
def takePlan (d : Dev) (die : Nat) : Dev :=
  let l := latheOf d die
  let l0 : LatheRec := { l with entry := 0, rep := 0, bundle := 0, repStart := 0, lastIssue := none, stallTo := 0 }
  if l.sealed then modLathe d die fun _ => { l0 with plan := planFrom d (dieWin die + 0x1000 + 0x800 * l.half) 256 0, half := 1 - l.half, sealed := false }
  else latheErr (modLathe d die fun _ => { l0 with plan := [] }) die 7 0x014 0
/-- The bundles of the segment that a plan entry names: the first and their number, none for a segment that the image does not have. -/
def segOf (d : Dev) (e : Nat) : Nat × Nat × Nat :=
  let raw := actImg d
  let s := imgSeg raw (bits e 9 0)
  if bits e 9 0 < imgSegs raw then (bits s 14 0, bits s 29 15 + 1, bits s 36 35) else (0, 0, 0)
/-- The place in the plan of the next bundle: entries with no repetitions, and with no bundles, are skipped. -/
def planAt (d : Dev) (l : LatheRec) : Option (Nat × LatheRec) :=
  match (l.plan.zipIdx).find? fun e => decide (l.entry ≤ e.2) && bits e.1 21 10 != 0 && (segOf d e.1).2.1 != 0 with
  | none => none
  | some (e, i) => some (e, if i = l.entry then l else { l with entry := i, rep := 0, bundle := 0 })
/-- The plan has been issued in full. -/
def planDone (d : Dev) (l : LatheRec) : Bool := (planAt d l).isNone

/-! ### Issue (R310 to R314) -/

/-- An operand with its row raised by `n` rows; a row beyond 18 bits stays an out-of-bank row (R310). Log entry 50 DEDUCED. -/
def stepRow (operand n : Nat) : Nat := operand - bits operand 17 0 + min 0x3ffff (bits operand 17 0 + n)
/-- The operations of a bundle, by slot: unit, entry (R311 to R313). -/
def bundleOps (bs : Bytes) (S cyc add window : Nat) : List (Nat × OpEnt) :=
  let h := fld bs 0 8
  (List.range (bits h 20 18)).map fun i =>
    let w := fld bs (8 + 8 * i) 8
    let code := bits w 55 48
    let unit := bits w 63 56
    (unit, { code := code, operand := if code < 0xf0 && unit ≠ 0x81 then stepRow (bits w 47 0) add else bits w 47 0,
             data := bits h (23 + 3 * i) (21 + 3 * i), credit := bits h (43 + 2 * i) (42 + 2 * i), notBefore := S + bits h 17 0, issued := cyc, window := window })
/-- The place after the bundle just issued. -/
def nextPlace (l : LatheRec) (e len cyc S : Nat) : LatheRec :=
  let l := { l with lastIssue := some cyc, repStart := S }
  if l.bundle + 1 < len then { l with bundle := l.bundle + 1 }
  else if l.rep + 1 < bits e 21 10 then { l with bundle := 0, rep := l.rep + 1 } else { l with bundle := 0, rep := 0, entry := l.entry + 1 }
/-- The queues, contexts and tokens of a die cleared; the masks of the last BAR_ARM stay shown (R317, R328). -/
def clearUnits (d : Dev) (die : Nat) : Dev :=
  modLathe { d with eng := { d.eng with transit := d.eng.transit.filter fun t => t.toDie != die } } die fun l =>
    { l with units := [], overrun := false, bars := tmap (fun _ (b : BarCtx) => { (default : BarCtx) with dieMask := b.dieMask }) l.bars }
/-- After an overrun the lathe clears queues and contexts once every unit is idle (R329); `cyc` is the present cycle. -/
def settle (d : Dev) (die cyc : Nat) : Dev :=
  let l := latheOf d die
  if l.overrun && l.units.all fun u => (stillRuns u.2 cyc).isEmpty then clearUnits d die else d
/-- Operations in a unit's queue at cycle `t`: those of now and those that started after `t`. Log entry 51 DEDUCED. -/
def queuedAt (q : UnitQ) (t : Nat) : Nat := q.ops.length + (q.starts.filter fun s => decide (t < s)).length
/-- The bundle that is to be issued next: its plan entry, the lathe at its place, its segment's bundles, S, its operations, the first cycle that R314 allows it
where every queue has room. Log entry 50 DEDUCED. -/
def nextBundle (d : Dev) (die cyc : Nat) : Option (Nat × LatheRec × Nat × Nat × List (Nat × OpEnt) × Nat) :=
  match planAt d (latheOf d die) with
  | none => none
  | some (e, l) =>
    let seg := segOf d e
    let after := (l.lastIssue.map (· + 1)).getD 0
    let S := if l.bundle = 0 then (if l.rep = 0 then max (bits e 39 22) after else after) else l.repStart
    let bs := slice (actImg d) (imgBundles (actImg d) + 64 * (seg.1 + l.bundle)) 64
    some (e, l, seg.2.1, S, bundleOps bs S cyc (l.rep * bits e 55 40) seg.2.2, max (max S after) (S + bits (fld bs 0 8) 17 0 - 2))
/-- The first cycle from `c0` on at which every unit that a bundle names has room; none where one is full now (R314). -/
def roomFrom (d : Dev) (die c0 : Nat) (ops : List (Nat × OpEnt)) : Option Nat :=
  let units := (ops.map (·.1)).eraseDups
  let roomy := fun (t : Nat) => units.all fun u => decide (queuedAt (unitOf d die u) t + (ops.filter fun p => p.1 == u).length ≤ 16)
  (sortBy (fun a b => decide (a ≤ b)) (c0 :: (units.flatMap fun u => (unitOf d die u).starts.filter fun s => decide (c0 < s)))).find? roomy
/-- BUNDLE_ISSUE at cycle `cyc` (R310, R314): the bundle issues at the first cycle that R314 allows and at no other; cycles lost to a full queue count. After an
overrun only once every unit is idle (R329). Log entries 50 DEDUCED, 51 DEDUCED. -/
def fxIssue (d : Dev) (die cyc : Nat) : Dev :=
  if !latheOn d die then d else
  let d := settle d die cyc
  if (latheOf d die).overrun then d else
  match nextBundle d die cyc with
  | none => d
  | some (e, l, len, S, ops, c0) =>
    let good := ops.filter fun o => (unitPlace d die o.1).isSome
    let lost := max c0 l.stallTo
    match roomFrom d die c0 good with
    | none => if cyc < c0 then d else modLathe (latheCnt d die 0x2C (cyc + 1 - lost)) die fun l => { l with stallTo := max l.stallTo (cyc + 1) }
    | some f =>
      if cyc ≠ f then d else
      let d := modLathe (latheCnt d die 0x2C (f - lost)) die fun _ => nextPlace l e len cyc S
      let d := ops.foldl (fun d o =>
        if (unitPlace d die o.1).isSome then modUnit d die o.1 fun q => { q with ops := q.ops ++ [o.2] } else latheErr d die 1 0x036 o.1) d
      latheCnt d die 0x28 1

/-! ### Barriers (R324 to R327) -/

/-- A barrier context of a die. -/
def barOf (d : Dev) (die x : Nat) : BarCtx := tgetD (latheOf d die).bars x default
/-- A barrier context changed. -/
def modBar (d : Dev) (die x : Nat) (f : BarCtx → BarCtx) : Dev := modLathe d die fun l => { l with bars := tput l.bars x (f (tgetD l.bars x default)) }
/-- The unit is a participant of an armed context of its die. -/
def isParticipant (b : BarCtx) (die unit : Nat) : Bool :=
  decide (unit < 0x80) && bitAt b.dieMask die && bitAt b.slotMask (unit / 8) && bitAt b.engMask (unit % 8)
/-- The masks of two contexts are the same. -/
def sameMasks (a b : BarCtx) : Bool := a.dieMask == b.dieMask && a.slotMask == b.slotMask && a.engMask == b.engMask
/-- An operation of a general segment that still runs at cycle W - 2,000 (R316). -/
def countLate (d : Dev) (die window cyc ends : Nat) : Dev :=
  if window = 0 && decide (cyc ≤ workEnd d - 2000) && decide (workEnd d - 2000 < ends) then latheCnt d die 0x34 1 else d
/-- A BAR_WAIT of a unit ends at cycle `cyc`: the run completes and credits go back. -/
def endWait (d : Dev) (die unit cyc : Nat) : Dev :=
  match (unitOf d die unit).waitBar with
  | none => d
  | some w =>
    let late := (unitOf d die unit).runs.filter fun r => r.ends == noEnd
    let d := if cyc ≤ workEnd d then late.foldl (fun d r => countLate d die r.window r.start cyc) d else d
    sendCredits (modUnit d die unit fun q => { q with waitBar := none, runs := q.runs.map fun r => if r.ends = noEnd then { r with ends := cyc } else r }) die unit cyc w.2
/-- A die's first arrival sends its masks: where another die of the union whose own first arrival sent other masks is found, every die of the union shows a mismatch
and its context is not released in this turn (R327). Log entry 51 DEDUCED. -/
def maskCheck (d : Dev) (die x : Nat) : Dev :=
  let b := barOf d die x
  let others := (liveDies d).filter fun e => e != die && (let c := barOf d e x; c.armed && !c.arrivals.isEmpty && (bitAt b.dieMask e || bitAt c.dieMask die) && !sameMasks b c)
  if others.isEmpty then d else
  let all := others.foldl (fun m e => m ||| (barOf d e x).dieMask) b.dieMask
  ((liveDies d).filter fun e => bitAt all e || e == die || others.contains e).foldl (fun d e =>
    modBar (latheErr d e 4 0x03A x) e x fun b => { b with mismatch := true }) d
/-- An arrival counted at an armed context: a foreign unit goes on at once (R325). -/
def barArrive (d : Dev) (die x unit cyc now : Nat) : Dev :=
  let b := barOf d die x
  if !isParticipant b die unit then endWait (latheErr d die 3 0x038 unit) die unit (now + 1)
  else
    let first := b.arrivals.isEmpty
    let d := modBar d die x fun b => { b with arrivals := b.arrivals ++ [(unit, cyc)] }
    if first then maskCheck d die x else d
/-- BAR_ARM at cycle `cyc` (R324, R325): held arrivals count now. Log entry 51 DEDUCED. -/
def fxArm (d : Dev) (die operand cyc : Nat) : Dev :=
  let x := bits operand 2 0
  let b := barOf d die x
  if b.armed then latheErr d die 2 0x039 x else
  let d := modBar d die x fun _ =>
    { armed := true, dieMask := bits operand 15 8, slotMask := bits operand 31 16, engMask := bits operand 36 32, armCyc := cyc, arrivals := [], held := [],
      mismatch := b.mismatch }
  b.held.foldl (fun d h => barArrive d die x h.1 h.2 cyc) d
/-- A BAR_WAIT that begins to wait at cycle `cyc`, having consumed `used` (R325). -/
def fxBarWait (d : Dev) (die unit operand cyc window : Nat) (used : List Tok) : Dev :=
  let x := bits operand 2 0
  let d := modUnit d die unit fun q => { q with waitBar := some (x, used), runs := stillRuns q cyc ++ [{ code := 0xf3, operand := operand, window := window, ends := noEnd, start := cyc }] }
  if (barOf d die x).armed then barArrive d die x unit cyc cyc else modBar d die x fun b => { b with held := b.held ++ [(unit, cyc)] }
/-- The participants of a context on one die. -/
def participants (b : BarCtx) (die : Nat) : List Nat := (List.range 128).filter fun u => isParticipant b die u
/-- The cycle at which an armed context is released, once every participant of every die has arrived (R326). Log entries 39 DESIGN CHOICE, 51 DEDUCED. -/
def releaseCyc (d : Dev) (die x : Nat) : Option Nat :=
  let b := barOf d die x
  let ds := (List.range 8).filter fun e => bitAt b.dieMask e
  let ready := ds.all fun e => let c := barOf d e x; c.armed && !c.mismatch && sameMasks b c && (participants c e).all fun u => c.arrivals.any fun a => a.1 == u
  if !b.armed || b.mismatch || ds.isEmpty || !ready then none else
  let lAt := fun e => let c := barOf d e x; (c.arrivals.map (·.2)).foldl max c.armCyc
  let last := (ds.map lAt).foldl max 0
  match ds with
  | [_] => some (last + 2)
  | _ => some (last + 96 * ((ds.flatMap fun a => ds.map fun b => hops a b).foldl max 0) + 4)
/-- BARRIER_RELEASE at the computed cycle (R326). Log entry 51 DEDUCED. -/
def fxBarRelease (d : Dev) (die x cyc : Nat) : Dev :=
  if releaseCyc d die x ≠ some cyc then d else
  let ds := (List.range 8).filter fun e => bitAt (barOf d die x).dieMask e
  ds.foldl (fun d e =>
    let b := barOf d e x
    modBar (b.arrivals.foldl (fun d a => endWait d e a.1 cyc) d) e x fun b => { (default : BarCtx) with dieMask := b.dieMask }) d

/-! ### Starting operations (R315, R316, R321 to R323) -/

/-- The first cycle at which the window of R316 lets an operation of a segment kind start; with `tns`, tensor work, none but from a general segment (R187). -/
def windowFrom (d : Dev) (kind : Nat) (tns : Bool) : Option Nat :=
  if tns && kind ≠ 0 then none else some (if kind = 1 then 0 else if kind = 2 then workEnd d - 2000 else bermLen d)
/-- The first cycle at which that window is over: a berm operation starts before cycle B, tensor work before the release phase (R187, R316). -/
def windowEnd (d : Dev) (kind : Nat) (tns : Bool) : Option Nat :=
  if tns then some (workEnd d - 2000) else if kind = 1 then some (bermLen d) else none
/-- Staging rows that a TNS_LOAD writes or a TNS_LAYER reads. -/
def stagingRows (m : Mem) (d : Dev) (die core code operand : Nat) : List (Nat × Nat) :=
  let v := bankView d core m
  if code = 1 then
    let bs := mgets v (rowField die (opLoc operand)) 16
    [(fld bs 12 4, fld bs 8 4 / 64)]
  else if code = 3 then
    let l := parseLayer (mgets v (rowField die (opLoc operand)) 64)
    (if l.isMac then [(l.wLoc, (l.wBytes + 63) / 64)] else []) ++ [(l.scLoc, (l.scBytes + 63) / 64)]
  else []
/-- The table that a layer uses or a TNS_TABLE loads, with 1 added; 0 none. -/
def tableUsed (m : Mem) (d : Dev) (die core code operand : Nat) : Nat :=
  if code = 2 then bits operand 23 22 + 1
  else if code = 3 then
    let a := (parseLayer (mgets (bankView d core m) (rowField die (opLoc operand)) 64)).act
    if a = 0xff then 0 else a + 1
  else 0
/-- The unit's chapter allows an operation to start beside one that still runs (R181, R204, R294, R330): otherwise nothing runs beside another (R315). Common
operations other than SIGNAL and BAR_WAIT start beside the unit's own, not beside one another. Log entry 50 DEDUCED. -/
def mayRunWith (m : Mem) (d : Dev) (die core eng code operand : Nat) (r : RunOp) : Bool :=
  if code = 0xf1 || code = 0xf3 || r.code ≥ 0xf0 then false
  else if code ≥ 0xf0 then true
  else if eng = 0 then
    (r.code == 1 && code == 2 || r.code == 2 && code == 1) && bitAt r.operand 22 != bitAt operand 22
  else if eng = 1 then
    if r.code = code || (r.code ≠ 3 && code ≠ 3) then false
    else
      let a := stagingRows m d die core r.code r.operand
      let b := stagingRows m d die core code operand
      let t := tableUsed m d die core code operand
      !(a.any fun x => b.any fun y => rangesMeet x.1 x.2 y.1 y.2) && (t == 0 || t != tableUsed m d die core r.code r.operand)
  else if eng = 2 then r.code != code
  else false
/-- The length and the work of an own operation of a unit. Log entry 41 DESIGN CHOICE. -/
def runOwn (fz : Fuses) (m : Mem) (d : Dev) (die unit code operand cyc : Nat) (ue : Option Nat) (u : UnitDesc) : UnitRes :=
  let core := ((unitPlace d die unit).getD (0, 0)).1
  if unit = 0x80 then
    if 1 ≤ code && code ≤ 4 then opDma fz m d die code operand else (m, dmaFault d die operand, 1)
  else if unit = 0x81 then (m, if code = 1 then fxArm d die operand cyc else latheErr d die 0 0x037 code, 1)
  else match unit % 8, code with
    | 0, 1 => opStage m d die core operand
    | 0, 2 => opCheck m d die core operand ue
    | 0, 3 => opInval m d die core operand
    | 1, 1 => opLoad m d die core operand
    | 1, 2 => opTable m d die core operand
    | 1, 3 => opLayer m d die core operand
    | 2, 1 => opBatch m d die core operand
    | 2, 2 => opRows m d die core operand u
    | 3, c => opSel m d die core c operand
    | 4, 1 => opOpen m d die core operand
    | 4, 2 => opPush m d die core operand u
    | 4, 3 => opPop m d die core operand u
    | 4, 4 => opClose m d die core operand
    | 0, _ => (m, engFault d die 0 core 4 operand, 1)
    | 4, _ => (m, engFault d die 4 core 1 operand, 1)
    | e, _ => (m, engFault d die e core 2 operand, 1)
/-- A GRANT: `count` credit tokens to a destination (R323). -/
def fxGrant (d : Dev) (die unit operand cyc : Nat) : Dev :=
  if bits operand 7 0 = 0xff then d else
  Nat.repeat (fun d => sendTok d die unit cyc false (bits operand 10 8) (bits operand 7 0) false) (min 32 (bits operand 19 12)) d
/-- A token of the unit waits at a full queue (R321). -/
def holdsToken (d : Dev) (die unit : Nat) : Bool := d.eng.transit.any fun t => t.tok.die == die && t.tok.unit == unit && t.held.isSome
/-- The first cycle at which the head operation of a unit may start, as its queues stand (R315, R316, R321); none where a token is missing or held. Log entry 50
DEDUCED. -/
def startFrom (m : Mem) (d : Dev) (die unit : Nat) (o : OpEnt) : Option Nat :=
  let q := unitOf d die unit
  let p := (unitPlace d die unit).getD (0, 0)
  let tns := decide (unit < 0x80) && p.2 == 1 && decide (o.code < 0xf0)
  let beside := fun (r : RunOp) => if unit ≥ 0x80 then o.code != 0xf1 && o.code != 0xf3 && decide (r.code < 0xf0) else mayRunWith m d die p.1 p.2 o.code o.operand r
  let toks := ((q.data.take o.data) ++ q.credit.take o.credit).map (·.seen)
  if o.data > q.data.length || o.credit > q.credit.length || holdsToken d die unit then none else
  (windowFrom d o.window tns).bind fun w =>
    let t := (toks ++ q.starts ++ (q.runs.filter fun r => !beside r).map (·.ends)).foldl max (max (max o.notBefore (o.issued + 2)) (max w q.freeAt))
    if (windowEnd d o.window tns).any fun e => decide (e ≤ t) then none else some t
/-- The head operation of the unit starts at `cyc`: at the first cycle that R315 allows, and at no other. -/
def startsNow (m : Mem) (d : Dev) (die unit cyc : Nat) : Bool :=
  match (unitOf d die unit).ops with
  | [] => false
  | o :: _ => (unitPlace d die unit).isSome && latheOn d die && !(latheOf d die).overrun && startFrom m d die unit o == some cyc
/-- Transfers of bulk memory that run on a die at a cycle: those of the DMA agent and the loads of the tensor engines, 48 bytes a cycle each (R203, R330). -/
def bulkRuns (d : Dev) (die cyc : Nat) : Nat :=
  total ((latheOf d die).units.map fun u => ((stillRuns u.2 cyc).filter fun r =>
    (u.1 == 0x80 && (r.code == 1 || r.code == 2)) || (decide (u.1 < 0x80) && u.1 % 8 == 1 && r.code == 1)).length)
/-- A bulk-memory transfer of `len` cycles that starts beside so many that the die's traffic exceeds 800 bytes a cycle has its deliveries made late: DMA_LATE, and it
takes longer by an open number of cycles (R74, R330). Log entry 107 DESIGN CHOICE. -/
def bulkLate (d : Dev) (die unit code cyc len : Nat) : Nat × Dev :=
  let bulk := (unit == 0x80 && (code == 1 || code == 2)) || (decide (unit < 0x80) && unit % 8 == 1 && code == 1)
  if !bulk || 48 * (bulkRuns d die cyc + 1) ≤ 800 then (len, d)
  else let v := freeVal (raise d 0x017 die (if unit < 0x80 then ((unitPlace d die unit).getD (0, 0)).1 * 8 + 1 else unit) code); (len + 1 + v.1 % 2 ^ 24, v.2)
/-- Errors in bank words that the operation reads: a single-bit error in bank `ce` is corrected and counts; of a double-bit error, `ue` naming bank and
row, the word is delivered as stored, the error counts and BNK_UE is raised (R338). Log entry 46 DESIGN CHOICE. -/
def bankError (d : Dev) (die : Nat) (ce ue : Option Nat) : Dev :=
  let d := match ce with
    | none => d
    | some b => cnt d (dieWin die + 0x1000C + 0x100 * (b % 16))
  match ue with
  | none => d
  | some l => raise (cnt d (dieWin die + 0x10010 + 0x100 * bits l 21 18)) 0x020 die (0x90 + bits l 21 18) (l % 2 ^ 22)
/-- OPERATION_START (R315): the head operation takes its tokens and starts; its tokens leave at its completion. Log entries 39 DESIGN CHOICE, 41 DESIGN CHOICE. -/
def fxStart (fz : Fuses) (m : Mem) (d : Dev) (die unit cyc : Nat) (ue : Option Nat) (u : UnitDesc) : Mem × Dev :=
  match (unitOf d die unit).ops with
  | [] => (m, d)
  | o :: rest =>
    if !startsNow m d die unit cyc then (m, d) else
    let q := unitOf d die unit
    let used := q.data.take o.data
    let route := q.route
    let d := modUnit d die unit fun q =>
      { q with ops := rest, data := q.data.drop o.data, credit := q.credit.drop o.credit, runs := stillRuns q cyc, starts := (cyc :: q.starts).take 16 }
    if o.code = 0xf3 then (m, fxBarWait d die unit o.operand cyc o.window used) else
    let r : UnitRes :=
      if o.code < 0xf0 then runOwn fz m d die unit o.code o.operand cyc ue u
      else if o.code = 0xf0 then (m, modUnit d die unit fun q => { q with route := o.operand }, 1)
      else if o.code = 0xf1 then (m, sendRoute d die unit (cyc + 1) route, 1)
      else if o.code = 0xf2 then (m, fxGrant d die unit o.operand (cyc + 1), 1)
      else if o.code = 0xff then (m, d, 1)
      else (m, latheErr d die 0 0x037 o.code, 1)
    let late := bulkLate r.2.1 die unit o.code cyc r.2.2
    let ends := cyc + late.1
    let d := modUnit late.2 die unit fun q => { q with runs := q.runs ++ [{ code := o.code, operand := o.operand, window := o.window, ends := ends, start := cyc }] }
    let d := if o.code < 0xf0 then sendRoute d die unit ends route else d
    (r.1, countLate (sendCredits d die unit ends used) die o.window cyc ends)
/-- One token counted at cycle `cyc`, or held at its sender where its queue is full, the cycles of its waiting counted (R321). A token from another die that is
counted after its cycle without having been held is late: LINK_LATE (R74). Log entry 107 DESIGN CHOICE. -/
def takeToken (d : Dev) (die unit cyc : Nat) (t : Transit) : Dev :=
  let q := unitOf d die unit
  let waited := fun (d : Dev) (till : Nat) => latheCnt d t.tok.die 0x30 (till - t.held.getD t.due)
  if (if t.isData then q.data else q.credit).length ≥ 32 then
    waited { d with eng := { d.eng with transit := d.eng.transit ++ [{ t with held := some (cyc + 1) }] } } (cyc + 1)
  else
    let late := t.held.isNone && t.tok.die != die && decide (t.due < cyc)
    let at_ := if t.held.isSome || late then cyc else t.due
    let d := if late then raise d 0x018 die unit t.tok.die else d
    let d := if t.held.isSome then modUnit (waited d cyc) t.tok.die t.tok.unit fun q => { q with freeAt := max q.freeAt cyc } else d
    let tok := { t.tok with seen := at_ }
    modUnit d die unit fun q => if t.isData then { q with data := q.data ++ [tok] } else { q with credit := q.credit ++ [tok] }
/-- TOKEN_ARRIVAL (R320, R321): the tokens due at a unit enter its queues in order; one that finds its queue full waits at its sender. Log entry 39 DESIGN CHOICE. -/
def fxArrive (d : Dev) (die unit cyc : Nat) : Dev :=
  let mine := fun (t : Transit) => t.toDie == die && t.toUnit == unit && decide (t.due ≤ cyc)
  let key := fun (t : Transit) => ((t.due * 8 + t.tok.die) * 256 + t.tok.unit) * 2 ^ 32 + t.order
  let due := sortBy (fun a b => decide (key a ≤ key b)) (d.eng.transit.filter mine)
  let d := { d with eng := { d.eng with transit := d.eng.transit.filter fun t => !mine t } }
  due.foldl (fun d t => takeToken d die unit cyc t) d

/-! ### The end of the turn (R316, R328, R329) -/

/-- BERM_OVERRUN: an operation of a berm segment still runs at cycle B (R316). -/
def fxBermOver (d : Dev) (die unit cyc : Nat) : Dev :=
  let p := (unitPlace d die unit).getD (0, 0)
  if cyc = bermLen d && (stillRuns (unitOf d die unit) cyc).any fun r => r.window == 1 then
    raise d 0x015 die (if unit < 0x80 then p.1 * 8 + p.2 else unit) cyc
  else d
/-- The lathe finds something left over at the start of the quiet tail (R328). -/
def leftover (d : Dev) (die : Nat) : Bool :=
  let l := latheOf d die
  !planDone d l || l.units.any (fun u => !unitIdle u.2 (workEnd d) || !u.2.data.isEmpty || !u.2.credit.isEmpty) ||
  l.bars.any fun b => b.2.armed || !b.2.held.isEmpty
/-- The BAR_WAITs of general segments that still wait, at the start of the quiet tail (R316). -/
def lateWaits (d : Dev) (die : Nat) : Nat :=
  total ((latheOf d die).units.map fun u => (u.2.runs.filter fun r => r.ends == noEnd && r.window == 0 && decide (r.start ≤ workEnd d - 2000)).length)
/-- QUIET_TAIL_CHECK (R328). Log entry 39 DESIGN CHOICE. -/
def fxQuietTail (d : Dev) (die : Nat) : Dev :=
  if !latheOn d die then d else
  let d := settle d die (workEnd d)
  if !leftover d die then d else cnt (latheErr (latheCnt d die 0x34 (lateWaits d die)) die 5 0x013 0) (dieWin die + 0x38)
/-- An operation of a die runs at the end of the turn (R39, R329). Log entry 51 DEDUCED. -/
def overruns (d : Dev) (die : Nat) : Bool :=
  (latheOf d die).units.any fun u => u.2.runs.any fun r => decide (turnCycles d < r.ends) && decide (r.ends < noEnd)
/-- A lathe at the boundary (R309, R328, R329): an overrun keeps what still runs, counted in the cycles of the new turn. Log entry 51 DEDUCED. -/
def latheTurn (d : Dev) (die : Nat) : Dev :=
  if !dieLive d die then d
  else if overruns d die then
    let n := turnCycles d
    let d := raise (stick d (dieWin die + 8) 64) 0x012 die 0x81 0
    takePlan (modLathe d die fun l => { l with overrun := true, units := tmap (fun _ (q : UnitQ) =>
      { q with waitBar := none, starts := [], freeAt := 0,
               runs := (q.runs.filter fun r => decide (n < r.ends) && decide (r.ends < noEnd)).map fun r => { r with ends := r.ends - n, start := 0 } }) l.units }) die
  else takePlan (clearUnits d die) die

/-! ### Banks (R333, R334, R339) -/

/-- A bank is out of use: its core was removed and its owner has lost it (R34, R334). Log entry 48 DEDUCED. -/
def bankRemoved (d : Dev) (die b : Nat) : Bool := coreGone d die b && bankOwner d die b == 0x1f
/-- BANK_OWNER_STAGE: the field next of BNK_OWNER_b; ignored for a bank whose core is removed (R333, R334). Log entry 48 DEDUCED. -/
def fxOwnerStage (d : Dev) (die b v : Nat) : Dev :=
  let cur := bankOwner d die b
  let old := ((tget d.eng.owner (die * 16 + b)).map (·.2.1)).getD b
  if bankRemoved d die b then (if bits v 12 8 = old then d else cnt d 0x10)
  else { d with eng := { d.eng with owner := tput d.eng.owner (die * 16 + b) (cur, bits v 12 8, true) } }
/-- The owner code's units of a die still run an operation, so that it has accesses outstanding (R329, R333). -/
def ownerBusy (d : Dev) (die who : Nat) : Bool :=
  (latheOf d die).units.any fun u => !u.2.runs.isEmpty && (if who = 0x10 then u.1 == 0x80 else ((unitPlace d die u.1).map (·.1)) == some who && decide (u.1 < 0x80))
/-- Owners of banks at a boundary: the bank of a core removed before the cutoff has none (R34, R334); a staged owner is taken where the current one has
no access outstanding (R333). -/
def takeOwners (fz : Fuses) (d : Dev) : Dev :=
  { d with eng := { d.eng with owner := tmap (fun k (o : Nat × Nat × Bool) =>
      let die := k / 16
      if coreGone d die (k % 16) then (0x1f, o.2.1, false)
      else if !o.2.2 || ownerBusy d die o.1 then o
      else if o.2.1 < 16 && !coreLive fz d die o.2.1 then (0x1f, o.2.1, false) else (o.2.1, o.2.1, false)) d.eng.owner } }
/-- BANK_TEST_REGION (R339): one region of a bank's background test. -/
def fxBankTest (d : Dev) (die b : Nat) (fail : Bool) : Dev :=
  let k := die * 16 + b
  let t := tgetD d.eng.tests k default
  let w := dieWin die
  let due := match t.started with
    | none => true
    | some s => decide (s + bits (rget d (w + 0x11004)) 15 0 ≤ d.time.turn)
  if !bitAt (rget d (w + 0x11000)) 2 || !due then d else
  let d := rset d (w + 0x10004 + 0x100 * b) (t.region * 16)
  let d := if fail then raise (rset d (w + 0x10018 + 0x100 * b) (0x80000000 + t.region)) 0x021 die (0x90 + b) t.region else d
  let d := if t.region = 2559 then cntWrap d (w + 0x10014 + 0x100 * b) else d
  { d with eng := { d.eng with tests := tput d.eng.tests k { region := if t.region = 2559 then 0 else t.region + 1, started := some d.time.turn } } }

/-! ### Block resets (R462) -/

/-- The five engines of a core are reset and their queues cleared; queries with work there restart. Log entry 52 DEDUCED. -/
def resetCore (d : Dev) (die core : Nat) : Dev :=
  let k := die * 16 + core
  let slot := ((coresUsed d die).zipIdx.find? fun c => c.1 == core).map (·.2)
  let d := { d with eng := { d.eng with halves := tfilter (fun h _ => h / 2 != k) d.eng.halves, tables := tfilter (fun h _ => h / 8 != k) d.eng.tables,
                                        frn := tfilter (fun h _ => h / 1024 != k) d.eng.frn } }
  let d := match slot with
    | none => d
    | some s => modLathe d die fun l => { l with units := tfilter (fun u _ => u / 8 != s) l.units }
  { d with q := { d.q with recs := tmap (fun _ (q : QueryRec) =>
      if q.tiles.any fun t => tileCore d t.1 == (die, core) then restartQ q else q) d.q.recs } }
/-- A block reset takes effect (R462). Log entry 52 DEDUCED. -/
def resetBlock (d : Dev) (die origin : Nat) : Dev :=
  if origin < 0x80 then resetCore d die (origin / 8)
  else if 0x90 ≤ origin ∧ origin < 0xa0 then resetCore d die (origin - 0x90)
  else if 0xc8 ≤ origin ∧ origin < 0xd0 then
    let p := origin - 0xc8
    let lost := d.host.egress.filter fun f => f.port == p && !f.body.isEmpty
    dropFrames (lost.foldl (fun d f => fldCnt d f.port 4) d) (fun f => f.port == p && !f.body.isEmpty) 0x301 3
  else d
/-- BLOCK_RESET: one waiting block reset at a turn boundary. Log entry 52 DEDUCED. -/
def fxBlockReset (d : Dev) (die origin : Nat) : Dev :=
  if !d.wdn.resets.contains (die, origin) then d
  else resetBlock (modWdn d fun w => { w with resets := w.resets.filter (· != (die, origin)) }) die origin

/-! ### Commands -/

/-- PLAN_SEAL (R309). -/
def execPlanSeal (die v : Nat) (s : State) : Host.Outcome State Fault Refusal := onDie s die fun _ m d => (m, fxPlanSeal d die v)
/-- BUNDLE_ISSUE (R314). -/
def execBundleIssue (die cyc : Nat) (s : State) : Host.Outcome State Fault Refusal := onDie s die fun _ m d => (m, fxIssue d die cyc)
/-- OPERATION_START (R315). -/
def execOperationStart (die unit cyc : Nat) (ue bankCe bankUe : Option Nat) (desc : UnitDesc) (s : State) : Host.Outcome State Fault Refusal :=
  onDie s die fun fz m d =>
    let d := settle d die cyc
    if startsNow m d die unit cyc then fxStart fz m (bankError d die bankCe bankUe) die unit cyc ue desc else (m, d)
/-- TOKEN_ARRIVAL (R320). -/
def execTokenArrival (die unit cyc : Nat) (s : State) : Host.Outcome State Fault Refusal := onDie s die fun _ m d => (m, fxArrive d die unit cyc)
/-- BAR_ARM (R324). -/
def execBarArm (die operand cyc : Nat) (s : State) : Host.Outcome State Fault Refusal := onDie s die fun _ m d => (m, fxArm d die operand cyc)
/-- ROUTE (R323). -/
def execRoute (die unit operand : Nat) (s : State) : Host.Outcome State Fault Refusal :=
  onDie s die fun _ m d => (m, modUnit d die unit fun q => { q with route := bits operand 47 0 })
/-- SIGNAL (R323): while an earlier operation of the unit runs it waits. -/
def execSignal (die unit _operand cyc : Nat) (s : State) : Host.Outcome State Fault Refusal :=
  onDie s die fun _ m d => (m, if (stillRuns (unitOf d die unit) cyc).isEmpty then sendRoute d die unit (cyc + 1) (unitOf d die unit).route else d)
/-- GRANT (R323). -/
def execGrant (die unit operand cyc : Nat) (s : State) : Host.Outcome State Fault Refusal := onDie s die fun _ m d => (m, fxGrant d die unit operand (cyc + 1))
/-- BAR_WAIT (R325): it arrives when every earlier operation of the unit has completed. -/
def execBarWait (die unit operand cyc : Nat) (s : State) : Host.Outcome State Fault Refusal :=
  onDie s die fun _ m d => (m, if (stillRuns (unitOf d die unit) cyc).isEmpty then fxBarWait d die unit operand cyc 0 [] else d)
/-- NOP (R323): it does nothing beyond the tokens that OPERATION_START takes. -/
def execUnitNop (die _unit _operand : Nat) (s : State) : Host.Outcome State Fault Refusal := onDie s die fun _ m d => (m, d)
/-- BARRIER_RELEASE (R326). -/
def execBarrierRelease (die ctx cyc : Nat) (s : State) : Host.Outcome State Fault Refusal := onDie s die fun _ m d => (m, fxBarRelease d die ctx cyc)
/-- BANK_OWNER_STAGE (R333). -/
def execBankOwnerStage (die bank v : Nat) (s : State) : Host.Outcome State Fault Refusal := onCore s die bank fun _ m d => (m, fxOwnerStage d die bank v)
/-- BANK_TEST_REGION (R339). -/
def execBankTestRegion (die bank : Nat) (fail : Bool) (s : State) : Host.Outcome State Fault Refusal := onCore s die bank fun _ m d => (m, fxBankTest d die bank fail)
/-- QUIET_TAIL_CHECK (R328). -/
def execQuietTailCheck (die : Nat) (s : State) : Host.Outcome State Fault Refusal := onDie s die fun _ m d => (m, fxQuietTail d die)
/-- BERM_OVERRUN (R316). -/
def execBermOverrun (die unit cyc : Nat) (s : State) : Host.Outcome State Fault Refusal := onDie s die fun _ m d => (m, fxBermOver d die unit cyc)
/-- BLOCK_RESET (R462). -/
def execBlockReset (die origin : Nat) (s : State) : Host.Outcome State Fault Refusal := onDie s die fun _ m d => (m, fxBlockReset d die origin)

end Sys2Proof.Machine
end

