-- ==== Sys2Proof/Machine/Entries.lean ====
section
/-! DEFINITION. What the entries of a ledger do when its turn starts (R54, R55, R60, R61, R63, R67, R128, R149 to R153, R214, R386, R387, R434, R444). -/
namespace Sys2Proof.Machine

/-! ### Commands -/

/-- A command in its ledger turn, by its opcode (R366). Log entry 37 DESIGN CHOICE. -/
def fxCommand (fz : Fuses) (d : Dev) (c : Cmd) : Dev :=
  match c.op with
  | 0x000 => ok d c
  | 0x001 => fxQueryStatus d c
  | 0x100 => pfOnly d c fxLoadImage
  | 0x101 => pfOnly d c fxActivateImage
  | 0x200 => fxModelDefine d c
  | 0x201 => fxPrimsetLoad d c
  | 0x202 => fxModelFree d c
  | 0x203 => fxPrimsetFree d c
  | 0x300 => fxMapCreate d c
  | 0x301 => fxMapUpdate d c
  | 0x302 => fxMapCommit d c
  | 0x303 => fxMapGrant d c (bitAt (fld c.block 2 1) 0)
  | 0x304 => fxMapDestroy d c
  | 0x400 => fxStreamOpen d c
  | 0x401 => fxStreamClose d c
  | 0x402 => fxBind d c
  | 0x500 => fxPlan d c
  | 0x501 => fxStopVerify d c
  | 0x502 => fxPlanCancel d c
  | 0x600 => fxSolve d c
  | 0x700 => fxSelect d c
  | 0x800 => pfOnly d c (fxLedgerCtl [])
  | 0x900 => fxCalibKin d c (fld c.block 6 1)
  | 0x901 => fxCalibTime d c (fld c.block 1 1)
  | 0x902 => pfOnly d c fun d c => fxCalibLane fz d c (fld c.block 2 1)
  | 0xA00 => pfOnly d c fxPolderCreate
  | 0xA01 => pfOnly d c fxPolderModify
  | 0xA02 => pfOnly d c fxPolderReset
  | 0xA03 => pfOnly d c fxPolderDestroy
  | 0xB00 => pfOnly d c (fxTwinAttach fz)
  | 0xB01 => pfOnly d c fxTwinDetach
  | 0xB02 => pfOnly d c fxTwinConfig
  | 0xC00 => pfOnly d c fxJoin
  | 0xC01 => pfOnly d c (fxFabricAssign fz)
  | 0xC02 => pfOnly d c (fxFabricLeave fz)
  | 0xC03 => pfOnly d c fxCfgStage
  | 0xC04 => pfOnly d c fxCfgCommit
  | 0xD00 => pfOnly d c (fxDieReadmit fz)
  | _ => answer d c stBadOpcode 0
/-- The reset of the command's polder has taken effect in this ledger (R387). -/
def resetDone (d : Dev) (p : Nat) : Bool := p != 0 && ((polder d p).state == 2 || (polder d p).state == 3)
/-- A command of S3 to S5: after its polder's reset it is discarded, a query with CANCELLED (R387). -/
def fxEntryCmd (fz : Fuses) (d : Dev) (es : List Entry) : Dev :=
  let e := es.headD default
  let c := cmdOfRun d es
  let c := if e.internal then { c with origin := .internal 1 } else c
  if !e.internal && resetDone d e.polder then (if isQuery c.op then answer d c stCancelled 0 else d) else fxCommand fz d c

/-! ### S1: timeouts, activations -/

/-- The plans of an agent whose state stream is silent end (R153 item 2). -/
def silence (d : Dev) (ag : Nat) (detail : Nat) : Dev :=
  let ids := plansOf d ag
  modAgent (endQueries d ids stInvalid detail) ag fun a => { a with invalidated := satInc a.invalidated ids.length }
/-- A TIMEOUT on the state stream of an agent (R152, R153): an ACTIVE agent enters STALE, which stale_cnt counts (R154); one that is STALE already takes the
actions of R153 again. Log entry 99 DEDUCED. -/
def agentTimeout (d : Dev) (ag : Nat) (a : AgentRec) : Dev :=
  if a.leaving then d else
  match a.state with
  | 1 => modAgent (silence (assertLive d 0x085 0 0xF0 ag) ag 1) ag fun x => { x with state := 2, stopDue := some d.time.turn, staleCnt := satInc x.staleCnt 1 }
  | 2 => modAgent (silence (assertLive d 0x085 0 0xF0 ag) ag 1) ag fun x => { x with stopDue := some d.time.turn }
  | 3 => modAgent (silence (assertLive d 0x085 0 0xF0 ag) ag 1) ag fun x => { x with marked := true }
  | _ => d
/-- A TIMEOUT entry (R67, R128, R153); it ends the stream's time estimate (R444). -/
def fxTimeout (d : Dev) (n : Nat) : Dev :=
  match tget d.world.streams n with
  | none => d
  | some s =>
    let d := endEstimate (modStream d n fun s => { s with timedOut := true, timeoutSince := true, timeoutCnt := satInc s.timeoutCnt 1 }) (1024 + n) 8
    if s.kind ≤ 2 then
      modMap (assertLive d 0x084 0 0xF0 n) s.target fun m => { m with events := m.events ++ [(3, .blind (blindPlaneOf s.blindPlane) s.coverMin s.coverMax)] }
    else match d.world.agents.find? (fun a => a.2.bind.stream == n) with
    | none => d
    | some (ag, a) => agentTimeout d ag a
/-- The outcome record that a CALIB entry of a replayed ledger carries; its pin is the model version current now (R87, R441). Log entry 54 DEDUCED. -/
def recordedOutcome (d : Dev) (p : Bytes) : CalRec :=
  let k := bits (fld p 0 1) 1 0; let h := fld p 2 2
  let v := (tget d.world.models h).bind curModel
  { idleEst k h with
    polder := if k = 1 then ((tget d.world.models h).map (·.owner)).getD 0 else ((tget d.world.streams h).map (·.polder)).getD 0,
    result := fld p 1 1, agent := fld p 4 2, used := fld p 6 2, start := fld p 8 6, ends := fld p 14 6, before := sfld p 24 4, after := fld p 28 4,
    pin := (v.map (·.ver)).getD 0, raw := (v.map (·.raw)).getD [], m := if k = 1 then fld p 32 4 else 0,
    corr := if k = 1 then (List.range (fld p 32 4)).map fun i => sfld p (36 + 4 * i) 4 else [], r := if k = 2 then sfld p 36 4 else 0 }
/-- A CALIB entry of the calibration unit: an outcome takes effect; a lane record has none (R434). -/
def fxCalEntry (d : Dev) (p : Bytes) : Dev :=
  if bits (fld p 0 1) 1 0 = 3 then d
  else if d.ldg.replay then fxOutcome (modCal d fun c => { c with outcomes := [(d.time.turn, recordedOutcome d p)] })
  else fxOutcome d
/-- An ACTIVATE entry; the model's payload: 1 an image, 2 a configuration (R342, R531). Log entry 56 DESIGN CHOICE. -/
def fxActivateEntry (fz : Fuses) (d : Dev) (p : Bytes) : Dev := if fld p 0 8 = 2 then fxCommit fz d else fxImageActivate d

/-! ### S2: frames -/

/-- The corrected timestamp of a frame (R442, R443). -/
def frameTime (s : StreamRec) (f : Bytes) : Int := (fld f 8 8 : Nat) + s.offs
/-- What an accepted frame does to its stream's record when its entry takes effect: a package that takes its ledgers from elsewhere has
not counted the frame at ingress (R87, R489); the timeout ends (R128). -/
def streamFrame (d : Dev) (n : Nat) (s : StreamRec) (e : Entry) : Dev :=
  let d := if !(follows d || d.ldg.replay) then d else modStream d n fun s =>
    let gap := (s.lastCtr.map fun l => decide ((e.ctr + 2 ^ 32 - l) % 2 ^ 32 > 5)).getD false
    { s with lastCtr := some e.ctr, lastArr := e.ts, accepted := satInc s.accepted 1, timeoutSince := false, gapCnt := if gap then satInc s.gapCnt 1 else s.gapCnt }
  let d := if s.timedOut then modStream (clearLive d 0x084 0 0xF0 n) n fun s => { s with timedOut := false, resumeTurn := d.time.turn } else d
  timeSample d n e.ts (frameTime s e.payload)
/-- A FIELD_OBS entry: the frame waits for the next predictor pass (R214), and its markers pair with the states before it in S2 order (R437). -/
def fxObs (d : Dev) (n : Nat) (e : Entry) : Dev :=
  match tget d.world.streams n with
  | none => d
  | some s =>
    let d := streamFrame d n s e
    let d := if s.kind = 1 then kinMarkers d s.target e.payload (frameTime s e.payload) else d
    { d with world := { d.world with frames := tput d.world.frames s.target (tgetD d.world.frames s.target [] ++ [e.payload]) } }
/-- An AGENT_STATE entry (R151, R152). -/
def fxState (d : Dev) (n : Nat) (e : Entry) : Dev :=
  match tget d.world.streams n with
  | none => d
  | some s =>
    let d := streamFrame d n s e
    match d.world.agents.find? (fun a => a.2.bind.stream == n) with
    | none => d
    | some (ag, a) =>
      let snap : AgentSnap := { raw := slice e.payload 24 (fld e.payload 16 2), ts := (frameTime s e.payload).toNat, turn := d.time.turn }
      let d := clearLive d 0x085 0 0xF0 ag
      modAgent d ag fun x => { x with snap := some snap, lastTurn := d.time.turn, state := if a.state = 3 then 3 else 1, marked := false }
/-! ### Runs of chunks (R60, R61) -/

/-- What the entries of a run share: source and frame counter. -/
def runKey (source ctr : Nat) : Nat := source * 2 ^ 32 + ctr
/-- An entry is part of a run. -/
def inRun (e : Entry) : Bool := e.source / 8192 == 1 && !e.internal && (e.kind == 8 || e.more)
/-- Runs that cut marks of a ledger drop. Log entry 82 DEDUCED. -/
def cutKeys (es : List Entry) : List Nat :=
  (es.filter fun e => e.source == srcUnit 1 && e.kind == 7).map fun e => runKey (fld e.payload 0 2) (fld e.payload 4 4)
/-- The runs with the parts that a ledger adds: the command's own entry, then its chunks in ledger order. -/
def gatherRuns (d : Dev) (es : List Entry) : Tab (List Entry) :=
  let cuts := cutKeys es
  let parts := (es.filter fun e => inRun e && e.kind != 8) ++ es.filter fun e => inRun e && e.kind == 8
  parts.foldl (fun t e => let k := runKey e.source e.ctr
    if cuts.contains k then t else tput t k (tgetD t k [] ++ [e])) (tfilter (fun k _ => !cuts.contains k) d.ldg.runs)
/-- One entry at ledger index `i` (R54, R63). -/
def fxEntry (fz : Fuses) (d : Dev) (e : Entry) (i : Nat) : Dev :=
  let d := modLdg d fun l => { l with pos := i }
  if inRun e then
    let k := runKey e.source e.ctr
    match tget d.ldg.runs k with
    | none => d
    | some es => if e.more then d else fxEntryCmd fz (modLdg d fun l => { l with runs := tdel l.runs k }) es
  else match e.source / 8192, e.kind with
  | 3, 0x10 => fxTimeout d (fld e.payload 0 2 % 128)
  | 3, 0x11 => tileEntry fz d e.payload
  | 3, 0x12 => fxActivateEntry fz d e.payload
  | 3, 6 => fxCalEntry d e.payload
  | 3, _ => if e.source = srcUnit 4 then fxTlRecord d e.payload else d
  | 2, _ => fxMirrorEntry d e
  | _, 1 => fxObs d (e.source % 128) e
  | _, 2 => fxState d (e.source % 128) e
  | _, _ => fxEntryCmd fz d [e]
/-- Every entry of a ledger in its order; what a package changes in its tile map without an entry follows S1
(log entry 42). -/
def fxEntries (fz : Fuses) (d : Dev) (es : List Entry) : Dev :=
  let d := modLdg d fun l => { l with runs := gatherRuns d es }
  let xs := es.zipIdx
  let run := fun (d : Dev) (p : Nat → Bool) => (xs.filter fun x => p (secOf x.1)).foldl (fun d x => fxEntry fz d x.1 x.2) d
  let d := run d (· == 1)
  let d := match d.pkg.due with
    | some m => setTiles d m (d.pkg.gen + 1)
    | none => d
  let d := run d (· == 2)
  run d fun s => decide (3 ≤ s)

end Sys2Proof.Machine
end

