-- ==== Sys2Proof/Machine/Turn.lean ====
section
/-! DEFINITION. Turn boundaries (R32, R45 to R53, R113 to R121, R148, R152, R153, R236, R238, R364, R382, R387, R389, R475 to R477, R488 to R490, R492):
what ends a turn and what starts the next one. -/
namespace Sys2Proof.Machine

/-! ### The ladders (R152, R153, R234 to R238, R405) -/

/-- The agent's state record of its latest snapshot says that it is at rest. -/
def snapRest (a : AgentRec) : Bool := (a.snap.map fun s => bitAt (fld s.raw 1 1) 0).getD false
/-- Its controller has stopped it. -/
def snapStopped (a : AgentRec) : Bool := (a.snap.map fun s => bitAt (fld s.raw 1 1) 1).getD false
/-- What an agent's ladder gives in this turn: the stop of the first rung that passes, with what its verification read (R234 to R236). Log entry 69 DEDUCED. -/
def ladderStop (d : Dev) (n : Nat) (a : AgentRec) : RungOut :=
  match a.snap, tget d.world.maps a.bind.homeMap, (tget d.world.models a.bind.model).bind curModel with
  | some sn, some m, some mod =>
    match curVer m with
    | none => {}
    | some v =>
      let e : CheckEnv := { maps := d.world.maps, content := imgContent (actImg d), sliceMs := m.sliceMs, excl := some n, reach := 0,
                            entries := [(a.bind.homeMap, 5, m.k, v.ver)] }
      let ts := turnStart d (d.time.turn + 1) + 1000000
      let p := advance mod.raw sn.raw ((ts : Int) - (sn.ts : Int))
      let r := firstRung e mod.raw a.bind p.1 p.2 ts false true (List.range a.bind.rungs)
      { r with stop := r.stop.map fun s => { s with mapVer := v.ver, modelVer := mod.ver, turn := d.time.turn } }
  | _, _, _ => {}
/-- Every rung has failed: the agent is STOP_UNSAFE (R238). Log entry 58 DEDUCED. -/
def makeUnsafe (d : Dev) (n : Nat) (a : AgentRec) : Dev :=
  let d := modAgent d n fun x => { x with state := 3, stopDue := none, fresh := false }
  if a.state = 3 then d else
  let d := frnCnt (assertLive d 0x086 0 0xF0 n) (tileDie d a.tile) 0x1C 1
  stopNotice (silence d n 2) n false true false
/-- A rung has passed: its stop is committed (R236). -/
def commitStop (d : Dev) (n : Nat) (a : AgentRec) (s : StopRec) : Dev :=
  let falls := b2n (decide (s.rung > a.rung))
  modAgent d n fun x => { x with stop := some s, rung := s.rung, fresh := false, rungFalls := satInc x.rungFalls falls }
/-- The verification of one agent in the berm of this turn (R236, R502: none on a die that is fenced). -/
def verifyAgent (d : Dev) (n : Nat) : Dev :=
  match tget d.world.agents n with
  | none => d
  | some a =>
    if a.state = 0 || a.leaving || !dieLive d (tileDie d a.tile) then d else
    let r := ladderStop d n a
    let d := raiseN r.faults (tileWork d a.tile r.work) 0x030 (tileDie d a.tile) n
    match r.stop with
    | none => makeUnsafe d n a
    | some s => if a.fresh && a.cur.isNone && !snapRest a then makeUnsafe d n a else commitStop d n a s
/-- Every agent's ladder, in ascending number. -/
def verifyLadders (d : Dev) : Dev := (d.world.agents.map (·.1)).foldl verifyAgent d
/-- A STOP_UNSAFE agent whose rung passed in this turn while its robot stood returns at the turn's end (R152, R238). -/
def unsafeExit (d : Dev) (n : Nat) : Dev :=
  match tget d.world.agents n with
  | none => d
  | some a =>
    let passed := (a.stop.map fun s => s.turn == d.time.turn).getD false
    if a.state ≠ 3 || !passed || !(snapRest a || snapStopped a) then d else
    modAgent (clearLive d 0x086 0 0xF0 n) n fun x =>
      { x with state := if a.marked then 2 else 1, marked := false, staleCnt := if a.marked then satInc x.staleCnt 1 else x.staleCnt }

/-! ### Objects at a turn end -/

/-- A footprint change of an agent joins a map's formation (R107, R148). -/
def footEvent (d : Dev) (map agent : Nat) (f : Option Foot) : Dev := modMap d map fun m => { m with events := m.events ++ [(4, .foot agent f)] }
/-- What an agent's unbinding or its new binding does to footprints: they leave the old home map and enter the new one (R147, R148). -/
def agentFoots (d : Dev) (n : Nat) : Dev :=
  match tget d.world.agents n with
  | none => d
  | some a =>
    let had := ((tget d.world.maps a.bind.homeMap).map fun m => ((curVer m).map fun v => thas v.foots n).getD false ||
      m.events.any (fun e => match e.2 with | .foot ag (some _) => ag == n | _ => false) ||
      m.pend.any fun p => p.changes.any (fun e => match e.2 with | .foot ag (some _) => ag == n | _ => false)).getD false
    if a.leaving then (if had then footEvent d a.bind.homeMap n none else d)
    else match a.next with
    | none => d
    | some b =>
      if b.homeMap = a.bind.homeMap then d else
      let d := if had then footEvent d a.bind.homeMap n none else d
      match a.cur, tget d.world.maps b.homeMap with
      | some mo, some m => footEvent d b.homeMap n (some (motionFoot m mo (turnStart d (d.time.turn + 1))))
      | _, _ => d
/-- A tile that has left the predictor region of its map loses its history (R213). -/
def trimHist (d : Dev) : Dev :=
  { d with world := { d.world with maps := tmap (fun h (m : MapRec) =>
      if m.hist.isEmpty then m else
      let region := predRegion m ((feeding d h).map fun s => (s.2.coverMin, s.2.coverMax))
      { m with hist := tfilter (fun t _ => region.contains t) m.hist }) d.world.maps } }
/-- Objects whose removal was accepted in this turn, streams that have closed and agents that leave are gone (R119, R123, R148, R368). -/
def removeObjects (d : Dev) : Dev :=
  let w := d.world
  let shut := w.streams.filter fun s => (s.2.closeTurn.map fun c => decide (c ≤ d.time.turn)).getD false
  let left := w.agents.filter fun a => a.2.leaving
  let gone := w.maps.filter fun m => m.2.removed
  let d := shut.foldl (fun d s => clearLive d 0x084 0 0xF0 s.1) d
  let d := left.foldl (fun d a => clearLive (clearLive d 0x085 0 0xF0 a.1) 0x086 0 0xF0 a.1) d
  let d := gone.foldl (fun d m => clearLive d 0x066 0 0xF0 m.1) d
  let d := { d with world := { d.world with
      streams := tfilter (fun k _ => !shut.any fun s => s.1 == k) d.world.streams,
      agents := tfilter (fun _ a => !a.leaving) d.world.agents,
      maps := tfilter (fun _ m => !m.removed) d.world.maps,
      frames := tfilter (fun k _ => !gone.any fun m => m.1 == k) d.world.frames,
      models := tfilter (fun _ m => !m.removed) d.world.models,
      sets := tfilter (fun _ s => !s.removed) d.world.sets } }
  if shut.isEmpty then d else trimHist d
/-- What the start of the next turn brings: grants, stream offsets, bindings with their charges, polder values (R118, R147, R382, R385, R442). -/
def nextValues (d : Dev) : Dev :=
  let d := { d with world := { d.world with
      maps := tmap (fun _ m => { m with grants := m.grantNext }) d.world.maps,
      streams := tmap (fun _ s => { s with offs := s.offsNext.getD s.offs, offsNext := none }) d.world.streams,
      agents := tmap (fun _ a => { a with bind := a.next.getD a.bind, next := none, charge := a.chargeNext }) d.world.agents } }
  (List.range 17).foldl polderNext d

/-! ### The end of a turn -/

/-- The queries of a list that end at their deadline turn, and the plans that thereby get ready: a plan that goes on from its nodes so far takes its closing
stop and its footprint before the release phase, so that its result leaves in its deadline turn (R69, R232). Log entry 35 DEDUCED. -/
def lateEnds (d : Dev) (ids : List Nat) : Dev :=
  let late := ids.filter fun id => ((tget d.q.recs id).map fun q => decide (deadlineTurn d q.cmd ≤ d.time.turn)).getD false
  let d := late.foldl fxDeadline d
  let cut := late.filter fun id => ((tget d.q.recs id).map fun q => q.timeLimited).getD false
  cut.foldl fxCover (cut.foldl fxStageFinish (cut.foldl fxClosingStop d))
/-- Work whose end needs no event of its own: searches and class-0 work whose budget has ended, deadlines, the release phase, passes and estimates
(R68, R69, R215, R240, R437). Log entry 38 DESIGN CHOICE. -/
def endWork (d : Dev) : Dev :=
  let ids := fun (d : Dev) (p : QueryRec → Bool) => ((liveQueries d).filter fun q => p q.2).map (·.1)
  let d := (ids d fun q => q.stage == .search || (q.stage == .compute && q.cmd.cls == 0)).foldl fxBudgetEnd d
  let d := fxRelease (lateEnds d (ids d fun _ => true))
  let d := (d.world.maps.map (·.1)).foldl fxPassEnd d
  (d.cal.est.map (·.1)).foldl fxSpanExpiry d
/-- What changes and what the versions of the turn end take in; sets form before models, so that the build version of a set that forms in this turn stays
live (R134, R141). Log entry 38 DESIGN CHOICE. -/
def endWorld (d : Dev) : Dev :=
  let d := (d.world.agents.map (·.1)).foldl unsafeExit d
  let d := (d.world.agents.map (·.1)).foldl agentFoots d
  let d := (List.range 17).foldl polderEnd d
  let d := (d.world.sets.map (·.1)).foldl formSet d
  let d := (d.world.models.map (·.1)).foldl formModel d
  let d := (d.world.maps.map (·.1)).foldl formMap d
  nextValues (removeObjects d)
/-- A query that has ended is kept for its tag until its reply has been written (R363). Log entry 36 DEDUCED. -/
def keepQuery (d : Dev) (q : QueryRec) : Bool :=
  q.stage != .ended || decide (d.time.turn ≤ q.endTurn) ||
  (match q.cmd.origin with
    | .host p n => (pairOf d p n).waiting.any fun r => r.tag == q.cmd.tag
    | _ => false) ||
  d.host.egress.any fun f => (f.rep.map fun r => r.1 == q.cmd).getD false
/-- A lead that a twin is joining forwards what has formed at the turn's end, until the join turn (R500 item 3). Log entry 24 DEDUCED. -/
def sendVersions (d : Dev) : Dev :=
  if d.twin.role = .solo && d.twin.snapTurn.isNone && (d.twin.attach = 2 || (d.twin.attach = 4 && decide (d.time.turn < d.twin.attachTurn))) then
    twinSend d (.versions d.time.turn { maps := d.world.maps, models := d.world.models, sets := d.world.sets })
  else d
/-- What the package says at the end of a turn: answers, digests, notices, heartbeats; what ends with it outside the world (R364, R375, R475, R487, R492,
R500, R516, R525). -/
def endTalk (fz : Fuses) (d : Dev) : Dev :=
  let k := d.time.turn
  let d := answerAll d
  let d := stallAll d
  let d := if (d.twin.role = .lead || d.twin.role = .follow) && d.twin.shadowFrom.isNone && !d.ldg.replay then twinSend d (.digests k (digestList d k)) else d
  let d := answerWitness (joinTurnEnd (detachEnd d))
  let d := if d.twin.tailNext.isSome then d else fxHbSend fz (fxHeartbeat d k)
  let d := sendVersions d
  { d with q := { d.q with recs := tfilter (fun _ q => keepQuery d q) d.q.recs } }
/-- The end of the turn that executes. -/
def endTurn (fz : Fuses) (d : Dev) : Dev := prepareEnd (endTalk fz (endWorld (endWork d)))

/-! ### The start of a turn -/

/-- The dies at the boundary: overruns are counted once, lathes take their plans, banks their owners, block resets act (R309, R328, R329, R333, R454). -/
def startDies (fz : Fuses) (d : Dev) : Dev :=
  let ovr := (liveDies d).any (overruns d)
  let d := takeOwners fz ((liveDies d).foldl latheTurn d)
  let d := if ovr then cnt d 0x60002C else d
  d.wdn.resets.foldl (fun d r => fxBlockReset d r.1 r.2) d
/-- Turn `l.turn` starts with its ledger. Log entry 38 DESIGN CHOICE. -/
def startTurn (fz : Fuses) (d : Dev) (l : Ledger) : Dev :=
  let n := l.turn
  let d := modTime (atTime d (turnStart d n)) fun t => { t with turn := n, started := true }
  let d := modLdg { d with pin := { d.pin with firstTurn := true } } fun x =>
    { x with current := some l, ready := none, pos := 0, opened := tfilter (fun t _ => decide (n < t)) x.opened }
  let d := snapAt (compareTurn (fxSafeExit (startDies fz (stallAll d))) (n - 1))
  let d := fxJoinTurn (sendSnap d)
  let d := fxEntries fz d l.entries
  let d := activationPass (startReplans d)
  let d := (d.world.maps.map (·.1)).foldl fxPassStart (startSetBuilds d)
  verifyLadders d

/-! ### The ledger of the coming turn (R488 to R490) -/

/-- The lead's ledger of turn `n`, once its seal has been accepted. Log entry 59 DEDUCED. -/
def tailLedger (d : Dev) (n digest : Nat) : Dev × Ledger :=
  let es := orderEntries (tgetD d.twin.tail n [])
  let gap := ledgerDigest d n true false d.ldg.digest es == digest
  let l := { makeLedger d n es with gap := gap, digest := digest }
  (takeSeal (modTwin d fun x => { x with tail := tdel x.tail n, seals := tfilter (fun t _ => decide (n ≤ t)) x.seals }) l, l)
/-- The shadow of turn `n`, from the package's own field ingress (R489, R490). Log entry 59 DEDUCED. -/
def shadowLedger (d : Dev) (n : Nat) : Dev × Ledger :=
  let l := makeLedger d n (orderEntries ((openLedger d n).filter fun e => secOf e == 2))
  let d := takeSeal d l
  if d.twin.role ≠ .follow then (d, l) else
  let d := raise (cnt d 0x30002C) 0x054 0 0xD8 0
  let from_ := d.twin.shadowFrom.getD n
  let d := modTwin d fun x => { x with shadowFrom := some from_ }
  if from_ + 2 ≤ n then (detachRole (modTwin (twinSend d .leave) fun x => { x with shadowFrom := none }), l) else (d, l)
/-- The ledger of turn `n`; TWN_STAT shows whether a follow executes its shadow (R506). Log entry 59 DEDUCED. -/
def ledgerFor (d : Dev) (n : Nat) : Dev × Ledger :=
  let plain := modTwin d fun x => { x with shadow := false }
  match d.ldg.ready with
  | some l => (plain, l)
  | none => match tget d.twin.seals n with
    | some g => tailLedger plain n g
    | none => shadowLedger (modTwin d fun x => { x with shadow := x.role == .follow }) n

/-! ### The tail of an attach (R500) -/

/-- The snapshot takes the place of the joiner's own state; the next ledger is that of its turn (R500 item 2). Log entry 24 DEDUCED. -/
def takeAttach (d : Dev) (x : Snap) : Dev :=
  if d.twin.role ≠ .attaching || d.twin.attach ≠ 2 then d else
  let d := { d with world := x.world, q := x.q, pld := x.pld, host := { d.host with egress := [] }, pkg := { d.pkg with gen := x.tileGen },
                    time := { d.time with started := false },
                    ldg := { d.ldg with digest := x.digest, current := none, ready := none, opened := [], runs := [], cuts := [], asks := [] } }
  modTwin d fun t => { t with attach := 3, tailNext := some x.turn, versions := [] }
/-- The turn of the tail that runs ends, with the versions that the lead formed at its end; from the join turn on the joiner forms its own (R500 items 3, 4). -/
def tailEnd (fz : Fuses) (d : Dev) (j : Nat) : Option Dev :=
  let v := tget d.twin.versions j
  if v.isNone && d.twin.attach ≤ 4 then none else
  let d := endTurn fz (modTime d fun t => { t with turn := j })
  let d := { d with ldg := { d.ldg with current := none } }
  some (match v with
    | none => d
    | some v => modTwin { d with world := { d.world with maps := v.maps, models := v.models, sets := v.sets } } fun x => { x with versions := tdel x.versions j })
/-- The next ledger of the tail, when its seal has come and the chain of digests agrees with it, starts its turn (R488, R500 item 3). -/
def tailStart (fz : Fuses) (d : Dev) (j : Nat) : Option Dev :=
  match tget d.twin.seals j with
  | none => none
  | some g =>
    let own := fun gap => ledgerDigest d j gap false d.ldg.digest (orderEntries (tgetD d.twin.tail j []))
    if g ≠ own false && g ≠ own true then none else
    let r := tailLedger d j g
    some (startTurn fz (modTwin r.1 fun x => { x with tailNext := some (j + 1) }) r.2)
/-- The tail applied as far as the turn that runs, on fuel. -/
def tailLoop (fz : Fuses) (n : Nat) : Nat → Dev → Dev
  | 0, d => d
  | fuel + 1, d =>
    match d.twin.tailNext, d.ldg.current with
    | some j, none => if n < j then d else ((tailStart fz d j).map (tailLoop fz n fuel)).getD d
    | some _, some l => if n ≤ l.turn then d else ((tailEnd fz d l.turn).map (tailLoop fz n fuel)).getD d
    | none, _ => d
/-- The joiner applies what it has of the tail; level with the lead, it says so, and from the join turn on it takes its ledgers as a follow does (R500 items 3
and 4). Log entry 24 DEDUCED. -/
def applyTail (fz : Fuses) (d : Dev) : Dev :=
  match d.twin.tailNext with
  | none => d
  | some j =>
    let n := d.time.turn
    let d := modTime (tailLoop fz n (2 * (n + 2 - j)) d) fun t => { t with turn := n }
    let d := modTime d fun t => { t with started := d.ldg.current.isSome }
    if lags d then d
    else if d.twin.attach ≥ 5 then modTwin d fun x => { x with tailNext := none }
    else if d.twin.attach = 3 && !d.twin.caught then twinSend (modTwin d fun x => { x with caught := true }) .caughtUp else d
/-- The turn number goes on and nothing else (R477). -/
def toTurn (d : Dev) (n : Nat) : Dev := modTime (atTime d (turnStart d n)) fun t => { t with turn := n }
/-- TURN_BOUNDARY: the turn ends and the next one starts; in a latched safe state the lathes stop and only turn numbers and heartbeats go on (R477). Log entry 38 DESIGN CHOICE. -/
def fxBoundary (fz : Fuses) (d : Dev) : Dev :=
  let n := d.time.turn + 1
  if !d.time.running || d.pin.trip || d.ldg.replay || d.time.sealedTo < n then d else
  let d := atTime d (turnStart d n)
  if d.wdn.safe.stopped then toTurn (fxHeartbeat d d.time.turn) n else
  if d.twin.tailNext.isSome then applyTail fz (toTurn (fxHbSend fz (fxHeartbeat d d.time.turn)) n) else
  let d := if d.time.started then endTurn fz d else d
  if d.ldg.replay then d
  else if d.wdn.safe.on && d.wdn.safe.latched then toTurn (modWdn d fun w => { w with safe := { w.safe with stopped := true } }) n
  else let r := ledgerFor d n; startTurn fz r.1 r.2

/-- TURN_BOUNDARY. -/
def execTurnBoundary (s : State) : Host.Outcome State Fault Refusal := onFz s fxBoundary

/-! ### Replay (R87, R374) -/

/-- The answer of a REPLAY_RUN ends it. -/
def replayEnd (d : Dev) (c : Cmd) (st det : Nat) : Dev := modLdg (outside d c st det) fun l => { l with replayRun := none }
/-- The next ledger of a run is checked and its turn starts; the run stops before one that fails (R87), and before one with gap_before set that is not the
first after its snapshot (R86). A recorded m above the package's is reported (R87). Log entries 54 DEDUCED, 98 DEDUCED. -/
def replayNext (fz : Fuses) (d : Dev) (c : Cmd) (n : Nat) : List (Ledger × Nat) → Dev
  | [] => replayEnd d c 0 (d.ldg.replayDone % 2 ^ 31 + 2 ^ 31 * b2n d.ldg.replayDiff)
  | (l, own) :: rest =>
    if l.turn ≠ n || (l.gap && d.ldg.current.isSome) || own ≠ l.digest || !blocksGood l then replayEnd d c stBadCheck d.ldg.replayDone
    else
      let d := if l.cores > mapCores d.pkg.map then modLdg d fun x => { x with replayDiff := true } else d
      let d := recordLedger d l true
      startTurn fz (modLdg d fun x => { x with prepared := none, replayRun := some (c, rest), replayDone := x.replayDone + 1, digest := l.digest }) l
/-- REPLAY_TURN: the virtual turn in progress ends, and the next one starts while ledgers are left. Log entry 54 DEDUCED. -/
def fxReplayTurn (fz : Fuses) (d : Dev) : Dev :=
  if !d.ldg.replay then d else
  let d := if d.ldg.prepared.isSome then d else modLdg (endTurn fz d) fun l => { l with prepared := some (d.time.turn + 1) }
  match d.ldg.replayRun, d.ldg.prepared with
  | some (c, ls), some n => replayNext fz d c n ls
  | _, _ => d

/-- REPLAY_TURN. -/
def execReplayTurn (s : State) : Host.Outcome State Fault Refusal := onFz s fxReplayTurn

end Sys2Proof.Machine
end

