-- ==== Sys2Proof/Machine/Fetch.lean ====
section
/-! DEFINITION. COMMAND_FETCH (R59, R60, R353, R360, R362, R367): a packet is fetched from a submission queue, checked, and placed in a ledger. -/
namespace Sys2Proof.Machine

/-- The pair may fetch: fetching is on, the package takes host commands in its role, and a packet or a further chunk waits (R60, R353, R357, R488). Log entry 59 DEDUCED. -/
def mayFetch (d : Dev) (p q : Nat) : Bool :=
  let x := pairOf d p q
  bitAt (rget d 0x700000) 0 && d.pin.ready && !(d.pkg.twin && (d.twin.role == .follow || d.twin.role == .attaching)) &&
  (x.chunk.isSome || (x.enabled && x.sqHead != x.sqTail))
/-- A packet is taken from its queue. -/
def takePacket (d : Dev) (p q : Nat) : Dev :=
  cnt (modPair d p q fun x => { x with sqHead := (x.sqHead + 1) % sqSize d p q, outstanding := x.outstanding + 1, fetchCtr := (x.fetchCtr + 1) % 2 ^ 32 }) 0x70000C
/-- Bytes of a block that an entry with `head` bytes before it holds; none where the fetch is deferred (R60). Log entry 60 DEDUCED. -/
def chunkSize (fz : Fuses) (d : Dev) (turn head left : Nat) : Option Nat :=
  let room := (hostOpen fz d turn - 32 - head) / 64 * 64
  if hostOpen fz d turn < 32 + head || (room < 64 && left > room) then none else some (min (65536 - head) (min left room))
/-- A fetch that finds no room in the host share is abandoned (R59). -/
def deferFetch (d : Dev) : Dev := cnt d 0x500024
/-- The next chunk of the command in progress (R60). Log entry 60 DEDUCED. -/
def fetchChunk (fz : Fuses) (d : Dev) (p q turn : Nat) (t : Nat) (first : Entry) (left : Bytes) : Dev :=
  match chunkSize fz d turn 0 left.length with
  | none => deferFetch d
  | some n =>
    let rest := left.drop n
    let e : Entry := { first with kind := 8, more := !rest.isEmpty, ts := stamp t, cls := 0, payload := left.take n }
    placeEntry (modPair d p q fun x => { x with chunk := if rest.isEmpty then none else some (first, rest) }) turn e
/-- An accepted command takes its place in a ledger: whole, or, where packet and block pass 65,536 bytes, as the first entry of a run (R59, R60, R62 to R64).
Log entry 60 DEDUCED. -/
def placeCommand (fz : Fuses) (d d0 : Dev) (p q turn t : Nat) (c : Cmd) (packet block : Bytes) : Dev :=
  let body := if isIndirect packet then fit (blockLen packet) block else []
  let e : Entry := { (default : Entry) with kind := kindOf c.op, source := srcHost p q, ctr := ((pairOf d p q).fetchCtr + 1) % 2 ^ 32, ts := stamp t, polder := p,
                                            cls := if isQuery c.op then c.cls else 0, payload := packet }
  if isQuery c.op && c.cls = 0 then placeEntry (takePacket d p q) turn { e with payload := packet ++ body }
  else if packet.length + body.length ≤ 65536 then
    (if entryBytes { e with payload := packet ++ body } ≤ hostOpen fz d turn then placeEntry (takePacket d p q) turn { e with payload := packet ++ body }
     else deferFetch d0)
  else match chunkSize fz d turn 64 body.length with
  | none => deferFetch d0
  | some n =>
    let rest := body.drop n
    let e := { e with more := !rest.isEmpty, payload := packet ++ body.take n }
    placeEntry (modPair (takePacket d p q) p q fun x => { x with chunk := if rest.isEmpty then none else some (e, rest) }) turn e
/-- A command accepted during replay is executed at once, outside any ledger (R367). Log entry 54 DEDUCED. -/
def runOutside (m : Mem) (d : Dev) (c : Cmd) : Dev :=
  match c.op with
  | 0 => outside d c 0 0
  | 1 => fxQueryStatus d c
  | _ => fxLedgerCtl m d c
/-- The command of a packet at the front of a queue, with the running count that it takes (R62). -/
def fetched (d : Dev) (p q : Nat) (packet block : Bytes) : Cmd :=
  { cmdOf (.host p q) p packet (blockOf packet block) with seq := ((pairOf d p q).fetchCtr + 1) % 2 ^ 32 }
/-- COMMAND_FETCH: `block` are the bytes at the packet's block address. Log entry 37 DESIGN CHOICE. -/
def fxFetch (fz : Fuses) (m : Mem) (d : Dev) (p q t : Nat) (packet block : Bytes) : Dev :=
  if !mayFetch d p q then d else
  let d := atTime d t
  let turn := entryTurn d t
  match (pairOf d p q).chunk with
  | some (first, left) => fetchChunk fz d p q turn t first left
  | none =>
    let c := fetched d p q packet block
    match fetchCheck d turn t c packet (some (ringSize d p q)) with
    | (some (st, det, _), d) => stallNow (reply (cnt (takePacket d p q) 0x700010) c st det none 0 0 0 0) p q
    | (none, d') => if d.ldg.replay then runOutside m (takePacket d' p q) c else placeCommand fz d' d p q turn t c packet block

/-- COMMAND_FETCH. -/
def execCommandFetch (p q t : Nat) (packet block : Bytes) (s : State) : Host.Outcome State Fault Refusal :=
  onMem s fun fz m d => (m, fxFetch fz m d p q t packet block)

end Sys2Proof.Machine
end

