-- ==== Sys2Proof/Machine/Access.lean ====
section
/-! DEFINITION. Reads and writes of registers (R8 to R12, R344, R349, R568 to R571): what a computed register shows, what a read or a write of each
register does, and who may reach it. -/
namespace Sys2Proof.Machine

/-! ### What computed registers show -/

/-- A 64-bit value's half. -/
def half32 (hi : Bool) (v : Nat) : Nat := if hi then v / 2 ^ 32 % 2 ^ 32 else v % 2 ^ 32
/-- PKG_CORE_LIVE and the rest of the PKG and MON registers that are not stored (R44, R567). Log entries 18 DEDUCED, 80 DEDUCED, 81 DEDUCED. -/
def viewPkg (fz : Fuses) (d : Dev) (o : Nat) : Option Nat :=
  let n := popDies fz
  if o = 0x0 then some (pkgId fz)
  else if o = 0x4 then some (n * 16 + b2n d.pkg.twin)
  else if o = 0x8 then some (2 ^ n - 1)
  else if o = 0xC then some d.pkg.live
  else if o = 0x14 then some d.pin.linkUp
  else if 0x20 ≤ o ∧ o < 0x40 then some (if (o - 0x20) / 4 < n then tgetD fz.coreFused ((o - 0x20) / 4) 0 else 0)
  else if 0x40 ≤ o ∧ o < 0x60 then some (if (o - 0x40) / 4 < n then tgetD d.pkg.svc ((o - 0x40) / 4) 0 else 0)
  else if 0x60 ≤ o ∧ o < 0x80 then some (if d.pin.ready && decide ((o - 0x60) / 4 < n) then coreMask fz d ((o - 0x60) / 4) else 0)
  else if o = 0x80 then some d.pkg.gen
  else if o = 0x84 then some d.pkg.m
  else if 0x100 ≤ o ∧ o < 0x300 then some (d.pkg.map.getD ((o - 0x100) / 4) 0)
  else if o = 0x1004 then
    some (setBits (setBits (rget d 0x1004) 2 2 (b2n d.mon.lockout)) 1 0 (b2n d.mon.unlocked + 2 * b2n (decide (d.pin.stage < 4) || decide (d.pin.stage ≥ 0x80))))
  else none
/-- SLC and BRM registers (R408, R409). Log entry 18 DEDUCED. -/
def viewSlc (d : Dev) (o : Nat) : Option Nat :=
  if o = 0x100000 then some (placesHeld d)
  else if o = 0x100004 then some d.q.rr
  else if 0x100010 ≤ o ∧ o < 0x100030 then
    let die := (o - 0x100010) / 4
    let c0 := (d.q.recs.filter fun q => q.2.cmd.cls == 0 && q.2.die == die && q.2.actTurn == d.time.turn && q.2.actTurn != 0).length
    some (slotsHeld d die + 65536 * c0)
  else if o = 0x100804 then some (bermLen d)
  else if o = 0x10080C then some (bermFree d)
  else if o = 0x10081C then some (if derated d then 256 * (if d.pkg.m = 0 then 0xff else tilesPerCore d) + 1 else 0)
  else none
/-- The record that WDN_REC_SEL selects. -/
def selRec (d : Dev) : WRec := tgetD d.wdn.recs (bits (rget d 0x200040) 8 0) default
/-- WDN_INST_STAT (R483). -/
def instStat (d : Dev) : Nat :=
  let v := rget d 0x200060
  let s := bits v 8 0
  let k := s * 128 + (match bits (cfg0 d s) 15 14 with
    | 0 => 0
    | 1 => bits v 11 9 * 16
    | _ => bits v 11 9 * 16 + bits v 15 12)
  let i := tgetD d.wdn.inst k default
  let rec_ := (i.recov.filter fun x => decide (d.time.now / 60000000000 < x / 60000000000 + 60)).length
  i.state + 256 * min 255 (inWindow d s i.times) + 65536 * min 63 rec_
/-- 32 bits, one for each source from `32 i`. -/
def srcBits (i : Nat) (f : Nat → Bool) : Nat := total ((List.range 32).map fun j => b2n (f (32 * i + j)) * 2 ^ j)
/-- WDN registers (R483). Log entry 18 DEDUCED. -/
def viewWdn (d : Dev) (o : Nat) : Option Nat :=
  let r := selRec d
  if o = 0x200004 then
    some (b2n d.wdn.safe.on + 2 * b2n d.wdn.safe.latched + 4 * b2n (!faultN d) + 8 * bits (rget d 0x200000) 0 0 + 65536 * (d.wdn.recs.filter fun x => x.2.isOpen).length)
  else if 0x200044 ≤ o ∧ o < 0x200054 then some (fld (msgBytes r.msg) (o - 0x200044) 4)
  else if o = 0x200054 then
    some (b2n r.isOpen + 2 * b2n r.merged + 4 * b2n r.cleared + 8 * b2n r.severe + 16 * b2n r.latched + 32 * b2n r.live + 65536 * min 0xffff r.merges)
  else if o = 0x200058 ∨ o = 0x20005C then some (half32 (decide (o = 0x20005C)) r.lastTs)
  else if o = 0x200064 then some (instStat d)
  else if 0x200100 ≤ o ∧ o < 0x200140 then some (srcBits ((o - 0x200100) / 4) fun s => d.wdn.inst.any fun i => i.1 / 128 == s && i.2.live)
  else if 0x200140 ≤ o ∧ o < 0x200180 then some (srcBits ((o - 0x200140) / 4) fun s => (tgetD d.wdn.recs s default).isOpen)
  else none
/-- TWN registers (R506). Log entry 18 DEDUCED. -/
def viewTwn (fz : Fuses) (d : Dev) (o : Nat) : Option Nat :=
  if o = 0x300008 then
    some (twnRole d.twin.role + 16 * b2n d.twin.linkUp + 32 * b2n d.twin.downIn + 64 * b2n (!twinDownOut d) + 128 * b2n d.twin.shadow)
  else if o = 0x30000C then some d.twin.gen
  else if o = 0x300010 ∨ o = 0x300014 then some (if d.twin.role = .attaching then half32 (decide (o = 0x300014)) d.twin.attachTurn else 0)
  else if o = 0x300018 then some (match d.twin.witGen with
    | none => 0
    | some (g, prev) => 2 ^ 31 + prev * 65536 + g)
  else if 0x300040 ≤ o ∧ o < 0x300060 then
    let x := (o - 0x300040) / 4
    some (if x < popDies fz then tgetD d.twin.dieState x 0 + 256 * tgetD d.twin.dieGen x 0 + 65536 * tgetD d.twin.coresFail x 0 else 7)
  else none
/-- The code of FAB_STAT.state. -/
def fabCode : FState → Nat
  | .unjoined => 0
  | .seeking => 1
  | .assigned => 2
  | .conflict => 3
/-- FAB and FLD registers (R533, R558). Log entry 18 DEDUCED. -/
def viewFab (fz : Fuses) (d : Dev) (o : Nat) : Option Nat :=
  let peers := fun (f : PeerRec → Bool) (i : Nat) => srcBits i fun id => ((tget d.fab.peers id).map f).getD false
  let seen := d.fab.seen[bits (rget d 0x400068) 5 0]?
  if o = 0x400004 then
    some (activeMask d + 256 * (d.fab.peers.filter fun p => p.2.alive).length + 65536 * d.fab.id + 2 ^ 22 * fabCode d.fab.state + 2 ^ 24 * b2n d.fab.coord)
  else if o = 0x400008 then some (rget d o + total ((List.range 4).map fun p => b2n (bitAt d.fab.up p) * 2 ^ (8 * p + 3)))
  else if o = 0x40000C then some ((d.fab.cfg.map (·.gen)).getD 0)
  else if o = 0x400010 then some ((d.fab.staged.map (·.gen)).getD 0)
  else if o = 0x400014 ∨ o = 0x400018 then some (half32 (decide (o = 0x400018)) (d.fab.commitTurn.getD 0))
  else if o = 0x40001C then some (b2n d.fab.staged.isSome + 2 * b2n d.fab.commitTurn.isSome + 4 * b2n d.fab.aborted)
  else if 0x400020 ≤ o ∧ o < 0x400040 then some ((d.fab.cfg.map fun b => fld b.digest (o - 0x400020) 4).getD 0)
  else if 0x400040 ≤ o ∧ o < 0x400060 then some ((d.fab.staged.map fun b => fld b.digest (o - 0x400040) 4).getD 0)
  else if o = 0x40006C ∨ o = 0x400070 then some ((seen.map fun e => half32 (decide (o = 0x400070)) e.1).getD 0)
  else if o = 0x400074 then some ((seen.map fun e => 2 ^ 31 + 2 ^ 30 * b2n e.2.isSome + e.2.getD 0).getD 0)
  else if o = 0x400078 ∨ o = 0x40007C then some (peers (·.alive) ((o - 0x400078) / 4))
  else if o = 0x400080 ∨ o = 0x400084 then some (peers (·.differs) ((o - 0x400080) / 4))
  else if o = 0x40100C ∨ o = 0x401010 then some (half32 (decide (o = 0x401010)) fz.macBase)
  else if 0x401100 ≤ o ∧ o < 0x401200 ∧ (o - 0x401100) % 0x20 = 0 then some (rget d o + 128 * b2n (bitAt d.fab.fieldUp ((o - 0x401100) / 0x20)))
  else none
/-- LDG and TRN registers (R88, R89). Log entry 18 DEDUCED. -/
def viewTime (d : Dev) (o : Nat) : Option Nat :=
  if o = 0x500000 then
    let v := rget d o
    some (if bitAt v 1 && decide (bits (rget d 0x500048) 31 20 < 16) then setBits v 0 0 0 else v)
  else if o = 0x600008 then
    some (b2n (running d) + 2 * b2n (disciplined d) + 4 * b2n d.time.slewing + 8 * b2n d.time.holdover.isSome + 16 * b2n d.time.offFault)
  else if o = 0x600010 ∨ o = 0x600014 then some (half32 (decide (o = 0x600014)) d.time.turn)
  else if o = 0x600018 ∨ o = 0x60001C then some (half32 (decide (o = 0x60001C)) d.time.now)
  else if o = 0x600020 ∨ o = 0x600024 then some (half32 (decide (o = 0x600024)) d.time.first)
  else none
/-- PLD registers of polder `p` (R407). -/
def viewPld (d : Dev) (p o : Nat) : Option Nat :=
  let x := polder d p
  let here := x.state != 0
  match o with
  | 0x00 => some (x.state + 4 * b2n (derated d) + 256 * (if here then c0Share d p else 0))
  | 0x04 => some x.weight
  | 0x08 => some x.rate
  | 0x0C => some (if here then (sliceOfP d p).2 else 0)
  | 0x10 => some (if here then (sliceOfP d p).1 else 0)
  | 0x14 => some x.quotaQ
  | 0x18 => some (x.quotaMap + 256 * x.quotaStream + 65536 * x.quotaAgent)
  | 0x1C => some x.quotaStore
  | 0x20 => some (placedQ d p)
  | 0x24 => some x.deficit
  | 0x28 => some x.violDike
  | 0x2C => some x.violRate
  | 0x30 => some x.violStream
  | 0x34 => some x.resetCnt
  | 0x38 => some x.c0Refuse
  | _ => none
/-- A reply of the pair waits for space: of the CQ, and of the result ring (R379). -/
def waitsSpace (d : Dev) (p q : Nat) : Bool × Bool :=
  let x := pairOf d p q
  match x.waiting with
  | [] => (false, false)
  | r :: _ =>
    if !replyDue d r then (false, false) else
    (cqFull d p q, match r.result with
      | none => false
      | some b => !b.isEmpty && (ringPlace (ringSize d p q) x.resHead (rget d (pageReg p q 0x24)) (up64 b.length)).isNone)
/-- Queue page registers of polder `p` (R379). -/
def viewPage (d : Dev) (p o : Nat) : Option Nat :=
  if o < 0x40 then some 0
  else if o < 0x1000 ∨ 0x1200 ≤ o then none
  else
    let q := (o - 0x1000) / 0x40
    let x := pairOf d p q
    match o % 0x40 with
    | 0x04 =>
      let w := waitsSpace d p q
      some (b2n x.enabled + 2 * b2n x.busy + 4 * b2n w.1 + 8 * b2n w.2 + 16 * b2n x.dmaErr + 65536 * min 0xffff x.outstanding)
    | 0x28 => some x.resHead
    | 0x2C => some x.sqHead
    | _ => none
/-- LTH and BNK registers of a die (R345, R346). -/
def viewLth (fz : Fuses) (d : Dev) (die o : Nat) : Option Nat :=
  let l := latheOf d die
  let cores := slotList d die
  if o = 0x4 then
    some (b2n (latheOn d die) + 2 * b2n l.sealed + 4 * bits d.img.active 0 0 + 8 * b2n d.img.standby + 16 * b2n d.img.at_.isSome +
      256 * min 0xff (l.plan.length - 1) + 65536 * ((List.range 16).filter fun c => coreLive fz d die c).length)
  else if o = 0xC then some (imgContent (actImg d))
  else if o = 0x10 then some (fld (actImg d) 12 4)
  else if o = 0x14 then some (if d.img.standby then imgContent (imgRaw d (1 - d.img.active)) else 0)
  else if o = 0x18 ∨ o = 0x1C then some (half32 (decide (o = 0x1C)) (d.img.at_.getD 0))
  else if o = 0x20 ∨ o = 0x24 then
    let j0 := if o = 0x24 then 8 else 0
    some (total ((List.range 8).map fun j => cores.getD (j0 + j) 0 * 2 ^ (4 * j)))
  else if o = 0x40 then some (2 * l.half)
  else if 0x60 ≤ o ∧ o < 0x80 then
    let b := barOf d die ((o - 0x60) / 4)
    some (b2n b.armed + 2 * b2n (!b.held.isEmpty) + 256 * b.dieMask + 65536 * b.arrivals.length)
  else if 0x10000 ≤ o ∧ o < 0x11000 ∧ o % 0x100 = 0 then
    let b := (o - 0x10000) / 0x100
    let st := (tget d.eng.owner (die * 16 + b)).getD (b, b, false)
    some (bankOwner d die b + 256 * st.2.1 + 65536 * b2n st.2.2 + 131072 * b2n (bankRemoved d die b))
  else none
/-- A thread's state code (R431). -/
def tCode : TState → Nat
  | .free => 0
  | .ready => 1
  | .running => 2
  | .waiting => 3
  | .waitTimed => 4
  | .delayed => 5
/-- The scheduler of a die. -/
def schedOf (d : Dev) (die : Nat) : SchedRec := tgetD d.ctc.scheds die default
/-- A control core of a die. Log entry 11 DESIGN CHOICE. -/
def coreOf (d : Dev) (die core : Nat) : CoreRec := tgetD d.ctc.cores (die * 4 + core) default
/-- A thread slot of a die. -/
def threadOf (d : Dev) (die slot : Nat) : ThreadRec := tgetD (schedOf d die).threads slot default
/-- Slots of a die that are not FREE. -/
def threadsUsed (d : Dev) (die : Nat) : Nat := ((schedOf d die).threads.filter fun t => t.2.state != TState.free).length
/-- Cores of a die that take threads, those idle first in ascending number, then by the least level of the thread they run, the latest dispatch, the
highest number (R420, R421). -/
def coreRank (d : Dev) (die : Nat) : List Nat :=
  let up := (List.range 4).filter fun c => !(coreOf d die c).halted
  let busy := up.filter fun c => (coreOf d die c).running.isSome
  let lev : Nat → Nat := fun c => match (coreOf d die c).running with
    | none => 0
    | some t => (threadOf d die t).level
  (up.filter fun c => (coreOf d die c).running.isNone) ++
    sortBy (fun a b => decide (lev a > lev b) || (lev a == lev b && (decide ((coreOf d die a).dispatched > (coreOf d die b).dispatched) ||
      ((coreOf d die a).dispatched == (coreOf d die b).dispatched && decide (a ≥ b))))) busy
/-- READY threads in the order in which they are taken: highest level, which is the least number, earliest ready time, lowest slot (R420). -/
def readyOrder (d : Dev) (die : Nat) : List Nat :=
  (sortBy (fun (a b : Nat × ThreadRec) => decide (a.2.level < b.2.level) || (a.2.level == b.2.level && (decide (a.2.ready < b.2.ready) ||
    (a.2.ready == b.2.ready && decide (a.1 ≤ b.1))))) ((schedOf d die).threads.filter fun t => t.2.state == TState.ready)).map (·.1)
/-- The thread that core `core` would take among the READY threads `l`, given in taking order (R420): of the oldest's level, one that last ran on this
core and is younger than the oldest by no more than the affinity window is taken instead. -/
def takeFrom (d : Dev) (die core : Nat) (l : List Nat) : Option Nat :=
  match l with
  | [] => none
  | x :: _ =>
    let a := threadOf d die x
    let win := bits (rget d (dieWin die + 0x20000)) 3 0 * 250
    match (if win = 0 then none else l.find? fun y =>
        let b := threadOf d die y
        b.level == a.level && b.everRan && b.core == core && decide (b.ready ≤ a.ready + win)) with
    | some y => some y
    | none => some x
/-- Chucks filled core after core, each with the choice among the threads that stand in no chuck yet (R422). -/
def fillChucks (d : Dev) (die : Nat) : List Nat → List Nat → List (Nat × Nat)
  | [], _ => []
  | c :: cs, l =>
    match takeFrom d die c l with
    | none => fillChucks d die cs l
    | some x => (c, x) :: fillChucks d die cs (l.filter (· != x))
/-- Each core's chuck: the READY thread prepared for it, as core and slot (R422). -/
def chucks (d : Dev) (die : Nat) : List (Nat × Nat) := fillChucks d die (coreRank d die) (readyOrder d die)
/-- HTS and CTC registers of a die (R431, R432). -/
def viewCtc (d : Dev) (die o : Nat) : Option Nat :=
  let sc := schedOf d die
  if o = 0x20004 then some (threadsUsed d die + 65536 * sc.peak)
  else if o = 0x20008 then some (total ((List.range 32).map fun l => b2n (sc.threads.any fun t => t.2.state == TState.ready && t.2.level == l) * 2 ^ l))
  else if o = 0x20020 then some sc.delay.length
  else if 0x20100 ≤ o ∧ o < 0x20500 then
    let n := (o - 0x20100) / 4
    let t := threadOf d die n
    some (t.level + 256 * b2n ((chucks d die).any fun c => c.2 == n) + 512 * t.core + 2048 * tCode t.state)
  else if o = 0x30000 then
    some (total ((List.range 4).map fun c => b2n (coreOf d die c).running.isSome * 2 ^ c + b2n (coreOf d die c).halted * 2 ^ (c + 4)))
  else if 0x30020 ≤ o ∧ o < 0x30030 then some (coreOf d die ((o - 0x30020) / 4)).pc
  else none
/-- CAL registers of a die (R448). Log entry 18 DEDUCED. -/
def viewCal (d : Dev) (die o : Nat) : Option Nat :=
  let lane := fun x =>
    if (linkDies x).1 = die then laneOf d x 0 else if (linkDies x).2 = die then laneOf d x 1 else default
  if o < 0x40010 ∧ die ≠ 0 then some 0
  else if o = 0x40014 then some d.cal.period
  else if o = 0x40020 then
    some (if die = 0 then (d.cal.est.filter fun e => e.2.kind == 2 && e.2.state != 0).length + 65536 * kinRunning d else 0)
  else if 0x40100 ≤ o ∧ o < 0x40128 then
    let l := lane ((o - 0x40100) / 4)
    some (256 * l.retired.getD 0xff + 65536 * l.lane + 2 ^ 29 * b2n l.retired.isSome + 2 ^ 30 * b2n l.spareFail + 2 ^ 31 * b2n l.running)
  else if 0x40140 ≤ o ∧ o < 0x40168 then
    let l := lane ((o - 0x40140) / 4)
    some (l.passW + 256 * l.passH)
  else none
/-- STAT registers of core `c`'s engine `e` of a die, with the model's free value for what runs inside an operation (R184, R217, R254, R283, R302): the
bit of an operation is free while the unit's record lists it, since a read carries no cycle, and 0 otherwise. Log entries 2 DESIGN CHOICE, 14 DESIGN CHOICE,
45 DEDUCED. -/
def engStat (d : Dev) (die e c : Nat) : Nat × Dev :=
  let slot := (coresUsed d die).zipIdx.find? fun x => x.1 == c
  let runs := (slot.map fun x => (unitOf d die (8 * x.2 + e)).runs.filter fun r => decide (r.code < 0xf0)).getD []
  let f := if runs.isEmpty then (0, d) else freeVal d
  let k := die * 16 + c
  let has := fun (code : Nat) => runs.any fun r => r.code == code
  let busy := fun (code i : Nat) => b2n (has code && bitAt f.1 i)
  let bit := fun (h : Nat) => b2n (thas d.eng.halves (k * 2 + h) && !(busy 1 1 == 1 && runs.any fun r => r.code == 1 && b2n (bitAt r.operand 22) == h))
  match e with
  | 0 => (busy 2 0 + 2 * bit 0 + 4 * bit 1 + 8 * busy 1 1 + (if has 2 then 16 * (f.1 / 4 % 33) else 0), f.2)
  | 1 => (4 * total ((List.range 4).map fun t => b2n (thas d.eng.tables (k * 8 + t)) * 2 ^ t) + busy 3 0 + 2 * busy 1 1, f.2)
  | 2 => (busy 1 0 + 2 * busy 2 1 + 4 * (if has 1 || has 2 then f.1 / 4 % 17 else 0), f.2)
  | 3 => (if f.1 % 2 = 1 then 1 + 8 * ((runs.getLast?.map (·.code)).getD 0 % 8) else 0, f.2)
  | _ => (frnHeld d die c + 2 ^ 17 * ((frnQueues d die c).length + (searchQueues d die c).length) + 2 ^ 28 * (f.1 % 2), f.2)
/-- FRN_POOL and TNS_PRED_CFG (R217, R254). -/
def viewPool (d : Dev) (die o : Nat) : Option Nat :=
  if o = 0x141000 then some (poolBytes d / 1048576 + 65536 * ((poolBytes d - poolUsed d die) / 1048576))
  else if o = 0x111000 then
    let sl := (List.range (imgPreds (actImg d))).map fun i => predSlot (actImg d) i
    some (min 0xffff (total (sl.map (·.rp))) + 65536 * (match sl with
      | [] => 0
      | x :: t => t.foldl (fun a s => min a s.mMin) x.mMin) + 2 ^ 28 * sl.length)
  else none

/-! ### The value of a register -/

/-- What the register at key `o` shows, before any side effect of the read; the device takes the free values that it shows. Log entry 14 DESIGN CHOICE. -/
def showReg (fz : Fuses) (d : Dev) (o : Nat) : Nat × Dev :=
  let plain := fun (v : Option Nat) => (v.getD (rget d o) % 2 ^ 32, d)
  if 0x40000000 ≤ o then plain (viewPage d ((o - 0x40000000) / 0x40000) (o % 0x40000))
  else if 0x01000000 ≤ o then
    let die := (o - 0x01000000) / 0x01000000
    let w := o % 0x01000000
    if 0x100000 ≤ w ∧ w % 0x10000 < 0x1000 ∧ w % 0x100 = 4 then engStat d die ((w - 0x100000) / 0x10000) (w % 0x10000 / 0x100)
    else plain (if w < 0x20000 then viewLth fz d die w else if w < 0x40000 then viewCtc d die w else if w < 0x100000 then viewCal d die w else viewPool d die w)
  else if o < 0x100000 then plain (viewPkg fz d o)
  else if o < 0x200000 then plain (viewSlc d o)
  else if o < 0x300000 then plain (viewWdn d o)
  else if o < 0x400000 then plain (viewTwn fz d o)
  else if o < 0x500000 then plain (viewFab fz d o)
  else if o < 0x700000 then plain (viewTime d o)
  else if 0x710000 ≤ o ∧ o < 0x720000 then plain (viewPage d 0 (o - 0x710000))
  else if 0x780000 ≤ o then plain (viewPld d ((o - 0x780000) / 0x40) (o % 0x40))
  else plain none

/-- The key under which `who` reaches the register at `addr`, if one is listed there (R379, R407, R568, R569): before the package is ready the host
and the monitor reach the PKG block only (R552); a control core reaches the package registers and its own die's window. Log entry 15 DEDUCED. -/
def regKey (fz : Fuses) (d : Dev) (who : Who) (addr : Nat) : Option Nat :=
  let listed := fun (o : Nat) =>
    if (regHit o).isNone || (decide (0x01000000 ≤ o) && decide (o < 0x40000000) && decide (popDies fz ≤ (o - 0x01000000) / 0x01000000)) then none else some o
  match who with
  | .host 0 => if addr < 0x40000000 && (d.pin.ready || decide (addr < 0x1000)) then listed addr else none
  | .monitor => if addr < 0x40000000 && (d.pin.ready || decide (addr < 0x1000)) then listed addr else none
  | .host f =>
    if f > 16 || !d.pin.ready then none
    else if addr < 0x10000 then listed (pageBase f + addr)
    else if 0x10000 ≤ addr ∧ addr < 0x1003C then listed (0x780000 + 0x40 * f + (addr - 0x10000))
    else none
  | .core die => if addr < 0x01000000 || (decide (dieWin die ≤ addr) && decide (addr < dieWin (die + 1))) then listed addr else none
  | .bar2 => none
/-- Function and byte offset in its MSI-X table, or in its PBA, of an address that lies there (R358, R568): function, PBA, offset. Log entry 12 PRESUMED. -/
def msixAt (d : Dev) (who : Who) (addr : Nat) : Option (Nat × Bool × Nat) :=
  if !d.pin.ready || addr % 4 ≠ 0 then none else
  match who with
  | .host 0 => if 0x708000 ≤ addr ∧ addr < 0x708400 then some (0, false, addr - 0x708000) else if 0x708800 ≤ addr ∧ addr < 0x708808 then some (0, true, addr - 0x708800) else none
  | .monitor => if 0x708000 ≤ addr ∧ addr < 0x708400 then some (0, false, addr - 0x708000) else if 0x708800 ≤ addr ∧ addr < 0x708808 then some (0, true, addr - 0x708800) else none
  | .host f =>
    if f > 16 then none else
    if 0x20000 ≤ addr ∧ addr < 0x20400 then some (f, false, addr - 0x20000) else if 0x20800 ≤ addr ∧ addr < 0x20808 then some (f, true, addr - 0x20800) else none
  | _ => none
/-- Key of a word of an MSI-X table among the stored registers. Log entry 12 PRESUMED. -/
def msixKey (fn o : Nat) : Nat := if fn = 0 then 0x708000 + o else pageBase fn + 0x20000 + o
/-- The value of a word of an MSI-X table or PBA. Log entry 12 PRESUMED. -/
def msixShow (d : Dev) (fn : Nat) (pba : Bool) (o : Nat) : Nat :=
  if pba then total ((List.range 32).map fun i => b2n (d.host.pba.contains (fn * 64 + 8 * o + i)) * 2 ^ i)
  else if o % 16 = 12 then b2n (d.host.masked.contains (fn * 64 + o / 16)) else rget d (msixKey fn o)
/-- A write to a word of an MSI-X table: message address and data are kept as written, bit 0 of the vector control masks. Log entry 12 PRESUMED. -/
def msixWrite (d : Dev) (fn o v : Nat) : Dev :=
  if o % 16 = 12 then
    let k := fn * 64 + o / 16
    if bitAt v 0 then { d with host := { d.host with masked := if d.host.masked.contains k then d.host.masked else d.host.masked ++ [k] } }
    else if d.host.masked.contains k then fxUnmask d fn (o / 16) else d
  else rset d (msixKey fn o) v

/-! ### Reads -/

/-- The side effects of a read of the register at key `o` (R9, R12, R465): a read-clear value is cleared, the low word of a pair latches the high
word, the first word of the selected record marks it read. The latched and the staged word are one per register, whoever reads and writes. Log entry 92 DEDUCED. -/
def afterRead (fz : Fuses) (d : Dev) (o : Nat) : Dev :=
  match regHit o with
  | none => d
  | some h =>
    let d := if o = 0x200044 then fxRecRead d else d
    let d := if h.row.pair = 1 then { d with latch := tput d.latch (o + 4) (BitVec.ofNat 32 (showReg fz d (o + 4)).1) } else d
    let d := if h.row.pair = 2 then { d with latch := tdel d.latch o } else d
    if !h.row.rc then d
    else if 0x780000 ≤ o ∧ o < 0x781000 then
      modPolder d ((o - 0x780000) / 0x40) fun x =>
        match o % 0x40 with
        | 0x28 => { x with violDike := 0 }
        | 0x2C => { x with violRate := 0 }
        | 0x30 => { x with violStream := 0 }
        | _ => { x with c0Refuse := 0 }
    else rset d o 0
/-- A read of a register: the value and the device after it (R9, R12). A high word that has been latched shows the latched value. Log entry 83 DESIGN CHOICE. -/
def readReg (fz : Fuses) (d : Dev) (who : Who) (addr : Nat) : Nat × Dev :=
  match msixAt d who addr with
  | some (fn, pba, o) => (msixShow d fn pba o, d)
  | none =>
    match regKey fz d who addr with
    | none => (0, d)
    | some o =>
      let r := showReg fz d o
      let v := match tget d.latch o with
        | some w => w.toNat
        | none => r.1
      (v, afterRead fz r.2 o)
/-- A read without side effect (R565). -/
def peekReg (fz : Fuses) (d : Dev) (addr : Nat) : Nat × Dev :=
  match msixAt d .monitor addr with
  | some (fn, pba, o) => (msixShow d fn pba o, d)
  | none =>
    match regKey fz d .monitor addr with
    | none => (0, d)
    | some o => showReg fz d o

/-! ### Writes -/

/-- The register at key `o` is locked (R570). Log entry 83 DESIGN CHOICE. -/
def lockedNow (d : Dev) (o : Nat) (l : Lock) : Bool :=
  match l with
  | .free => false
  | .run => bitAt (rget d 0x600004) 0
  | .wdn => bitAt (rget d 0x200000) 0 || (decide (0x201000 ≤ o) && decide (o < 0x201080))
  | .pair =>
    let p := if o < 0x40000000 then 0 else (o - 0x40000000) / 0x40000
    let x := pairOf d p ((o % 0x10000 - 0x1000) / 0x40)
    x.enabled || x.busy
  | .fab => d.fab.state != FState.unjoined
/-- The bits of a register that `who` may write (R9, R569). Log entry 83 DESIGN CHOICE. -/
def writable (who : Who) (r : RegRow) : Nat :=
  match who with
  | .core _ => r.rw ||| r.core
  | _ => r.rw
/-- The counters of a block set to 0 by cnt_clear of its CTL register, if `o` is one (R184, R217, R254, R283, R302, R345, R346). Log entry 45 DEDUCED. -/
def clearBlock (d : Dev) (o : Nat) : Option Dev :=
  if o < 0x01000000 ∨ 0x09000000 ≤ o then none else
  let base := o - o % 0x01000000
  let w := o % 0x01000000
  let zero := fun (l : List Nat) => some (l.foldl (fun d x => rset d x 0) d)
  if w = 0 then zero ([0x28, 0x2C, 0x30, 0x34].map (base + ·))
  else if w = 0x11000 then zero ((List.range 16).flatMap fun b => (List.range 6).map fun m => base + 0x10020 + 0x100 * b + 4 * m)
  else if 0x100000 ≤ w ∧ w < 0x150000 ∧ w % 0x10000 < 0x1000 ∧ w % 0x100 = 0 then
    let last := [0x38, 0x28, 0x2C, 0x20, 0x28].getD ((w - 0x100000) / 0x10000) 0
    zero ((List.range ((last - 8) / 4)).map fun i => o + 0xC + 4 * i)
  else none
/-- A committed write of a 64-bit pair whose low word is at `o`: the value goes where the pair is kept. -/
def commitPair (d : Dev) (o lo hi : Nat) : Dev :=
  if o = 0x600018 then fxTaiSet d (lo + 2 ^ 32 * hi) else regPut (regPut d o lo) (o + 4) hi
/-- A write of the high word of a pair (R11, R12): it commits the staged low word with it; a locked pair keeps its value, and the write counts when it
would change it. A high word with no low word staged takes the low word that the register shows, and a commit drops the staged word. Log entries 16 DEDUCED, 92
DEDUCED. -/
def writeHigh (fz : Fuses) (d : Dev) (o v : Nat) (h : RegHit) : Dev :=
  let lo := o - 4
  let low := match tget d.staged lo with
    | some w => w.toNat
    | none => (showReg fz d lo).1
  if h.row.rw = 0 then d
  else if lockedNow d o h.row.lock then
    let keep := ((regHit lo).map fun x => x.row.rw).getD 0
    if (low &&& keep) = ((showReg fz d lo).1 &&& keep) && (v &&& h.row.rw) = ((showReg fz d o).1 &&& h.row.rw) then d else cnt d 0x10
  else commitPair { d with staged := tdel d.staged lo } lo low v
/-- A write of a register whose bits are kept as they are written: locked bits stay and count when they would change, the others take the value, ones
clear sticky bits (R9 to R11, R571). -/
def writePlain (d : Dev) (who : Who) (o v : Nat) (h : RegHit) : Dev :=
  let mask := writable who h.row
  let d :=
    if lockedNow d o h.row.lock then (if (fixVal d o (rget d o) v &&& mask) = (rget d o &&& mask) then d else cnt d 0x10)
    else if mask = 0 then d else maskPut d o mask v
  if h.row.w1c = 0 then d else rset d o (rget d o - (rget d o &&& v &&& h.row.w1c))
/-- What follows a write of a port's enable bit: its link conditions and the choice of ports (R455, R513, R532); of tpc: BERM_DERATED (R406). Log entry 18 DEDUCED. -/
def portsWritten (old d : Dev) : Dev :=
  let d := (List.range 4).foldl (fun d p =>
    if bitAt (rget old 0x400008) (8 * p) = bitAt (rget d 0x400008) (8 * p) then d
    else setLive d 0x060 (p / 2) (0xD0 + p) p (bitAt (rget d 0x400008) (8 * p) && !bitAt d.fab.up p)) d
  let d := (List.range 8).foldl (fun d p =>
    if portEn old p = portEn d p then d else setLive d 0x088 (p / 4) (0xC8 + p) p (portEn d p && !bitAt d.fab.fieldUp p)) d
  deratedCheck (repick old d)
/-- A write that has an effect of its own, at a key of the package range (R88, R309, R333, R466, R468, R476, R496). None where the write is a plain
one. Log entry 13 DEDUCED. -/
def writeEffect (d : Dev) (who : Who) (o v t : Nat) : Option Dev :=
  let isCore := match who with
    | .core _ => true
    | _ => false
  if o = 0x200008 then some (if bitAt v 0 then fxSafeClr d else d)
  else if o = 0x20000C then some (fxAck d v t)
  else if o = 0x200010 then some (fxInject d v t)
  else if o = 0x200000 ∧ !bitAt (rget d o) 0 then some (let d := maskPut d o 2 v; if bitAt v 0 then lockWdn d else d)
  else if o = 0x600004 ∧ !bitAt (rget d o) 0 then some (if bitAt v 0 then fxTrnRun d t else d)
  else if o = 0x30001C then some (fxWitAns d v t)
  else if o = 0x40001C then some (if bitAt v 2 then modFab d fun x => { x with aborted := false } else d)
  else if o = 0x500000 then some (let d := maskPut d o 7 v; if bitAt v 0 then rfield d o 4 4 0 else d)
  else if 0x01000000 ≤ o ∧ o < 0x09000000 then
    let die := (o - 0x01000000) / 0x01000000
    let w := o % 0x01000000
    if w = 0x40 then some (if isCore then fxPlanSeal d die v else d)
    else if 0x10000 ≤ w ∧ w < 0x11000 ∧ w % 0x100 = 0 then some (if isCore then fxOwnerStage d die ((w - 0x10000) / 0x100) v else d)
    else if 0x40000 ≤ w ∧ w < 0x40010 ∧ die ≠ 0 then some d
    else none
  else if (0x710000 ≤ o ∧ o < 0x720000) ∨ 0x40000000 ≤ o then
    let p := if o < 0x40000000 then 0 else (o - 0x40000000) / 0x40000
    let w := o % 0x10000
    if w < 0x40 then some (if w % 8 = 0 then fxSqTail d p (w / 8) v else fxCqHead d p (w / 8) v)
    else if w % 0x40 = 0 then some (fxPairCfg d p ((w - 0x1000) / 0x40) v)
    else none
  else none
/-- A write of `v` to the register at `addr` at time `t` (R8 to R12, R568 to R571). Log entries 16 DEDUCED, 83 DESIGN CHOICE. -/
def writeReg (fz : Fuses) (d : Dev) (who : Who) (addr v t : Nat) : Dev :=
  let v := v % 2 ^ 32
  match msixAt d who addr with
  | some (fn, pba, o) => if pba then d else msixWrite d fn o v
  | none =>
    match regKey fz d who addr with
    | none => d
    | some o =>
      match regHit o with
      | none => d
      | some h =>
        match writeEffect d who o v t with
        | some d => d
        | none =>
          let d := if bitAt v 0 then (clearBlock d o).getD d else d
          if h.row.pair = 1 ∧ h.row.rw ≠ 0 then { d with staged := tput d.staged o (BitVec.ofNat 32 v) }
          else if h.row.pair = 2 then writeHigh fz d o v h
          else
            let d' := writePlain d who o v h
            if o = 0x400008 ∨ (0x401100 ≤ o ∧ o < 0x401200) then portsWritten d d' else if o = 0x401004 then ptpWritten d d' else d'

/-! ### BAR 2 (R349) -/

/-- Where a byte address of BAR 2 lies: the model's address and, for a bank, die and bank. None where nothing is mapped. Log entries 17 PRESUMED, 46 DESIGN CHOICE. -/
def bar2At (fz : Fuses) (d : Dev) (a : Nat) : Option (Nat × Option (Nat × Nat)) :=
  if 0x1800000000 ≤ a then
    let die := (a - 0x1800000000) / 0x10000000
    let b := a % 0x10000000 / 0x1000000
    let o := a % 0x1000000
    if die < popDies fz && o < bankBytes then some (bankBase die b + o, some (die, b)) else none
  else
    let die := a / 0x400000000 + 2
    let o := a % 0x400000000
    if die < popDies fz && dieLive d die && o < 0x300000000 then some (bulkBase die + 0x900000000 + o, none) else none
/-- A word read through BAR 2: a bank that the host aperture does not own gives zeros and counts (R335). Log entry 46 DESIGN CHOICE. -/
def bar2Read (fz : Fuses) (m : Mem) (d : Dev) (a : Nat) : Nat × Dev :=
  match bar2At fz d (a / 4 * 4) with
  | none => (0, d)
  | some (x, none) => (mrd m x 4, d)
  | some (x, some (die, b)) => if ownedBy d die 0x12 b then (mrd m x 4, d) else (0, cnt d (dieWin die + 0x10008 + 0x100 * b))
/-- A word written through BAR 2. Log entry 46 DESIGN CHOICE. -/
def bar2Write (fz : Fuses) (m : Mem) (d : Dev) (a v : Nat) : Mem × Dev :=
  match bar2At fz d (a / 4 * 4) with
  | none => (m, d)
  | some (x, none) => (mwr m x 4 v, d)
  | some (x, some (die, b)) => if ownedBy d die 0x12 b then (mwr m x 4 v, d) else (m, cnt d (dieWin die + 0x10008 + 0x100 * b))

/-! ### The rows -/

/-- A read command: the value goes to the reader. -/
def fxRead (fz : Fuses) (m : Mem) (d : Dev) (who : Who) (addr : Nat) : Dev :=
  let r := if who = .bar2 then bar2Read fz m d addr else readReg fz d who addr
  send r.2 (.reg addr r.1)
/-- A write command. -/
def fxWrite (fz : Fuses) (m : Mem) (d : Dev) (who : Who) (addr v t : Nat) : Mem × Dev :=
  if who = .bar2 then bar2Write fz m d addr v else (m, writeReg fz (atTime d t) who addr v t)

/-- REG_PAIR_LOW_READ (R12). -/
def execRegPairLowRead (who : Who) (addr : Nat) (s : State) : Host.Outcome State Fault Refusal := onMem s fun fz m d => (m, fxRead fz m d who addr)
/-- REG_PAIR_LOW_WRITE (R12). -/
def execRegPairLowWrite (who : Who) (addr v : Nat) (s : State) : Host.Outcome State Fault Refusal := onMem s fun fz m d => fxWrite fz m d who addr v 0
/-- REG_PAIR_HIGH_WRITE (R11, R12). -/
def execRegPairHighWrite (who : Who) (addr v t : Nat) (s : State) : Host.Outcome State Fault Refusal := onMem s fun fz m d => fxWrite fz m d who addr v t
/-- RC_READ (R9). -/
def execRcRead (who : Who) (addr : Nat) (s : State) : Host.Outcome State Fault Refusal := onMem s fun fz m d => (m, fxRead fz m d who addr)
/-- W1C_WRITE (R9). -/
def execW1cWrite (who : Who) (addr v : Nat) (s : State) : Host.Outcome State Fault Refusal := onMem s fun fz m d => fxWrite fz m d who addr v 0
/-- COUNTER_CLEAR (R184): cnt_clear written 1 with the other bits of the CTL register as they stand. Log entry 45 DEDUCED. -/
def execCounterClear (who : Who) (addr : Nat) (s : State) : Host.Outcome State Fault Refusal :=
  onFz s fun fz d =>
    match regKey fz d who addr with
    | none => d
    | some o => if (clearBlock d o).isSome then writeReg fz d who addr (1 + rget d o / 2 * 2) 0 else d
/-- REGISTER_WRITE (R11, R571). -/
def execRegisterWrite (who : Who) (addr v t : Nat) (s : State) : Host.Outcome State Fault Refusal := onMem s fun fz m d => fxWrite fz m d who addr v t

end Sys2Proof.Machine
end

