-- ==== Sys2Proof/Machine/Attach.lean ====
section
/-! DEFINITION. Frames of the twin link (R484, R498) and what a joining package takes from them: the snapshot and the tail of ledgers and versions (R500). -/
namespace Sys2Proof.Machine

/-! ### The link (R484, R498) -/

/-- Messages of an attach, which are exchanged between packages of different generations (log entry 24). -/
def attachMsg : TwinMsg → Bool
  | .attachCheck .. => true
  | .attachOk _ => true
  | .attachFail _ => true
  | .snapshot _ => true
  | .versions .. => true
  | .caughtUp => true
  | .join _ => true
  | .stateDigest _ => true
  | _ => false
/-- What an accepted message does. Log entry 24 DEDUCED. -/
def takeMsg (fz : Fuses) (d : Dev) (t : Nat) : TwinMsg → Dev
  | .idle => d
  | .entry turn e => fxTwinEntry d turn e
  | .seal turn _ _ digest => applyTail fz (fxTwinSeal d turn digest)
  | .digests turn items => fxDigestList d turn items
  | .leave => fxTwinLeave fz d
  | .handover => fxHandover fz d
  | .attachCheck serial variant content fw cfg m => answerCheck fz d serial [variant, content, fw, cfg, m]
  | .attachOk serial =>
    if d.twin.attach ≠ 1 then d else modTwin (setRole d .attaching) fun x => { x with attach := 2, peerSerial := serial }
  | .attachFail why => checkFailed fz d why
  | .snapshot x => applyTail fz (takeAttach d x)
  | .versions turn v =>
    if d.twin.role = .attaching && d.twin.tailNext.isSome then applyTail fz (modTwin d fun x => { x with versions := tput x.versions turn v }) else d
  | .caughtUp =>
    if d.twin.role = .solo && d.twin.attach = 2 then
      twinSend (modTwin d fun x => { x with attach := 4, attachTurn := d.time.turn + 4 }) (.join (d.time.turn + 4))
    else d
  | .join turn => if d.twin.role = .attaching && d.twin.attach = 3 then modTwin d fun x => { x with attach := 4, attachTurn := turn } else d
  | .stateDigest theirs => fxStateDigest d theirs t
  | .mirrorHeld fabric mirror block =>
    if d.twin.role = .lead then modTwin d fun x => { x with held := x.held ++ [(fabric, mirror, block)] } else d
/-- TWIN_LINK_FRAME (R484, R498): a frame with a bad CRC or out of sequence is retransmitted within the link and not accepted. Log entry 24 DEDUCED. -/
def fxLinkFrame (fz : Fuses) (d : Dev) (gen seq : Nat) (crcOk : Bool) (msg : TwinMsg) (t : Nat) : Dev :=
  if !d.pkg.twin || !crcOk || (d.twin.linkUp && seq ≠ d.twin.rxSeq) then d else
  let d := clearLive (modTwin (atTime d t) fun x => { x with linkUp := true, rxSeq := seq + 1 }) 0x050 1 0xD8 0
  let att := d.twin.role == .attaching || d.twin.role == .detached
  if att || attachMsg msg then
    takeMsg fz (if d.twin.role = .attaching && newerGen gen d.twin.gen then setGen d gen else d) t msg
  else if newerGen gen d.twin.gen then (if d.twin.role = .quarantined then d else quarantine d)
  else if gen ≠ d.twin.gen then raise (cnt d 0x300028) 0x056 0 0xD8 0
  else takeMsg fz d t msg

/-- TWIN_LINK_FRAME. -/
def execTwinLinkFrame (gen seq : Nat) (crcOk : Bool) (msg : TwinMsg) (t : Nat) (s : State) : Host.Outcome State Fault Refusal :=
  onFz s fun fz d => fxLinkFrame fz d gen seq crcOk msg t

end Sys2Proof.Machine
end

