-- ==== Sys2Proof/Machine/Cores.lean ====
section
/-! DEFINITION. The control cores, the hardware thread scheduler and the coherence of control memory (R410 to R430). -/
namespace Sys2Proof.Machine

/-! ### Cores, threads, schedulers -/

/-- The answer of a meaning that acts on control core `core` of die `die` (log entries 3 and 8). -/
def onCtl (s : State) (die core : Nat) (f : Fuses → Mem → Dev → Mem × Dev) : Host.Outcome State Fault Refusal :=
  if die ≥ 8 || core ≥ 4 then .fault .illFormed else if die ≥ variantDies s.fuses.variant then .next s else onMem s f
/-- A control core changed. -/
def modCore (d : Dev) (die core : Nat) (f : CoreRec → CoreRec) : Dev :=
  { d with ctc := { d.ctc with cores := tput d.ctc.cores (die * 4 + core) (f (coreOf d die core)) } }
/-- A die's scheduler changed. -/
def modSched (d : Dev) (die : Nat) (f : SchedRec → SchedRec) : Dev := { d with ctc := { d.ctc with scheds := tput d.ctc.scheds die (f (schedOf d die)) } }
/-- A thread slot changed. -/
def modThread (d : Dev) (die slot : Nat) (f : ThreadRec → ThreadRec) : Dev :=
  modSched d die fun s => { s with threads := tput s.threads slot (f (tgetD s.threads slot default)) }
/-- Register g`n` of a core. -/
def greg (d : Dev) (die core n : Nat) : Nat := (tgetD (coreOf d die core).regs (n % 32) 0).toNat
/-- Register g`n` set. -/
def gset (d : Dev) (die core n v : Nat) : Dev := modCore d die core fun c => { c with regs := tput c.regs (n % 32) (BitVec.ofNat 32 v) }
/-- The core's PC passes the instruction: four bytes, as the spec gives no instruction length. Log entry 44 PRESUMED. -/
def pcNext (d : Dev) (die core : Nat) : Dev := modCore d die core fun c => { c with pc := (c.pc + 4) % 2 ^ 32 }
/-- The handler is entered: the PC is saved and the core goes on at an address that the spec does not give. Log entry 19 DESIGN CHOICE. -/
def enterHandler (d : Dev) (die core code : Nat) : Dev :=
  let r := freeVal d
  modCore r.2 die core fun c => { c with savedPc := c.pc, pc := r.1 % 2 ^ 32, trap := some code }
/-- The origin number of a control core (R451). -/
def coreOrigin (core : Nat) : Nat := 0xA0 + core

/-! ### Coherence of control memory (R427 to R430) -/

/-- A cache by number (die × 4 + core). -/
def cacheOf (d : Dev) (k : Nat) : CacheRec := tgetD d.ctc.caches k { lines := [], wb := [] }
/-- A cache changed. -/
def modCache (d : Dev) (k : Nat) (f : CacheRec → CacheRec) : Dev := { d with ctc := { d.ctc with caches := tput d.ctc.caches k (f (cacheOf d k)) } }
/-- The directory's record of a line. -/
def dirOf (d : Dev) (l : Nat) : DirRec := tgetD d.ctc.dirs l { holders := [], modified := none, busy := none, waiting := [] }
/-- A directory record changed. -/
def modDir (d : Dev) (l : Nat) (f : DirRec → DirRec) : Dev := { d with ctc := { d.ctc with dirs := tput d.ctc.dirs l (f (dirOf d l)) } }
/-- The line of a control SRAM address as a core sees it, among the model's addresses, if the address lies in control SRAM (R411). -/
def lineOf (a : Nat) : Option Nat := if 0x10000000 ≤ a ∧ a < 0x12000000 then some (2 ^ 45 + (a - 0x10000000) / 64 * 64) else none
/-- The home die of a line. -/
def homeOf (l : Nat) : Nat := (l - 2 ^ 45) / 2 ^ 22
/-- The request is granted with the data of the home's SRAM (R427). -/
def grant (m : Mem) (d : Dev) (l k : Nat) (own : Bool) : Dev :=
  if !dieLive d (k / 4) then modDir d l fun r => { r with busy := none } else
  let d := modDir d l fun r =>
    { r with busy := none, holders := if own then [k] else if r.holders.contains k then r.holders else r.holders ++ [k], modified := if own then some k else none }
  modCache d k fun c => { c with lines := tput c.lines l (own, mgets m l 64) }
/-- A request reaches the line's home while it is not busy: it is granted, or a holder is snooped first. -/
def serveOne (m : Mem) (d : Dev) (l k : Nat) (own : Bool) : Dev :=
  let r := dirOf d l
  let ask := if own then r.holders.filter (· != k) else (r.modified.filter (· != k)).toList
  match ask with
  | [] => grant m d l k own
  | x :: rest => modDir d l fun r => { r with busy := some { reqCache := k, reqOwn := own, target := x, rest := rest, pendingSeen := false, notice := none } }
/-- Requests that wait for the line, in arrival order, until one finds it busy. -/
def serveWaiting (m : Mem) (l : Nat) : Nat → Dev → Dev
  | 0, d => d
  | n + 1, d =>
    match (dirOf d l).busy, (dirOf d l).waiting with
    | none, (k, own) :: rest => serveWaiting m l n (serveOne m (modDir d l fun r => { r with waiting := rest }) l k own)
    | _, _ => d
/-- The awaited holder has answered: the next holder is snooped, or the request completes and waiting ones follow. -/
def answered (m : Mem) (d : Dev) (l : Nat) : Dev :=
  match (dirOf d l).busy with
  | none => d
  | some b =>
    match b.rest with
    | x :: rest => modDir d l fun r => { r with busy := some { b with target := x, rest := rest, pendingSeen := false, notice := none } }
    | [] => serveWaiting m l ((dirOf d l).waiting.length + 1) (grant m d l b.reqCache b.reqOwn)
/-- A cache leaves the holders of a line. -/
def leaveLine (d : Dev) (l k : Nat) : Dev :=
  modDir d l fun r => { r with holders := r.holders.filter (· != k), modified := r.modified.filter (· != k), busy := r.busy.map fun b => { b with rest := b.rest.filter (· != k) } }
/-- The home has used the eviction notice and returns EVICT_ACK, which is on its way while `noticed` stands and the cache is no holder. -/
def ackEvict (d : Dev) (l k : Nat) : Dev := modCache (leaveLine d l k) k fun c => { c with wb := tmod c.wb l fun w => { w with noticed := true } }
/-- A line moves from the cache into a write-back buffer, if one is free; cycles stalled for want of one are counted by a free value (R428). Log entry 21 DESIGN CHOICE. -/
def evictTo (d : Dev) (k l : Nat) : Option Dev :=
  let c := cacheOf d k
  match tget c.lines l with
  | none => some d
  | some (mod, data) =>
    if c.wb.length ≥ 8 then none
    else some (modCache d k fun c => { c with lines := tdel c.lines l, wb := tput c.wb l { dirty := mod, data := data, noticed := false } })
/-- Cycles stalled on write-back buffers. Log entry 2 DESIGN CHOICE. -/
def wbStall (d : Dev) (die : Nat) : Dev := cnt (freeVal d).2 (dieWin die + 0x30018) (freeVal d).1
/-- An access to a line whose home is a fenced die (R430). -/
def homeLost (d : Dev) (die core a : Nat) : Dev := raise (stick d (dieWin die + 0x30004) 2) 0x025 die (coreOrigin core) a
/-- The line that leaves a full cache of 256 lines for one more, by a free value. Log entry 21 DESIGN CHOICE. -/
def fullVictim (d : Dev) (k : Nat) : Option Nat × Dev :=
  let ls := (cacheOf d k).lines
  if ls.length < 256 then (none, d) else (((ls[(freeVal d).1 % ls.length]?).map (·.1)), (freeVal d).2)
/-- COHERENCE_REQUEST (R427, R428): a cache drops the victim and asks the home for the line, shared or to own. Log entry 21 DESIGN CHOICE. -/
def fxLineReq (fz : Fuses) (m : Mem) (d : Dev) (die core a : Nat) (own : Bool) (victim : Option Nat) : Mem × Dev :=
  let k := die * 4 + core
  match lineOf a with
  | none => (m, enterHandler d die core 1)
  | some l =>
    if homeOf l ≥ popDies fz then (m, enterHandler d die core 1)
    else if !dieLive d (homeOf l) then (m, enterHandler (homeLost d die core a) die core 1)
    else if thas (cacheOf d k).wb l || ((dirOf d l).busy.map fun b => b.reqCache == k).getD false || ((dirOf d l).waiting.any fun w => w.1 == k) then (m, d)
    else if ((tget (cacheOf d k).lines l).map fun x => x.1 || !own).getD false then (m, d)
    else
      let r := if victim.isSome then (victim.bind lineOf, d) else fullVictim d k
      let d := r.2
      match r.1 with
      | some v => (match (if v = l then some d else evictTo d k v) with
        | none => (m, wbStall d die)
        | some d => (m, if (dirOf d l).busy.isSome then modDir d l fun r => { r with waiting := r.waiting ++ [(k, own)] } else serveOne m d l k own))
      | none => (m, if (dirOf d l).busy.isSome then modDir d l fun r => { r with waiting := r.waiting ++ [(k, own)] } else serveOne m d l k own)
/-- SNOOP (R427, R429): the awaited holder answers with its copy, or with EVICT_PENDING when the line stands in a write-back buffer. -/
def fxSnoop (m : Mem) (d : Dev) (a : Nat) : Mem × Dev :=
  match lineOf a with
  | none => (m, d)
  | some l =>
    match (dirOf d l).busy with
    | none => (m, d)
    | some b =>
      let k := b.target
      match tget (cacheOf d k).lines l with
      | some (mod, data) =>
        let m := if mod then mputs m l data else m
        let d := modCache d k fun c => { c with lines := if b.reqOwn then tdel c.lines l else tput c.lines l (false, data) }
        let d := if b.reqOwn then leaveLine d l k else modDir d l fun r => { r with modified := none }
        (m, answered m d l)
      | none =>
        if thas (cacheOf d k).wb l then
          if d.ctc.pendAns.contains (k, l) || b.pendingSeen then (m, d)
          else (m, cnt { d with ctc := { d.ctc with pendAns := d.ctc.pendAns ++ [(k, l)] } } (dieWin (k / 4) + 0x30014))
        else (m, answered m (leaveLine d l k) l)
/-- Steps 1 to 3 of R429, once the home holds both messages. Log entry 22 DEDUCED. -/
def crossing (m : Mem) (d : Dev) (l k : Nat) (data : Option Bytes) : Mem × Dev :=
  let m := match data with
    | none => m
    | some b => mputs m l b
  (m, answered m (ackEvict d l k) l)
/-- The home receives an eviction notice (R428, R429). Log entry 22 DEDUCED. -/
def fxNotice (m : Mem) (d : Dev) (die core a : Nat) (dirty : Bool) : Mem × Dev :=
  let k := die * 4 + core
  match lineOf a with
  | none => (m, d)
  | some l =>
    match tget (cacheOf d k).wb l with
    | none => (m, d)
    | some w =>
      if w.dirty != dirty || w.noticed then (m, d) else
      let data := if dirty then some w.data else none
      match (dirOf d l).busy with
      | some b =>
        if b.target = k then
          if b.notice.isSome then (m, d)
          else if b.pendingSeen then crossing m d l k data
          else (m, modDir d l fun r => { r with busy := some { b with notice := some data } })
        else (match data with
          | none => m
          | some x => mputs m l x, ackEvict d l k)
      | none => (match data with
          | none => m
          | some x => mputs m l x, ackEvict d l k)
/-- EVICT_PENDING reaches the home (R429). -/
def fxPending (m : Mem) (d : Dev) (die core a : Nat) : Mem × Dev :=
  let k := die * 4 + core
  match lineOf a with
  | none => (m, d)
  | some l =>
    if !d.ctc.pendAns.contains (k, l) then (m, d) else
    let d := { d with ctc := { d.ctc with pendAns := d.ctc.pendAns.filter (· != (k, l)) } }
    match (dirOf d l).busy with
    | none => (m, d)
    | some b =>
      if b.target ≠ k then (m, d) else
      match b.notice with
      | some data => crossing m d l k data
      | none => (m, modDir d l fun r => { r with busy := some { b with pendingSeen := true } })
/-- EVICT_ACK frees the write-back buffer (R428). -/
def fxEvictAck (d : Dev) (die core a : Nat) : Dev :=
  let k := die * 4 + core
  match lineOf a with
  | none => d
  | some l =>
    match tget (cacheOf d k).wb l with
    | none => d
    | some w => if w.noticed then modCache d k fun c => { c with wb := tdel c.wb l } else d

/-! ### Accesses of a control core (R411, R416) -/

/-- How an access or an element ends: done, with what it read; waiting for another cache or for a write-back buffer, nothing done; an access fault, with
the address where the line's home is lost. -/
inductive AccEnd where
  | done (body : Bytes)
  | wait (stall : Bool)
  | fault (lost : Option Nat)
  deriving DecidableEq, Repr, Inhabited
/-- Memory, device and end of an access. -/
abbrev Acc := Mem × Dev × AccEnd

/-- A line made present in a core's cache, to own where asked, when no transfer of it is under way (R427 to R429). Log entry 21 DESIGN CHOICE. -/
def fetchLine (m : Mem) (d : Dev) (die core l : Nat) (own : Bool) : Acc :=
  let k := die * 4 + core
  match tget (cacheOf d k).lines l with
  | some (mod, data) => if mod || !own then (m, d, .done data) else
      let r := dirOf d l
      if r.busy.isSome || (r.holders.any fun x => x != k && thas (cacheOf d x).wb l) then (m, d, .wait false) else
      let d := (r.holders.filter (· != k)).foldl (fun d x => leaveLine (modCache d x fun c => { c with lines := tdel c.lines l }) l x) d
      (m, grant m d l k true, .done data)
  | none =>
    let r := dirOf d l
    if r.busy.isSome || thas (cacheOf d k).wb l || (r.holders.any fun x => thas (cacheOf d x).wb l) then (m, d, .wait false) else
    let f := fullVictim d k
    let room := match f.1 with
      | none => some f.2
      | some x => evictTo f.2 k x
    match room with
    | none => (m, d, .wait true)
    | some d =>
      let m := match r.modified.bind fun x => tget (cacheOf d x).lines l with
        | some (true, data) => mputs m l data
        | _ => m
      let d := match r.modified with
        | none => d
        | some x => modDir (modCache d x fun c => { c with lines := tmod c.lines l fun y => (false, y.2) }) l fun r => { r with modified := none }
      let d := if own then r.holders.foldl (fun d x => leaveLine (modCache d x fun c => { c with lines := tdel c.lines l }) l x) d else d
      (m, grant m d l k own, .done (mgets m l 64))
/-- A read or write of at most 64 bytes that lie in one line's space: `w` is what is written, none for a read of `n` bytes (R411). Log entry 16 DEDUCED. -/
def chunkAcc (fz : Fuses) (m : Mem) (d : Dev) (die core a n : Nat) (w : Option Bytes) : Acc :=
  if a < 0x10000 then (match w with
    | some _ => (m, d, .fault none)
    | none => (m, d, .done ((List.range n).map fun i => Config.bootRom (a + i))))
  else if 0x10000000 ≤ a ∧ a < 0x12000000 then
    let l := 2 ^ 45 + (a - 0x10000000) / 64 * 64
    if homeOf l ≥ popDies fz then (m, d, .fault none)
    else if !dieLive d (homeOf l) then (m, d, .fault (some a))
    else
      match fetchLine m d die core l w.isSome with
      | (m, d, .done data) => (match w with
        | none => (m, d, .done (slice data (a % 64) n))
        | some b => (m, modCache d (die * 4 + core) fun c => { c with lines := tput c.lines l (true, data.take (a % 64) ++ b ++ data.drop (a % 64 + b.length)) }, .done []))
      | r => r
  else if (0x20000000 ≤ a ∧ a < 0x21000000) ∨ (0x30000000 ≤ a ∧ a < 0x40000000) then
    if a % 4 ≠ 0 ∨ n % 4 ≠ 0 then (m, d, .fault none) else
    let o := if a < 0x30000000 then dieWin die + (a - 0x20000000) else a - 0x30000000
    if 0x30000000 ≤ a ∧ 0x01000000 ≤ o then (m, d, .done (zeros n)) else
    match w with
    | none =>
      let r := (List.range (n / 4)).foldl (fun (x : Bytes × Dev) i => let v := readReg fz x.2 (.core die) (o + 4 * i); (x.1 ++ leBytes 4 v.1, v.2)) ([], d)
      (m, r.2, .done r.1)
    | some b => (m, (List.range (n / 4)).foldl (fun d i => writeReg fz d (.core die) (o + 4 * i) (fld b (4 * i) 4) d.time.now) d, .done [])
  else if 0x80000000 ≤ a ∧ a < 0x100000000 then
    let x := (coreOf d die core).winBase + (a - 0x80000000)
    match w with
    | none => (m, d, .done (bulkGets m d die x n))
    | some b => (mputs m (bulkBase die + x) b, d, .done [])
  else (m, d, .fault none)
/-- A read of `n` bytes, at most 64: one or two lines. -/
def coreRead (fz : Fuses) (m : Mem) (d : Dev) (die core a n : Nat) : Acc :=
  let k := min n (64 - a % 64)
  match chunkAcc fz m d die core a k none with
  | (m1, d1, .done b) =>
    if k = n then (m1, d1, .done b) else
    match chunkAcc fz m1 d1 die core ((a + k) % 2 ^ 32) (n - k) none with
    | (m2, d2, .done c) => (m2, d2, .done (b ++ c))
    | r => r
  | r => r
/-- A write within one line's space. -/
def coreWrite (fz : Fuses) (m : Mem) (d : Dev) (die core a : Nat) (b : Bytes) : Acc := chunkAcc fz m d die core a b.length (some b)

/-! ### Long instructions (R414 to R416) -/

/-- How a long instruction leaves its core: complete, with elements left, or at a faulting element. -/
inductive LongEnd where
  | complete
  | part
  | fault
  deriving DecidableEq, Repr, Inhabited
/-- One element: an access whose end decides whether it counts. A faulting or waiting element leaves memory and operand registers as they were. -/
def element (fz : Fuses) (m : Mem) (d : Dev) (die core src n : Nat) (k : Mem → Dev → Bytes → Acc) : Acc :=
  match coreRead fz m d die core src n with
  | (m1, d1, .done b) =>
    match k m1 d1 b with
    | (m2, d2, .done x) => (m2, d2, .done x)
    | (_, _, e) => (m, d, e)
  | (_, _, e) => (m, d, e)
/-- Elements in order until the block ends, `n` of them are done, or one does not complete; `ue` is the element that meets a double-bit error, which is a
precise fault (R412, R416). Log entry 20 DEDUCED. -/
def longLoop (die core : Nat) (fin : Dev → Bool) (el : Mem → Dev → Acc) : Nat → Option Nat → Mem → Dev → Mem × Dev × LongEnd
  | 0, _, m, d => (m, d, if fin d then .complete else .part)
  | n + 1, ue, m, d =>
    if fin d then (m, d, .complete)
    else if ue = some 0 then
      (m, raise (stick (cnt d (dieWin die + 0x30010)) (dieWin die + 0x30004) 1) 0x024 die (coreOrigin core) 0, .fault)
    else
      match el m d with
      | (m, d, .done _) => longLoop die core fin el n (ue.map (· - 1)) m d
      | (m, d, .wait stall) => (m, if stall then wbStall d die else d, .part)
      | (m, d, .fault lost) => (m, match lost with
        | none => d
        | some a => homeLost d die core a, .fault)
/-- A long instruction on a core: at most `stop` elements before an interrupt boundary; `ce` single-bit errors are corrected on the way. Log entry 46 DESIGN CHOICE. -/
def runLong (m : Mem) (d : Dev) (die core gn : Nat) (stop : Option Nat) (ce : Nat) (ue : Option Nat) (fin : Dev → Bool) (el : Mem → Dev → Acc) : Mem × Dev :=
  if (coreOf d die core).halted || !dieLive d die then (m, d) else
  match longLoop die core fin el (stop.getD (greg d die core gn + 1)) ue m (cnt d (dieWin die + 0x3000C) ce) with
  | (m, d, .complete) => (m, pcNext d die core)
  | (m, d, .part) => (m, d)
  | (m, d, .fault) => (m, enterHandler d die core 1)
/-- The block counted by gn has ended. -/
def gnZero (die core gn : Nat) (d : Dev) : Bool := greg d die core gn == 0
/-- MCOPY (R414). -/
def fxMcopy (fz : Fuses) (m : Mem) (d : Dev) (die core gd gs gn : Nat) (stop : Option Nat) (ce : Nat) (ue : Option Nat) : Mem × Dev :=
  runLong m d die core gn stop ce ue (gnZero die core gn) fun m d =>
    let dst := greg d die core gd; let src := greg d die core gs; let left := greg d die core gn
    let n := min left (64 - dst % 64)
    element fz m d die core src n fun m d b =>
      match coreWrite fz m d die core dst b with
      | (m, d, .done x) => (m, gset (gset (gset d die core gd (dst + n)) die core gs (src + n)) die core gn (left - n), .done x)
      | r => r
/-- MFILL (R414): byte i of the block is byte i mod 4 of gv; the block starts where gd stood at the start, so the place in the pattern follows
from what is left of it; executed again after an interrupt, the pattern starts anew with what is left. Log entry 20 DEDUCED. -/
def fxMfill (fz : Fuses) (m : Mem) (d : Dev) (die core gd gv gn : Nat) (stop : Option Nat) (ce : Nat) (ue : Option Nat) : Mem × Dev :=
  let total0 := greg d die core gn
  runLong m d die core gn stop ce ue (gnZero die core gn) fun m d =>
    let dst := greg d die core gd; let left := greg d die core gn
    let n := min left (64 - dst % 64)
    let pat := leBytes 4 (greg d die core gv)
    let b := (List.range n).map fun i => pat.getD ((total0 - left + i) % 4) 0
    element fz m d die core 0 0 fun m d _ =>
      match coreWrite fz m d die core dst b with
      | (m, d, .done x) => (m, gset (gset d die core gd (dst + n)) die core gn (left - n), .done x)
      | r => r
/-- QDRAIN (R414): entries of 64 bytes, until the limit or until the queue is empty. -/
def fxQdrain (fz : Fuses) (m : Mem) (d : Dev) (die core gd gq gn : Nat) (stop : Option Nat) (ce : Nat) (ue : Option Nat) : Mem × Dev :=
  let q := greg d die core gq
  let queue := fun (d : Dev) => tgetD (schedOf d die).hwq q []
  runLong m d die core gn stop ce ue (fun d => gnZero die core gn d || (queue d).isEmpty) fun m d =>
    let dst := greg d die core gd; let left := greg d die core gn
    let b := fit 64 ((queue d).headD [])
    let k := 64 - dst % 64
    element fz m d die core 0 0 fun m d _ =>
      match coreWrite fz m d die core dst (b.take k) with
      | (m, d, .done x) =>
        (match (if k = 64 then (m, d, AccEnd.done x) else coreWrite fz m d die core (dst + k) (b.drop k)) with
        | (m, d, .done x) =>
          (m, modSched (gset (gset d die core gd (dst + 64)) die core gn (left - 1)) die fun s => { s with hwq := tput s.hwq q (queue d).tail }, .done x)
        | r => r)
      | r => r
/-- CRCB.32 and CRCB.64 (R414): no inversions; the 64-bit state stands in gc (low word) and gc + 1. -/
def fxCrcb (fz : Fuses) (m : Mem) (d : Dev) (die core gc gs gn : Nat) (stop : Option Nat) (ce : Nat) (ue : Option Nat) (wide : Bool) : Mem × Dev :=
  runLong m d die core gn stop ce ue (gnZero die core gn) fun m d =>
    let src := greg d die core gs; let left := greg d die core gn
    let n := min left 8
    element fz m d die core src n fun m d b =>
      let d := if wide then
          let c := crc64 (greg d die core gc + 2 ^ 32 * greg d die core (gc + 1)) b
          gset (gset d die core gc c) die core (gc + 1) (c / 2 ^ 32)
        else gset d die core gc (b.foldl crc32cByte (greg d die core gc))
      (m, gset (gset d die core gs (src + n)) die core gn (left - n), .done [])
/-- INTERRUPT_TAKE (R415, R417): an interrupt, or the NMI that the warden has set (R454), at an element boundary. Log entry 19 DESIGN CHOICE. -/
def fxInterrupt (d : Dev) (die core : Nat) (nmi : Bool) (latency : Nat) : Dev :=
  let c := coreOf d die core
  if c.halted || (nmi && !c.nmi) || latency > 840 then d else
  let d := enterHandler d die core (if nmi then 3 else 2)
  let d := if nmi then modCore d die core fun c => { c with nmi := false } else d
  rset d (dieWin die + 0x30008) (max (rget d (dieWin die + 0x30008)) latency)

/-! ### Threads (R418 to R425) -/

/-- TCLK ticks of a time in ns: 4 ns each (R36). -/
def ticks (t : Nat) : Nat := t / 4
/-- The running thread leaves its core with its context, entering state `st`. -/
def switchOut (d : Dev) (die core : Nat) (st : TState) : Dev :=
  let c := coreOf d die core
  match c.running with
  | none => d
  | some n => modCore (modThread d die n fun t => { t with state := st, core := core, regs := c.regs, pc := c.pc }) die core fun c => { c with running := none }
/-- A thread becomes READY at time `r` in ticks; at a level strictly higher than that of a running thread it interrupts one core (R421). Log entry 27 DEDUCED. -/
def wake (d : Dev) (die slot r : Nat) : Dev :=
  let d := modSched (modThread d die slot fun t => { t with state := .ready, ready := r }) die fun s => { s with delay := s.delay.filter fun x => x.2 != slot }
  let busy := (coreRank d die).filter fun c => (coreOf d die c).running.isSome
  match busy with
  | [] => d
  | c :: _ =>
    match (coreOf d die c).running with
    | none => d
    | some n =>
      if (threadOf d die slot).level < (threadOf d die n).level then
        cnt (modThread (switchOut d die c .ready) die n fun t => { t with ready := r }) (dieWin die + 0x20010)
      else d
/-- The flags of a waiting thread meet its condition: the flags of the mask that are set (R423). -/
def waitMet (t : ThreadRec) : Option (BitVec 32) :=
  let f := t.flags &&& t.mask
  if (if t.modeAnd then f == t.mask else f != 0) then some f else none
/-- A flag of a thread is set; a thread whose wait it meets wakes with the flags of its mask, which are cleared (R423, R424). -/
def setFlag (d : Dev) (die slot flag r : Nat) : Dev :=
  let t := threadOf d die slot
  if t.state = .free then cnt d (dieWin die + 0x20018) else
  let t := { t with flags := t.flags ||| BitVec.ofNat 32 (2 ^ (flag % 32)) }
  let d := modThread d die slot fun _ => t
  if t.state ≠ .waiting ∧ t.state ≠ .waitTimed then d else
  match waitMet t with
  | none => d
  | some f => wake (modThread d die slot fun t => { t with flags := t.flags - f, regs := tput t.regs (t.rd % 32) f }) die slot r
/-- TSPAWN (R419): the new thread's context is its entry address and, in g0, its argument; the spec gives nothing else of it. Log entry 23 DESIGN CHOICE. -/
def fxSpawn (d : Dev) (die core rd level entry arg t : Nat) : Dev :=
  if (coreOf d die core).running.isNone || (coreOf d die core).halted then d else
  let used := threadsUsed d die
  let reserve := min 64 (bits (rget d (dieWin die + 0x20000)) 15 8)
  let d := pcNext d die core
  match (List.range 256).find? fun n => (threadOf d die n).state == TState.free with
  | none => cnt (gset d die core rd 0x204) (dieWin die + 0x2000C)
  | some n =>
    if level ≥ 4 && decide (256 - used ≤ reserve) then cnt (gset d die core rd 0x204) (dieWin die + 0x2000C) else
    let r := (List.range 31).foldl (fun (x : Tab Word × Dev) i => (tput x.1 (i + 1) (BitVec.ofNat 32 (freeVal x.2).1), (freeVal x.2).2)) ([(0, BitVec.ofNat 32 arg)], gset d die core rd 0)
    let d := modThread r.2 die n fun _ => { (default : ThreadRec) with state := .ready, level := level % 32, ready := ticks t, regs := r.1, pc := entry % 2 ^ 32 }
    wake (modSched d die fun s => { s with peak := max s.peak (used + 1) }) die n (ticks t)
/-- A delay entry takes its place: by expiry, then by insertion (R425). Log entry 47 DESIGN CHOICE. -/
def delayIn (d : Dev) (die slot expiry : Nat) : Dev :=
  modSched d die fun s => { s with delay := insertBy (fun a b => decide (a.1 < b.1)) (expiry, slot) (s.delay.filter fun x => x.2 != slot) }
/-- TWAIT (R418, R423): a condition already met returns at once with the flags, else the thread waits, timed or not. Log entry 47 DESIGN CHOICE. -/
def fxWait (d : Dev) (die core rd mask : Nat) (modeAnd : Bool) (expiry : Option Nat) : Dev :=
  match (coreOf d die core).running with
  | none => d
  | some n =>
    if (coreOf d die core).halted then d else
    let d := modThread (pcNext d die core) die n fun t => { t with mask := BitVec.ofNat 32 mask, modeAnd := modeAnd, rd := rd % 32 }
    match waitMet (threadOf d die n) with
    | some f => gset (modThread d die n fun t => { t with flags := t.flags - f }) die core rd f.toNat
    | none =>
      match expiry with
      | none => switchOut d die core .waiting
      | some e => delayIn (switchOut d die core .waitTimed) die n e
/-- TDELAY (R425). Log entry 47 DESIGN CHOICE. -/
def fxDelay (d : Dev) (die core expiry : Nat) : Dev :=
  match (coreOf d die core).running with
  | none => d
  | some n => if (coreOf d die core).halted then d else delayIn (switchOut (pcNext d die core) die core .delayed) die n expiry
/-- TYIELD (R418). -/
def fxYield (d : Dev) (die core t : Nat) : Dev :=
  match (coreOf d die core).running with
  | none => d
  | some n => if (coreOf d die core).halted then d else wake (switchOut (pcNext d die core) die core .ready) die n (ticks t)
/-- One tick of the delay list (R425): every entry that has expired fires, in expiry order and then in insertion order. Log entries 26 DESIGN CHOICE, 47 DESIGN CHOICE. -/
def fxTick (d : Dev) (die tick : Nat) : Dev :=
  ((schedOf d die).delay.filter fun x => decide (x.1 ≤ tick)).foldl (fun d x =>
    let t := threadOf d die x.2
    if t.state = .delayed then wake d die x.2 (tick * 250)
    else if t.state = .waitTimed then
      let f := freeVal d
      wake (modThread f.2 die x.2 fun t => { t with regs := tput t.regs (t.rd % 32) (BitVec.ofNat 32 f.1) }) die x.2 (tick * 250)
    else modSched d die fun s => { s with delay := s.delay.filter (· != x) }) d
/-- CORE_TAKE (R420, R422): an idle core asks for work; a take that its chuck did not hold counts. -/
def fxTake (d : Dev) (die core t : Nat) : Dev :=
  let c := coreOf d die core
  if c.halted || c.running.isSome then d else
  match takeFrom d die core (readyOrder d die) with
  | none => d
  | some n =>
    let d := if (chucks d die).contains (core, n) then d else cnt d (dieWin die + 0x20014)
    let th := threadOf d die n
    modCore (modThread d die n fun x => { x with state := .running, core := core, everRan := true }) die core fun c =>
      { c with running := some n, dispatched := ticks t, regs := th.regs, pc := th.pc }

/-! ### Ordered flows (R426) -/

/-- A die's flow. -/
def flowOf (d : Dev) (die f : Nat) : FlowRec := tgetD (schedOf d die).flows f { next := 0, open_ := [], out := [] }
/-- A flow changed. -/
def modFlow (d : Dev) (die f : Nat) (g : FlowRec → FlowRec) : Dev := modSched d die fun s => { s with flows := tput s.flows f (g (flowOf d die f)) }
/-- Items released in ticket order: each until the first ticket that has not come back. -/
def releaseFlow : List (Nat × Nat × Option (Option (BitVec 64))) → List (BitVec 64) → List (Nat × Nat × Option (Option (BitVec 64))) × List (BitVec 64)
  | (_, _, some none) :: t, out => releaseFlow t out
  | (_, _, some (some x)) :: t, out => releaseFlow t (out ++ [x])
  | l, out => (l, out)
/-- A ticket comes back, with an item or skipped. -/
def handBack (d : Dev) (die f ticket : Nat) (item : Option (BitVec 64)) : Dev :=
  modFlow d die f fun r =>
    let l := r.open_.map fun x => if x.1 = ticket then (x.1, x.2.1, some item) else x
    let n := releaseFlow l r.out
    { r with open_ := n.1, out := n.2 }
/-- HTS_FLOW of a die, naming the flow. -/
def flowFault (d : Dev) (die core f : Nat) : Dev := raise d 0x03B die (coreOrigin core) f
/-- FLOW_ENTER: the next ticket, or the status FLOW_FULL, whose code the spec does not give. Log entry 26 DESIGN CHOICE. -/
def fxFlowEnter (d : Dev) (die core rd f : Nat) : Dev :=
  match (coreOf d die core).running with
  | none => d
  | some n =>
    if (coreOf d die core).halted || f ≥ 16 then d else
    let d := pcNext d die core
    let r := flowOf d die f
    if r.open_.countP (fun x => x.2.2 != some none) ≥ 256 then gset (cnt (freeVal d).2 (dieWin die + 0x2001C)) die core rd (freeVal d).1
    else gset (modFlow d die f fun r => { r with next := (r.next + 1) % 2 ^ 32, open_ := r.open_ ++ [(r.next, n, none)] }) die core rd r.next
/-- FLOW_DONE and FLOW_SKIP. -/
def fxFlowBack (d : Dev) (die core f ticket : Nat) (item : Option (BitVec 64)) : Dev :=
  if (coreOf d die core).running.isNone || (coreOf d die core).halted || f ≥ 16 then d else
  let d := pcNext d die core
  if (flowOf d die f).open_.any fun x => x.1 == ticket && x.2.2.isNone then handBack d die f ticket item else flowFault d die core f
/-- TEXIT (R418, R426): the slot is free, its flags cleared; tickets left outstanding raise HTS_FLOW and are skipped. -/
def fxExit (d : Dev) (die core : Nat) : Dev :=
  match (coreOf d die core).running with
  | none => d
  | some n =>
    if (coreOf d die core).halted then d else
    let d := modSched (modCore d die core fun c => { c with running := none }) die fun s => { s with threads := tdel s.threads n }
    (List.range 16).foldl (fun d f =>
      let mine := (flowOf d die f).open_.filter fun x => x.2.1 == n && x.2.2.isNone
      if mine.isEmpty then d else flowFault (mine.foldl (fun d x => handBack d die f x.1 none) d) die core f) d
/-- HARDWARE_EVENT_FLAG (R423): a bound event sets its flag; a hardware queue that becomes non-empty holds the entry first. -/
def fxEventFlag (d : Dev) (die slot flag t : Nat) (queued : Option (Nat × Bytes)) : Dev :=
  let d := match queued with
    | none => d
    | some (q, e) => modSched d die fun s => { s with hwq := tput s.hwq q (tgetD s.hwq q [] ++ [fit 64 e]) }
  setFlag d die slot flag (ticks t)
/-- STWT (R430): the home SRAM takes the word; other copies are invalidated and the core's own copy follows it. -/
def fxStwt (fz : Fuses) (m : Mem) (d : Dev) (die core a v : Nat) : Mem × Dev :=
  if (coreOf d die core).halted then (m, d) else
  match lineOf a with
  | none => (m, enterHandler d die core 1)
  | some l =>
    if homeOf l ≥ popDies fz || a % 4 ≠ 0 then (m, enterHandler d die core 1)
    else if !dieLive d (homeOf l) then (m, enterHandler (homeLost d die core a) die core 1)
    else
      match fetchLine m d die core l true with
      | (m, d, .done data) =>
        let b := data.take (a % 64) ++ leBytes 4 v ++ data.drop (a % 64 + 4)
        (mputs m l b, pcNext (modCache d (die * 4 + core) fun c => { c with lines := tput c.lines l (true, b) }) die core)
      | (_, _, .wait true) => (m, wbStall d die)
      | _ => (m, d)

/-! ### The rows -/

/-- MCOPY. -/
def execMcopy (die core gd gs gn : Nat) (stop : Option Nat) (ce : Nat) (ue : Option Nat) (s : State) : Host.Outcome State Fault Refusal :=
  onCtl s die core fun fz m d => fxMcopy fz m d die core gd gs gn stop ce ue
/-- MFILL. -/
def execMfill (die core gd gv gn : Nat) (stop : Option Nat) (ce : Nat) (ue : Option Nat) (s : State) : Host.Outcome State Fault Refusal :=
  onCtl s die core fun fz m d => fxMfill fz m d die core gd gv gn stop ce ue
/-- QDRAIN. -/
def execQdrain (die core gd gq gn : Nat) (stop : Option Nat) (ce : Nat) (ue : Option Nat) (s : State) : Host.Outcome State Fault Refusal :=
  onCtl s die core fun fz m d => fxQdrain fz m d die core gd gq gn stop ce ue
/-- CRCB.32. -/
def execCrcb32 (die core gc gs gn : Nat) (stop : Option Nat) (ce : Nat) (ue : Option Nat) (s : State) : Host.Outcome State Fault Refusal :=
  onCtl s die core fun fz m d => fxCrcb fz m d die core gc gs gn stop ce ue false
/-- CRCB.64. -/
def execCrcb64 (die core gc gs gn : Nat) (stop : Option Nat) (ce : Nat) (ue : Option Nat) (s : State) : Host.Outcome State Fault Refusal :=
  onCtl s die core fun fz m d => fxCrcb fz m d die core gc gs gn stop ce ue true
/-- INTERRUPT_TAKE. -/
def execInterruptTake (die core : Nat) (nmi : Bool) (latency : Nat) (s : State) : Host.Outcome State Fault Refusal :=
  onCtl s die core fun _ m d => (m, fxInterrupt d die core nmi latency)
/-- TSPAWN. -/
def execTspawn (die core rd level entry arg t : Nat) (s : State) : Host.Outcome State Fault Refusal :=
  onCtl s die core fun _ m d => (m, fxSpawn d die core rd level entry arg t)
/-- TWAIT. -/
def execTwait (die core rd mask : Nat) (modeAnd : Bool) (expiry : Option Nat) (s : State) : Host.Outcome State Fault Refusal :=
  onCtl s die core fun _ m d => (m, fxWait d die core rd mask modeAnd expiry)
/-- TDELAY. -/
def execTdelay (die core expiry : Nat) (s : State) : Host.Outcome State Fault Refusal := onCtl s die core fun _ m d => (m, fxDelay d die core expiry)
/-- TYIELD. -/
def execTyield (die core t : Nat) (s : State) : Host.Outcome State Fault Refusal := onCtl s die core fun _ m d => (m, fxYield d die core t)
/-- TEXIT. -/
def execTexit (die core : Nat) (s : State) : Host.Outcome State Fault Refusal := onCtl s die core fun _ m d => (m, fxExit d die core)
/-- TSIGNAL (R423): a running thread sets a flag of a thread of its die. -/
def execTsignal (die core slot flag t : Nat) (s : State) : Host.Outcome State Fault Refusal :=
  onCtl s die core fun _ m d => (m, if (coreOf d die core).running.isNone || (coreOf d die core).halted then d else setFlag (pcNext d die core) die slot flag (ticks t))
/-- HARDWARE_EVENT_FLAG. -/
def execHardwareEventFlag (die slot flag t : Nat) (queued : Option (Nat × Bytes)) (s : State) : Host.Outcome State Fault Refusal :=
  onDie s die fun _ m d => (m, fxEventFlag d die slot flag t queued)
/-- CORE_TAKE. -/
def execCoreTake (die core t : Nat) (s : State) : Host.Outcome State Fault Refusal := onCtl s die core fun _ m d => (m, fxTake d die core t)
/-- DELAY_EXPIRY. -/
def execDelayExpiry (die tick : Nat) (s : State) : Host.Outcome State Fault Refusal := onDie s die fun _ m d => (m, fxTick d die tick)
/-- FLOW_ENTER. -/
def execFlowEnter (die core rd flow : Nat) (s : State) : Host.Outcome State Fault Refusal := onCtl s die core fun _ m d => (m, fxFlowEnter d die core rd flow)
/-- FLOW_DONE. -/
def execFlowDone (die core flow ticket item : Nat) (s : State) : Host.Outcome State Fault Refusal :=
  onCtl s die core fun _ m d => (m, fxFlowBack d die core flow ticket (some (BitVec.ofNat 64 item)))
/-- FLOW_SKIP. -/
def execFlowSkip (die core flow ticket : Nat) (s : State) : Host.Outcome State Fault Refusal := onCtl s die core fun _ m d => (m, fxFlowBack d die core flow ticket none)
/-- STWT. -/
def execStwt (die core addr v : Nat) (s : State) : Host.Outcome State Fault Refusal := onCtl s die core fun fz m d => fxStwt fz m d die core addr v
/-- COHERENCE_REQUEST. -/
def execCoherenceRequest (die core addr : Nat) (own : Bool) (victim : Option Nat) (s : State) : Host.Outcome State Fault Refusal :=
  onCtl s die core fun fz m d => fxLineReq fz m d die core addr own victim
/-- SNOOP. -/
def execSnoop (addr : Nat) (s : State) : Host.Outcome State Fault Refusal := onMem s fun _ m d => fxSnoop m d addr
/-- EVICT_CLEAN. -/
def execEvictClean (die core addr : Nat) (s : State) : Host.Outcome State Fault Refusal := onCtl s die core fun _ m d => fxNotice m d die core addr false
/-- EVICT_DIRTY. -/
def execEvictDirty (die core addr : Nat) (s : State) : Host.Outcome State Fault Refusal := onCtl s die core fun _ m d => fxNotice m d die core addr true
/-- EVICT_PENDING. -/
def execEvictPending (die core addr : Nat) (s : State) : Host.Outcome State Fault Refusal := onCtl s die core fun _ m d => fxPending m d die core addr
/-- EVICT_ACK. -/
def execEvictAck (die core addr : Nat) (s : State) : Host.Outcome State Fault Refusal := onCtl s die core fun _ m d => (m, fxEvictAck d die core addr)

end Sys2Proof.Machine
end

