-- ==== Sys2Proof/Machine/Monitor.lean ====
section
/-! DEFINITION. The serial monitor Muone (R559 to R567): levels, the unlock, commands and their replies. The spec fixes what a reply says and its last line;
the wording of the other lines is the model's. -/
namespace Sys2Proof.Machine

/-! ### Text -/

/-- A hexadecimal digit. -/
def hexChar (n : Nat) : Char := if n % 16 < 10 then Char.ofNat (48 + n % 16) else Char.ofNat (55 + n % 16)
/-- `n` hexadecimal digits of a number, most significant first. -/
def hexN (n v : Nat) : String := String.ofList ((List.range n).map fun i => hexChar (v / 16 ^ (n - 1 - i)))
/-- A 32-bit number in the style of the manual. -/
def hex32 (v : Nat) : String := "0x" ++ hexN 4 (v / 65536) ++ "_" ++ hexN 4 v
/-- A 64-bit number as four groups of digits. -/
def hex64 (v : Nat) : String := hexN 4 (v / 2 ^ 48) ++ "-" ++ hexN 4 (v / 2 ^ 32) ++ "-" ++ hexN 4 (v / 2 ^ 16) ++ "-" ++ hexN 4 v
/-- Decimal digits of a number. -/
def decStr (n : Nat) : String := String.ofList (Nat.toDigits 10 n)
/-- Names of the warden sources (R455, R505, R532). -/
def srcNames : List (Nat × String) :=
  [(0x000, "WDN_REG"), (0x001, "WDN_CFG"), (0x002, "CLK_CCLK"), (0x003, "CLK_CTCLK"), (0x004, "CLK_TCLK"), (0x005, "WDN_PATH"), (0x010, "PKG_MIRROR"),
   (0x011, "DIE_LOST"), (0x012, "TURN_OVERRUN"), (0x013, "SYNC_LEFTOVER"), (0x014, "PLAN_MISSING"), (0x015, "BERM_OVERRUN"), (0x016, "BERM_DERATED"),
   (0x017, "DMA_LATE"), (0x018, "LINK_LATE"), (0x019, "TIME_OFFSET"), (0x01A, "TIME_HOLDOVER"), (0x01B, "STORE_EXHAUSTED"), (0x01C, "HIF_DMA"),
   (0x01D, "THERM_WARN"), (0x01E, "THERM_CRIT"), (0x020, "BNK_UE"), (0x021, "BNK_TEST_FAIL"), (0x022, "SWP_WIN_ECC"), (0x023, "HBM_UE"),
   (0x024, "CTC_UE"), (0x025, "CTC_HOME_LOST"), (0x030, "SWP_DESC"), (0x031, "TNS_DESC"), (0x032, "SLV_DESC")] ++
  [(0x033, "SEL_DESC"), (0x034, "FRN_DESC"), (0x035, "DMA_DESC"), (0x036, "LTH_SLOT"), (0x037, "LTH_CODE"), (0x038, "LTH_BAR_FOREIGN"),
   (0x039, "LTH_BAR_BUSY"), (0x03A, "LTH_BAR_MISMATCH"), (0x03B, "HTS_FLOW"), (0x03C, "TNS_PRED_CAP"), (0x03D, "TNS_PRED_FAULT"), (0x03E, "TNS_PRED_SAT"),
   (0x03F, "LTH_COUNT"), (0x040, "LINK_LANE_RETIRED"), (0x041, "LINK_SPARE_FAIL"), (0x050, "TWIN_LINK"), (0x051, "TWIN_DOWN_SEEN"),
   (0x052, "TWIN_MISMATCH"), (0x053, "TWIN_DIVERGED"), (0x054, "TWIN_SEAL_LATE"), (0x055, "TWIN_DIGEST_LATE"), (0x056, "TWIN_STALE_GEN"),
   (0x057, "TWIN_NO_GRANT"), (0x058, "TWIN_FENCED"), (0x059, "TWIN_DIE_LEFT"), (0x05A, "TWIN_ATTACH_FAIL"), (0x05B, "TWIN_TL_DIFF"), (0x060, "FAB_LINK"),
   (0x061, "FAB_PEER_LOST"), (0x062, "FAB_CFG_MISMATCH")] ++
  [(0x063, "FAB_CFG_ABORT"), (0x064, "FAB_DUP_ID"), (0x065, "FAB_DUP_COORD"), (0x066, "FAB_MIRROR_STALE"), (0x067, "FAB_RETX"), (0x080, "STREAM_CRC"),
   (0x081, "STREAM_TIME"), (0x082, "STREAM_RANGE"), (0x083, "STREAM_GAP"), (0x084, "STREAM_TIMEOUT"), (0x085, "AGENT_STALE"), (0x086, "STOP_UNSAFE"),
   (0x087, "STOP_OVERLAP"), (0x088, "FLD_LINK"), (0x0F0, "FW_ASSERT")]
/-- The name of a source; reserved numbers have none. -/
def srcName (s : Nat) : String := ((srcNames.find? fun x => x.1 == s).map (·.2)).getD "-"

/-! ### Levels and replies -/

/-- The monitor record changed. -/
def modMon (d : Dev) (f : MonDev → MonDev) : Dev := { d with mon := f d.mon }
/-- Lines sent on UART_TX. -/
def uart (d : Dev) (ls : List String) : Dev := ls.foldl (fun d l => send d (.uart l)) d
/-- The monitor takes input: the part runs, and MON_CTL.en is 1 (R567). Log entry 28 DESIGN CHOICE. -/
def monUp (d : Dev) : Bool :=
  d.pin.vddIo && d.pin.pwrGood && d.pin.resetN && !d.pin.trip && d.pin.stage != 0 && bitAt (rget d 0x1000) 0
/-- The boot ROM serves the restricted monitor (R561). Log entry 80 DEDUCED. -/
def monRom (d : Dev) : Bool := decide (d.pin.stage < 4) || decide (d.pin.stage ≥ 0x80)
/-- A command that the restricted monitor accepts as well. -/
def monAny (d : Dev) (f : Dev → Dev) : Dev := if monUp d then f d else d
/-- A command of level READ that needs the firmware. -/
def monRead (d : Dev) (f : Dev → Dev) : Dev := if !monUp d then d else if monRom d then uart d ["ERR BOOT"] else f d
/-- A command of level UNLOCKED. -/
def monWrite (d : Dev) (f : Dev → Dev) : Dev := monRead d fun d => if d.mon.unlocked then f d else uart d ["ERR LEVEL"]
/-- Where the monitor may read or write: in BAR 0, aligned, not in the window of an unpopulated die (R564). -/
def monAddr (fz : Fuses) (a : Nat) : Bool :=
  a % 4 == 0 && decide (a < 0x10000000) && !(decide (dieWin (popDies fz) ≤ a) && decide (a < 0x09000000))

/-! ### Commands -/

/-- HELP: the commands of the current level. Log entry 28 DESIGN CHOICE. -/
def fxHelp (d : Dev) : Dev :=
  monAny d fun d => uart d ((if monRom d then ["HELP VER STAGE TEMP"]
    else ["HELP VER STAGE STAT TEMP RD WDN RING UNLOCK RESP LOCK"] ++ (if d.mon.unlocked then ["WR ACK"] else [])) ++ ["OK"])
/-- VER: part, stepping, versions of ROM and firmware, which the spec does not give, and the content of the image. Log entries 2 DESIGN CHOICE, 28 DESIGN CHOICE. -/
def fxVer (fz : Fuses) (d : Dev) : Dev :=
  monAny d fun d =>
    let v := freeVal d
    uart v.2 ["KV-" ++ hexN 3 (partCode fz.variant), "STEP " ++ String.singleton (Char.ofNat fz.stepLetter) ++ decStr fz.stepDigit, "ROM " ++ decStr v.1,
              "FW " ++ decStr Config.fwMajor, "IMAGE " ++ hex32 (imgContent (actImg d)), "OK"]
/-- STAGE: the boot stage. -/
def fxMonStage (d : Dev) : Dev := monAny d fun d => uart d ["0x" ++ hexN 2 d.pin.stage, "OK"]
/-- STAT. Log entry 28 DESIGN CHOICE. -/
def fxStat (d : Dev) : Dev :=
  monRead d fun d =>
    uart d [if d.pkg.twin then "TWIN" else "SIMPLEX", "ROLE " ++ decStr (twnRole d.twin.role) ++ " GEN " ++ decStr d.twin.gen, "TURN " ++ decStr d.time.turn,
            "SAFE " ++ decStr (b2n d.wdn.safe.on), "FAULT_N " ++ decStr (b2n (faultN d)), "FABRIC " ++ decStr d.fab.id, "OK"]
/-- TEMP: the junction of each die, a measurement that the spec does not fix. Log entries 2 DESIGN CHOICE, 28 DESIGN CHOICE, 32 DESIGN CHOICE. -/
def fxTemp (fz : Fuses) (d : Dev) : Dev :=
  monAny d fun d =>
    let d := (List.range (popDies fz)).foldl (fun d i => let v := freeVal d; uart v.2 ["DIE " ++ decStr i ++ " " ++ decStr (v.1 / 10) ++ "." ++ decStr (v.1 % 10)]) d
    uart d ["OK"]
/-- RD: words without side effect (R565). Log entry 28 DESIGN CHOICE. -/
def fxRd (fz : Fuses) (d : Dev) (addr n : Nat) : Dev :=
  monRead d fun d =>
    if n = 0 || n > 16 then uart d ["ERR SYNTAX"]
    else if !((List.range n).all fun i => monAddr fz (addr + 4 * i)) then uart d ["ERR ADDR"]
    else
      let d := (List.range n).foldl (fun d i => let v := peekReg fz d (addr + 4 * i); uart v.2 [hex32 (addr + 4 * i) ++ " = " ++ hex32 v.1]) d
      uart d ["OK"]
/-- One open record as the command WDN prints it. Log entry 28 DESIGN CHOICE. -/
def recLine (s : Nat) (r : WRec) : String :=
  hexN 3 s ++ " " ++ srcName s ++ " die " ++ decStr r.msg.die ++ " merge " ++ decStr r.merges ++ (if r.merged then " merged" else "") ++
  (if r.cleared then " cleared" else "") ++ (if r.severe then " severe" else "") ++ (if r.latched then " latched" else "") ++ (if r.live then " live" else "")
/-- WDN: the open records. Log entry 28 DESIGN CHOICE. -/
def fxMonWdn (d : Dev) : Dev := monRead d fun d => uart d (((d.wdn.recs.filter fun r => r.2.isOpen).map fun r => recLine r.1 r.2) ++ ["OK"])
/-- RING: the newest entries, newest last (R467, R565); the quiet tails that their reading takes are timing, which the model leaves out. Log entry 28 DESIGN CHOICE. -/
def fxRing (d : Dev) (n : Nat) : Dev :=
  monRead d fun d =>
    if n = 0 || n > 64 then uart d ["ERR SYNTAX"] else
    uart d (((d.wdn.ring.drop (d.wdn.ring.length - n)).map fun m => hexN 32 (beNat (msgBytes m))) ++ ["OK"])
/-- UNLOCK: a nonce, unless MON_CTL.ro_only or a lockout stands (R563, R567). Log entry 28 DESIGN CHOICE. -/
def fxUnlock (fz : Fuses) (d : Dev) (t : Nat) : Dev :=
  monRead (atTime d t) fun d =>
    if bitAt (rget d 0x1000) 1 then uart d ["ERR LEVEL"]
    else if d.mon.lockout then uart d ["ERR LOCKOUT"]
    else
      let v := freeVal d
      let n := v.1 % 2 ^ 64
      uart (modMon v.2 fun x => { x with nonce := some (n, t), resp := [] }) ["CHALLENGE " ++ hex64 n ++ " SERIAL " ++ hex64 fz.serial ++ " VALID 60 s", "OK"]
/-- A response that fails counts; the third in a row sets the lockout (R563). Log entry 28 DESIGN CHOICE. -/
def denied (d : Dev) : Dev :=
  let n := d.mon.fails + 1
  uart (modMon (cnt d 0x100C) fun x => { x with fails := n, lockout := x.lockout || decide (3 ≤ n) }) ["ERR DENIED"]
/-- RESP: line `i` of the response; after line 5 the signature is checked (R563). Log entry 28 DESIGN CHOICE. -/
def fxResp (fz : Fuses) (d : Dev) (i : Nat) (b : Bytes) (t : Nat) : Dev :=
  monRead (atTime d t) fun d =>
    if i > 5 || b.length ≠ 16 then uart d ["ERR SYNTAX"] else
    match d.mon.nonce with
    | none => denied d
    | some (n, t0) =>
      if t > t0 + 60000000000 then denied d else
      let d := modMon d fun x => { x with resp := tput x.resp i b }
      if i ≠ 5 then uart d ["OK"]
      else if (d.mon.resp.length == 6) && Config.unlockOk n fz.serial (d.mon.resp.flatMap (·.2)) then
        uart (modMon (cnt d 0x1008) fun x => { x with unlocked := true, fails := 0, nonce := none, resp := [] }) ["UNLOCKED", "OK"]
      else denied d
/-- LOCK. -/
def fxMonLock (d : Dev) : Dev := monRead d fun d => uart (modMon d fun x => { x with unlocked := false }) ["OK"]
/-- WR: a write as the PF makes it (R566). -/
def fxWr (fz : Fuses) (d : Dev) (addr v t : Nat) : Dev :=
  monWrite (atTime d t) fun d =>
    if !monAddr fz addr then uart d ["ERR ADDR"] else uart (cnt (writeReg fz d .monitor addr v t) 0x1010) ["OK"]
/-- ACK: a write of WDN_ACK (R566). -/
def fxMonAck (d : Dev) (source : Option Nat) (un : Bool) (t : Nat) : Dev :=
  monWrite (atTime d t) fun d =>
    if (source.getD 0) ≥ 512 then uart d ["ERR SYNTAX"] else
    uart (cnt (fxAck d (source.getD 0 + 2 ^ 30 * b2n un + 2 ^ 31 * b2n source.isNone) t) 0x1010) ["OK"]

/-! ### The rows -/

/-- HELP (R564). -/
def execHelp (s : State) : Host.Outcome State Fault Refusal := onDev s fxHelp
/-- VER (R564). -/
def execVer (s : State) : Host.Outcome State Fault Refusal := onFz s fxVer
/-- STAGE of the monitor (R564). -/
def execMonStage (s : State) : Host.Outcome State Fault Refusal := onDev s fxMonStage
/-- STAT (R564). -/
def execStat (s : State) : Host.Outcome State Fault Refusal := onDev s fxStat
/-- TEMP (R564). -/
def execTemp (s : State) : Host.Outcome State Fault Refusal := onFz s fxTemp
/-- RD (R564, R565). -/
def execRd (addr n : Nat) (s : State) : Host.Outcome State Fault Refusal := onFz s fun fz d => fxRd fz d addr n
/-- WDN of the monitor (R564). -/
def execMonWdn (s : State) : Host.Outcome State Fault Refusal := onDev s fxMonWdn
/-- RING (R564, R565). -/
def execRing (n : Nat) (s : State) : Host.Outcome State Fault Refusal := onDev s fun d => fxRing d n
/-- UNLOCK (R563). -/
def execUnlock (t : Nat) (s : State) : Host.Outcome State Fault Refusal := onFz s fun fz d => fxUnlock fz d t
/-- RESP (R563). -/
def execResp (idx : Nat) (data : Bytes) (t : Nat) (s : State) : Host.Outcome State Fault Refusal := onFz s fun fz d => fxResp fz d idx data t
/-- LOCK (R562). -/
def execLock (s : State) : Host.Outcome State Fault Refusal := onDev s fxMonLock
/-- WR (R566). -/
def execWr (addr v t : Nat) (s : State) : Host.Outcome State Fault Refusal := onFz s fun fz d => fxWr fz d addr v t
/-- ACK of the monitor (R566). -/
def execMonAck (source : Option Nat) (unlatch : Bool) (t : Nat) (s : State) : Host.Outcome State Fault Refusal :=
  onDev s fun d => fxMonAck d source unlatch t
/-- A line above 80 characters (R559). -/
def execMonLongLine (s : State) : Host.Outcome State Fault Refusal := onDev s fun d => monAny d fun d => uart d ["ERR LONG"]
/-- 15 minutes without input (R562). -/
def execMonInactivity (s : State) : Host.Outcome State Fault Refusal := onDev s fun d => modMon d fun x => { x with unlocked := false }
/-- The end of the lockout (R563). -/
def execMonLockoutExpiry (s : State) : Host.Outcome State Fault Refusal :=
  onDev s fun d => if d.mon.lockout then modMon d fun x => { x with lockout := false, fails := 0 } else d

end Sys2Proof.Machine
end

