-- ==== Sys2Proof/Machine/Dispatch.lean ====
section
/-! DEFINITION. One arm per command: a direct call of its meaning. -/
namespace Sys2Proof.Machine

/-- The effect of a command on the state (the queue apart). -/
def exec (i : Instr) (s : State) : Host.Outcome State Fault Refusal :=
  match i with
  | .nop c => Sys2Proof.Machine.execNop c s
  | .queryStatus c => Sys2Proof.Machine.execQueryStatus c s
  | .loadImage c => Sys2Proof.Machine.execLoadImage c s
  | .activateImage c => Sys2Proof.Machine.execActivateImage c s
  | .modelDefine c => Sys2Proof.Machine.execModelDefine c s
  | .primsetLoad c => Sys2Proof.Machine.execPrimsetLoad c s
  | .modelFree c => Sys2Proof.Machine.execModelFree c s
  | .primsetFree c => Sys2Proof.Machine.execPrimsetFree c s
  | .mapCreate c => Sys2Proof.Machine.execMapCreate c s
  | .mapUpdate c => Sys2Proof.Machine.execMapUpdate c s
  | .mapCommit c => Sys2Proof.Machine.execMapCommit c s
  | .mapGrant c => Sys2Proof.Machine.execMapGrant c s
  | .mapGrantRevoke c => Sys2Proof.Machine.execMapGrantRevoke c s
  | .mapDestroy c => Sys2Proof.Machine.execMapDestroy c s
  | .streamOpen c => Sys2Proof.Machine.execStreamOpen c s
  | .streamClose c => Sys2Proof.Machine.execStreamClose c s
  | .agentBind c => Sys2Proof.Machine.execAgentBind c s
  | .agentUnbind c => Sys2Proof.Machine.execAgentUnbind c s
  | .plan c => Sys2Proof.Machine.execPlan c s
  | .stopVerify c => Sys2Proof.Machine.execStopVerify c s
  | .planCancel c => Sys2Proof.Machine.execPlanCancel c s
  | .solve c => Sys2Proof.Machine.execSolve c s
  | .select c => Sys2Proof.Machine.execSelect c s
  | .snapshot c => Sys2Proof.Machine.execSnapshot c s
  | .replayPrepare c => Sys2Proof.Machine.execReplayPrepare c s
  | .replayRun c => Sys2Proof.Machine.execReplayRun c s
  | .replayEnd c => Sys2Proof.Machine.execReplayEnd c s
  | .calibKin c => Sys2Proof.Machine.execCalibKin c s
  | .calibKinAbort c => Sys2Proof.Machine.execCalibKinAbort c s
  | .calibTime c => Sys2Proof.Machine.execCalibTime c s
  | .calibTimeClear c => Sys2Proof.Machine.execCalibTimeClear c s
  | .calibLaneRun c => Sys2Proof.Machine.execCalibLaneRun c s
  | .calibLaneStop c => Sys2Proof.Machine.execCalibLaneStop c s
  | .calibLaneReport c => Sys2Proof.Machine.execCalibLaneReport c s
  | .polderCreate c => Sys2Proof.Machine.execPolderCreate c s
  | .polderModify c => Sys2Proof.Machine.execPolderModify c s
  | .polderReset c => Sys2Proof.Machine.execPolderReset c s
  | .polderDestroy c => Sys2Proof.Machine.execPolderDestroy c s
  | .twinAttach c => Sys2Proof.Machine.execTwinAttach c s
  | .twinDetach c => Sys2Proof.Machine.execTwinDetach c s
  | .twinConfig c => Sys2Proof.Machine.execTwinConfig c s
  | .fabricJoin c => Sys2Proof.Machine.execFabricJoin c s
  | .fabricAssign c => Sys2Proof.Machine.execFabricAssign c s
  | .fabricLeave c => Sys2Proof.Machine.execFabricLeave c s
  | .cfgStage c => Sys2Proof.Machine.execCfgStage c s
  | .cfgCommit c => Sys2Proof.Machine.execCfgCommit c s
  | .dieReadmit c => Sys2Proof.Machine.execDieReadmit c s
  | .hifSqTail p q v => Sys2Proof.Machine.execHifSqTail p q v s
  | .hifCqHead p q v => Sys2Proof.Machine.execHifCqHead p q v s
  | .queuePairEnable p q v => Sys2Proof.Machine.execQueuePairEnable p q v s
  | .queuePairDisable p q v => Sys2Proof.Machine.execQueuePairDisable p q v s
  | .queuePairDrained p q => Sys2Proof.Machine.execQueuePairDrained p q s
  | .commandFetch p q t packet block => Sys2Proof.Machine.execCommandFetch p q t packet block s
  | .statusReplyWrite p q => Sys2Proof.Machine.execStatusReplyWrite p q s
  | .cqCoalTimeout p q => Sys2Proof.Machine.execCqCoalTimeout p q s
  | .msixUnmask fn vec => Sys2Proof.Machine.execMsixUnmask fn vec s
  | .hifDmaError p q write => Sys2Proof.Machine.execHifDmaError p q write s
  | .flrVf p t => Sys2Proof.Machine.execFlrVf p t s
  | .flrPf => Sys2Proof.Machine.execFlrPf s
  | .hostLinkReset => Sys2Proof.Machine.execHostLinkReset s
  | .streamFrameIngress port src t frame => Sys2Proof.Machine.execStreamFrameIngress port src t frame s
  | .agentStateIngress port src t frame => Sys2Proof.Machine.execAgentStateIngress port src t frame s
  | .requestIngress port src t frame => Sys2Proof.Machine.execRequestIngress port src t frame s
  | .ptpFrame port t announce offset => Sys2Proof.Machine.execPtpFrame port t announce offset s
  | .unmatchedFrame port fcs => Sys2Proof.Machine.execUnmatchedFrame port fcs s
  | .ptpAnnounceTimeout => Sys2Proof.Machine.execPtpAnnounceTimeout s
  | .ppsInEdge t => Sys2Proof.Machine.execPpsInEdge t s
  | .holdoverExpiry => Sys2Proof.Machine.execHoldoverExpiry s
  | .clockMonitorWindow cclk ctclkOk tclkOk => Sys2Proof.Machine.execClockMonitorWindow cclk ctclkOk tclkOk s
  | .trnRun t => Sys2Proof.Machine.execTrnRun t s
  | .trnTaiSet v => Sys2Proof.Machine.execTrnTaiSet v s
  | .ledgerCutoff => Sys2Proof.Machine.execLedgerCutoff s
  | .streamTimeout n => Sys2Proof.Machine.execStreamTimeout n s
  | .tileMapChange => Sys2Proof.Machine.execTileMapChange s
  | .turnBoundary => Sys2Proof.Machine.execTurnBoundary s
  | .pinHoldExpiry map => Sys2Proof.Machine.execPinHoldExpiry map s
  | .imageActivate => Sys2Proof.Machine.execImageActivate s
  | .configActivate => Sys2Proof.Machine.execConfigActivate s
  | .releasePhase => Sys2Proof.Machine.execReleasePhase s
  | .quietTailCheck die => Sys2Proof.Machine.execQuietTailCheck die s
  | .bermOverrun die unit cyc => Sys2Proof.Machine.execBermOverrun die unit cyc s
  | .resultEgress => Sys2Proof.Machine.execResultEgress s
  | .deadlineExpiry q => Sys2Proof.Machine.execDeadlineExpiry q s
  | .budgetEnd q => Sys2Proof.Machine.execBudgetEnd q s
  | .predictorPassStart map => Sys2Proof.Machine.execPredictorPassStart map s
  | .predictorPassEnd map => Sys2Proof.Machine.execPredictorPassEnd map s
  | .bvhBuildEnd map => Sys2Proof.Machine.execBvhBuildEnd map s
  | .setBuildEnd set => Sys2Proof.Machine.execSetBuildEnd set s
  | .goalSolveEnd q => Sys2Proof.Machine.execGoalSolveEnd q s
  | .searchStep q => Sys2Proof.Machine.execSearchStep q s
  | .closingStop q => Sys2Proof.Machine.execClosingStop q s
  | .stageFinish q => Sys2Proof.Machine.execStageFinish q s
  | .footprintCover q => Sys2Proof.Machine.execFootprintCover q s
  | .calibEstimateEnd key => Sys2Proof.Machine.execCalibEstimateEnd key s
  | .calibOutcome => Sys2Proof.Machine.execCalibOutcome s
  | .calibSpanExpiry key => Sys2Proof.Machine.execCalibSpanExpiry key s
  | .laneStep link side width height => Sys2Proof.Machine.execLaneStep link side width height s
  | .replayTurn => Sys2Proof.Machine.execReplayTurn s
  | .planSeal die v => Sys2Proof.Machine.execPlanSeal die v s
  | .bundleIssue die cyc => Sys2Proof.Machine.execBundleIssue die cyc s
  | .operationStart die unit cyc ue bankCe bankUe desc => Sys2Proof.Machine.execOperationStart die unit cyc ue bankCe bankUe desc s
  | .tokenArrival die unit cyc => Sys2Proof.Machine.execTokenArrival die unit cyc s
  | .swpStage die core operand => Sys2Proof.Machine.execSwpStage die core operand s
  | .swpCheck die core operand ecc => Sys2Proof.Machine.execSwpCheck die core operand ecc s
  | .swpInval die core operand => Sys2Proof.Machine.execSwpInval die core operand s
  | .tnsLoad die core operand => Sys2Proof.Machine.execTnsLoad die core operand s
  | .tnsTable die core operand => Sys2Proof.Machine.execTnsTable die core operand s
  | .tnsLayer die core operand => Sys2Proof.Machine.execTnsLayer die core operand s
  | .slvBatch die core operand => Sys2Proof.Machine.execSlvBatch die core operand s
  | .slvRows die core operand desc => Sys2Proof.Machine.execSlvRows die core operand desc s
  | .selSort die core operand => Sys2Proof.Machine.execSelSort die core operand s
  | .selTopk die core operand => Sys2Proof.Machine.execSelTopk die core operand s
  | .selUniq die core operand => Sys2Proof.Machine.execSelUniq die core operand s
  | .selMerge die core operand => Sys2Proof.Machine.execSelMerge die core operand s
  | .frnOpen die core operand => Sys2Proof.Machine.execFrnOpen die core operand s
  | .frnPushb die core operand desc => Sys2Proof.Machine.execFrnPushb die core operand desc s
  | .frnPopb die core operand desc => Sys2Proof.Machine.execFrnPopb die core operand desc s
  | .frnClose die core operand => Sys2Proof.Machine.execFrnClose die core operand s
  | .frontierRefill die core queue => Sys2Proof.Machine.execFrontierRefill die core queue s
  | .dmaIn die operand => Sys2Proof.Machine.execDmaIn die operand s
  | .dmaOut die operand => Sys2Proof.Machine.execDmaOut die operand s
  | .dmaCtrl die operand => Sys2Proof.Machine.execDmaCtrl die operand s
  | .dmaLink die operand => Sys2Proof.Machine.execDmaLink die operand s
  | .barArm die operand cyc => Sys2Proof.Machine.execBarArm die operand cyc s
  | .route die unit operand => Sys2Proof.Machine.execRoute die unit operand s
  | .signal die unit operand cyc => Sys2Proof.Machine.execSignal die unit operand cyc s
  | .grant die unit operand cyc => Sys2Proof.Machine.execGrant die unit operand cyc s
  | .barWait die unit operand cyc => Sys2Proof.Machine.execBarWait die unit operand cyc s
  | .unitNop die unit operand => Sys2Proof.Machine.execUnitNop die unit operand s
  | .barrierRelease die ctx cyc => Sys2Proof.Machine.execBarrierRelease die ctx cyc s
  | .bankOwnerStage die bank v => Sys2Proof.Machine.execBankOwnerStage die bank v s
  | .bankTestRegion die bank fail => Sys2Proof.Machine.execBankTestRegion die bank fail s
  | .mcopy die core gd gs gn stop ce ue => Sys2Proof.Machine.execMcopy die core gd gs gn stop ce ue s
  | .mfill die core gd gv gn stop ce ue => Sys2Proof.Machine.execMfill die core gd gv gn stop ce ue s
  | .qdrain die core gd gq gn stop ce ue => Sys2Proof.Machine.execQdrain die core gd gq gn stop ce ue s
  | .crcb32 die core gc gs gn stop ce ue => Sys2Proof.Machine.execCrcb32 die core gc gs gn stop ce ue s
  | .crcb64 die core gc gs gn stop ce ue => Sys2Proof.Machine.execCrcb64 die core gc gs gn stop ce ue s
  | .interruptTake die core nmi latency => Sys2Proof.Machine.execInterruptTake die core nmi latency s
  | .tspawn die core rd level entry arg t => Sys2Proof.Machine.execTspawn die core rd level entry arg t s
  | .twait die core rd mask modeAnd expiry => Sys2Proof.Machine.execTwait die core rd mask modeAnd expiry s
  | .tdelay die core expiry => Sys2Proof.Machine.execTdelay die core expiry s
  | .tyield die core t => Sys2Proof.Machine.execTyield die core t s
  | .texit die core => Sys2Proof.Machine.execTexit die core s
  | .tsignal die core slot flag t => Sys2Proof.Machine.execTsignal die core slot flag t s
  | .hardwareEventFlag die slot flag t queued => Sys2Proof.Machine.execHardwareEventFlag die slot flag t queued s
  | .coreTake die core t => Sys2Proof.Machine.execCoreTake die core t s
  | .delayExpiry die tick => Sys2Proof.Machine.execDelayExpiry die tick s
  | .flowEnter die core rd flow => Sys2Proof.Machine.execFlowEnter die core rd flow s
  | .flowDone die core flow ticket item => Sys2Proof.Machine.execFlowDone die core flow ticket item s
  | .flowSkip die core flow ticket => Sys2Proof.Machine.execFlowSkip die core flow ticket s
  | .stwt die core addr v => Sys2Proof.Machine.execStwt die core addr v s
  | .coherenceRequest die core addr own victim => Sys2Proof.Machine.execCoherenceRequest die core addr own victim s
  | .snoop addr => Sys2Proof.Machine.execSnoop addr s
  | .evictClean die core addr => Sys2Proof.Machine.execEvictClean die core addr s
  | .evictDirty die core addr => Sys2Proof.Machine.execEvictDirty die core addr s
  | .evictPending die core addr => Sys2Proof.Machine.execEvictPending die core addr s
  | .evictAck die core addr => Sys2Proof.Machine.execEvictAck die core addr s
  | .wardenMessage m t => Sys2Proof.Machine.execWardenMessage m t s
  | .quietExpiry source die core t => Sys2Proof.Machine.execQuietExpiry source die core t s
  | .wdnHeartbeatMiss die from_ t => Sys2Proof.Machine.execWdnHeartbeatMiss die from_ t s
  | .wdnCfgCheck t => Sys2Proof.Machine.execWdnCfgCheck t s
  | .wdnLock => Sys2Proof.Machine.execWdnLock s
  | .wdnAck v t => Sys2Proof.Machine.execWdnAck v t s
  | .wdnAckAll t => Sys2Proof.Machine.execWdnAckAll t s
  | .wdnUnlatch source t => Sys2Proof.Machine.execWdnUnlatch source t s
  | .wdnInject v t => Sys2Proof.Machine.execWdnInject v t s
  | .wdnSafeClr => Sys2Proof.Machine.execWdnSafeClr s
  | .safeStateExit => Sys2Proof.Machine.execSafeStateExit s
  | .blockReset die origin => Sys2Proof.Machine.execBlockReset die origin s
  | .safeHeartbeat turn => Sys2Proof.Machine.execSafeHeartbeat turn s
  | .recMsg0Read => Sys2Proof.Machine.execRecMsg0Read s
  | .twinLinkFrame gen seq crcOk msg t => Sys2Proof.Machine.execTwinLinkFrame gen seq crcOk msg t s
  | .twinIdleTimer => Sys2Proof.Machine.execTwinIdleTimer s
  | .twinLinkLost t => Sys2Proof.Machine.execTwinLinkLost t s
  | .twinDownIn low t => Sys2Proof.Machine.execTwinDownIn low t s
  | .handover => Sys2Proof.Machine.execHandover s
  | .twinLeave => Sys2Proof.Machine.execTwinLeave s
  | .twinLedgerEntry turn e => Sys2Proof.Machine.execTwinLedgerEntry turn e s
  | .twinSeal turn digest => Sys2Proof.Machine.execTwinSeal turn digest s
  | .twinDigestList turn items => Sys2Proof.Machine.execTwinDigestList turn items s
  | .digestLate turn => Sys2Proof.Machine.execDigestLate turn s
  | .heldFrameExpiry turn => Sys2Proof.Machine.execHeldFrameExpiry turn s
  | .arbitrationTimeout => Sys2Proof.Machine.execArbitrationTimeout s
  | .twnWitAns v t => Sys2Proof.Machine.execTwnWitAns v t s
  | .tlRecordEntry payload => Sys2Proof.Machine.execTlRecordEntry payload s
  | .attachJoinTurn => Sys2Proof.Machine.execAttachJoinTurn s
  | .attachStateDigest theirs t => Sys2Proof.Machine.execAttachStateDigest theirs t s
  | .dieMessagesResume die => Sys2Proof.Machine.execDieMessagesResume die s
  | .dieBistEnd die ok coresFail => Sys2Proof.Machine.execDieBistEnd die ok coresFail s
  | .dieCopyCurrent die => Sys2Proof.Machine.execDieCopyCurrent die s
  | .hello f t => Sys2Proof.Machine.execHello f t s
  | .helloTimer => Sys2Proof.Machine.execHelloTimer s
  | .assign f t => Sys2Proof.Machine.execAssign f t s
  | .assignTimer => Sys2Proof.Machine.execAssignTimer s
  | .data f t => Sys2Proof.Machine.execData f t s
  | .ack f t => Sys2Proof.Machine.execAck f t s
  | .dataResendTimeout peer chan => Sys2Proof.Machine.execDataResendTimeout peer chan s
  | .heartbeat f t => Sys2Proof.Machine.execHeartbeat f t s
  | .fabricHeartbeatSend => Sys2Proof.Machine.execFabricHeartbeatSend s
  | .leave f => Sys2Proof.Machine.execLeave f s
  | .peerLost peer => Sys2Proof.Machine.execPeerLost peer s
  | .powerOn => Sys2Proof.Machine.execPowerOn s
  | .resetNLow us => Sys2Proof.Machine.execResetNLow us s
  | .packageReset => Sys2Proof.Machine.execPackageReset s
  | .boot cfgOk imgOk => Sys2Proof.Machine.execBoot cfgOk imgOk s
  | .bootReady failDies failCores => Sys2Proof.Machine.execBootReady failDies failCores s
  | .bootFailure stage dies cores => Sys2Proof.Machine.execBootFailure stage dies cores s
  | .thermalTrip die temp => Sys2Proof.Machine.execThermalTrip die temp s
  | .tapReset => Sys2Proof.Machine.execTapReset s
  | .bypass tdi bits => Sys2Proof.Machine.execBypass tdi bits s
  | .idcode => Sys2Proof.Machine.execIdcode s
  | .samplePreload pins tdi bits => Sys2Proof.Machine.execSamplePreload pins tdi bits s
  | .extest pins tdi bits => Sys2Proof.Machine.execExtest pins tdi bits s
  | .clamp => Sys2Proof.Machine.execClamp s
  | .highz => Sys2Proof.Machine.execHighz s
  | .spiAccess addr data => Sys2Proof.Machine.execSpiAccess addr data s
  | .smbId => Sys2Proof.Machine.execSmbId s
  | .smbStepping => Sys2Proof.Machine.execSmbStepping s
  | .smbStage => Sys2Proof.Machine.execSmbStage s
  | .smbStatus => Sys2Proof.Machine.execSmbStatus s
  | .smbDieTemp die => Sys2Proof.Machine.execSmbDieTemp die s
  | .smbHottestTemp => Sys2Proof.Machine.execSmbHottestTemp s
  | .smbRailVoltage rail => Sys2Proof.Machine.execSmbRailVoltage rail s
  | .smbInputPower => Sys2Proof.Machine.execSmbInputPower s
  | .smbSerial => Sys2Proof.Machine.execSmbSerial s
  | .smbSafeCnt => Sys2Proof.Machine.execSmbSafeCnt s
  | .smbWrite cmd data => Sys2Proof.Machine.execSmbWrite cmd data s
  | .help => Sys2Proof.Machine.execHelp s
  | .ver => Sys2Proof.Machine.execVer s
  | .monStage => Sys2Proof.Machine.execMonStage s
  | .stat => Sys2Proof.Machine.execStat s
  | .temp => Sys2Proof.Machine.execTemp s
  | .rd addr n => Sys2Proof.Machine.execRd addr n s
  | .monWdn => Sys2Proof.Machine.execMonWdn s
  | .ring n => Sys2Proof.Machine.execRing n s
  | .unlock t => Sys2Proof.Machine.execUnlock t s
  | .resp idx data t => Sys2Proof.Machine.execResp idx data t s
  | .lock => Sys2Proof.Machine.execLock s
  | .wr addr v t => Sys2Proof.Machine.execWr addr v t s
  | .monAck source unlatch t => Sys2Proof.Machine.execMonAck source unlatch t s
  | .monLongLine => Sys2Proof.Machine.execMonLongLine s
  | .monInactivity => Sys2Proof.Machine.execMonInactivity s
  | .monLockoutExpiry => Sys2Proof.Machine.execMonLockoutExpiry s
  | .regPairLowRead who addr => Sys2Proof.Machine.execRegPairLowRead who addr s
  | .regPairLowWrite who addr v => Sys2Proof.Machine.execRegPairLowWrite who addr v s
  | .regPairHighWrite who addr v t => Sys2Proof.Machine.execRegPairHighWrite who addr v t s
  | .rcRead who addr => Sys2Proof.Machine.execRcRead who addr s
  | .w1cWrite who addr v => Sys2Proof.Machine.execW1cWrite who addr v s
  | .counterClear who addr => Sys2Proof.Machine.execCounterClear who addr s
  | .registerWrite who addr v t => Sys2Proof.Machine.execRegisterWrite who addr v t s
  | .loadImageEnd => Sys2Proof.Machine.execLoadImageEnd s
  | .cfgStageEnd => Sys2Proof.Machine.execCfgStageEnd s
  | .snapshotEnd => Sys2Proof.Machine.execSnapshotEnd s
  | .fieldPortLink port up => Sys2Proof.Machine.execFieldPortLink port up s
  | .fabricPortLink port up => Sys2Proof.Machine.execFabricPortLink port up s
  | .pcieLinkUp speed width vfs => Sys2Proof.Machine.execPcieLinkUp speed width vfs s
  | .pwrGoodRise => Sys2Proof.Machine.execPwrGoodRise s
  | .twinDownInRelease => Sys2Proof.Machine.execTwinDownInRelease s
  | .powerLoss => Sys2Proof.Machine.execPowerLoss s

end Sys2Proof.Machine
end

