-- ==== Sys2Proof/Safety.lean ====
section
/-! DEFINITION. What claims mean by a sound state, by a command that runs, and by a state that differs in its device or memory only. -/
namespace Sys2Proof.Machine

/-- Byte memory is in its canonical form: every state that a step reaches from one that has it has it again. -/
def Sound (s : State) : Prop := Memory.wf s.mem = true
/-- The meaning of a command answers a next state. -/
def Completes (i : Instr) (s : State) : Prop := ∃ t, exec i s = .next t
/-- The state with another device: fuses, byte memory and queue as they were. -/
def State.withDev (s : State) (d : Dev) : State := { s with dev := d }
/-- The state with another byte memory and another device: fuses and queue as they were. -/
def State.withMem (s : State) (m : Mem) (d : Dev) : State := { s with mem := m, dev := d }
/-- The command answers the state whose device is `d`, and nothing else changed. -/
def RunsTo (i : Instr) (s : State) (d : Dev) : Prop := exec i s = .next (s.withDev d)
/-- The command answers the state whose memory is `m` and whose device is `d`, and nothing else changed. -/
def RunsToMem (i : Instr) (s : State) (m : Mem) (d : Dev) : Prop := exec i s = .next (s.withMem m d)

end Sys2Proof.Machine
end

