-- ==== Sys2Proof/WellFormed.lean ====
section
/-! DEFINITION. Which commands are well formed: every operand in the range that the spec gives it. -/
namespace Sys2Proof

/-- A die number (R20). -/
def wfDie (die : Nat) : Bool := decide (die < 8)
/-- A core of a die (R20). -/
def wfCore (core : Nat) : Bool := decide (core < 16)
/-- A control core of a die (R410). -/
def wfCtl (core : Nat) : Bool := decide (core < 4)
/-- A polder (R380). -/
def wfPolder (p : Nat) : Bool := decide (p ≤ 16)
/-- A queue pair of a polder (R351). -/
def wfQueue (q : Nat) : Bool := decide (q < 8)
/-- A 32-bit word (R8). -/
def wfWord (v : Nat) : Bool := decide (v < 2 ^ 32)
/-- A number below `n`, where one is given. -/
def wfOpt (n : Nat) : Option Nat → Bool
  | none => true
  | some k => decide (k < n)
/-- A hardware queue's entry of 64 bytes (R414). -/
def wfQueued : Option (Nat × Bytes) → Bool
  | none => true
  | some (_, e) => e.length == 64
/-- A command of opcode `op` (R360, R361): the origin agrees with the polder. -/
def wfCmd (op : Nat) (c : Cmd) : Bool :=
  c.op == op && wfPolder c.polder && decide (c.tag < 2 ^ 32) && decide (c.cls ≤ 3) && decide (c.deadline < 2 ^ 64) && decide (c.budget < 2 ^ 32) &&
  (match c.origin with
    | .host p q => p == c.polder && wfQueue q
    | .field port ag => decide (port < 8) && decide (ag < 4096)
    | .internal u => decide (u < 8)
    | .fabric id => decide (id < 64))
/-- A coded message (R450). -/
def wfMsg : Option WMsg → Bool
  | none => true
  | some m => decide (m.src < 512) && wfDie m.die && decide (m.kind < 4) && decide (m.origin < 256) && wfWord m.detail && decide (m.ts < 2 ^ 64)
/-- A fabric frame: one of four ports, a 48-bit address, at least its header (R509). -/
def wfFrame (f : FabFrame) : Bool := decide (f.port < 4) && decide (f.mac < 2 ^ 48) && decide (24 ≤ f.body.length)
/-- Cores by die and number. -/
def wfCores (l : List (Nat × Nat)) : Bool := l.all fun c => wfDie c.1 && wfCore c.2
/-- Who reaches a register. -/
def wfWho : Who → Bool
  | .host fn => wfPolder fn
  | .core die => wfDie die
  | .monitor => true
  | .bar2 => true
/-- A ledger entry (R62, R63). -/
def wfEntry (e : Entry) : Bool :=
  (decide (1 ≤ e.kind ∧ e.kind ≤ 8) || decide (0x10 ≤ e.kind ∧ e.kind ≤ 0x12)) && decide (e.source < 2 ^ 16) && wfWord e.ctr && decide (e.ts < 2 ^ 64) && wfPolder e.polder && decide (e.cls ≤ 3)

/-- Every operand is in its range. -/
def wf : Instr → Bool
  | .nop c => wfCmd 0x000 c
  | .queryStatus c => wfCmd 0x001 c
  | .loadImage c => wfCmd 0x100 c
  | .activateImage c => wfCmd 0x101 c
  | .modelDefine c => wfCmd 0x200 c
  | .primsetLoad c => wfCmd 0x201 c
  | .modelFree c => wfCmd 0x202 c
  | .primsetFree c => wfCmd 0x203 c
  | .mapCreate c => wfCmd 0x300 c
  | .mapUpdate c => wfCmd 0x301 c
  | .mapCommit c => wfCmd 0x302 c
  | .mapGrant c => wfCmd 0x303 c
  | .mapGrantRevoke c => wfCmd 0x303 c
  | .mapDestroy c => wfCmd 0x304 c
  | .streamOpen c => wfCmd 0x400 c
  | .streamClose c => wfCmd 0x401 c
  | .agentBind c => wfCmd 0x402 c
  | .agentUnbind c => wfCmd 0x402 c
  | .plan c => wfCmd 0x500 c
  | .stopVerify c => wfCmd 0x501 c
  | .planCancel c => wfCmd 0x502 c
  | .solve c => wfCmd 0x600 c
  | .select c => wfCmd 0x700 c
  | .snapshot c => wfCmd 0x800 c
  | .replayPrepare c => wfCmd 0x800 c
  | .replayRun c => wfCmd 0x800 c
  | .replayEnd c => wfCmd 0x800 c
  | .calibKin c => wfCmd 0x900 c
  | .calibKinAbort c => wfCmd 0x900 c
  | .calibTime c => wfCmd 0x901 c
  | .calibTimeClear c => wfCmd 0x901 c
  | .calibLaneRun c => wfCmd 0x902 c
  | .calibLaneStop c => wfCmd 0x902 c
  | .calibLaneReport c => wfCmd 0x902 c
  | .polderCreate c => wfCmd 0xA00 c
  | .polderModify c => wfCmd 0xA01 c
  | .polderReset c => wfCmd 0xA02 c
  | .polderDestroy c => wfCmd 0xA03 c
  | .twinAttach c => wfCmd 0xB00 c
  | .twinDetach c => wfCmd 0xB01 c
  | .twinConfig c => wfCmd 0xB02 c
  | .fabricJoin c => wfCmd 0xC00 c
  | .fabricAssign c => wfCmd 0xC01 c
  | .fabricLeave c => wfCmd 0xC02 c
  | .cfgStage c => wfCmd 0xC03 c
  | .cfgCommit c => wfCmd 0xC04 c
  | .dieReadmit c => wfCmd 0xD00 c
  | .hifSqTail p q v => wfPolder p && wfQueue q && wfWord v
  | .hifCqHead p q v => wfPolder p && wfQueue q && wfWord v
  | .queuePairEnable p q v => wfPolder p && wfQueue q && wfWord v
  | .queuePairDisable p q v => wfPolder p && wfQueue q && wfWord v
  | .queuePairDrained p q => wfPolder p && wfQueue q
  | .commandFetch p q t packet _ => wfPolder p && wfQueue q && decide (t < 2 ^ 64) && packet.length == 64
  | .statusReplyWrite p q => wfPolder p && wfQueue q
  | .cqCoalTimeout p q => wfPolder p && wfQueue q
  | .msixUnmask fn vec => decide (fn < 17) && decide (vec < 64)
  | .hifDmaError p q _ => wfPolder p && wfQueue q
  | .flrVf p t => (decide (1 ≤ p) && wfPolder p) && decide (t < 2 ^ 64)
  | .flrPf => true
  | .hostLinkReset => true
  | .streamFrameIngress port src t _ => decide (port < 8) && decide (src < 2 ^ 48) && decide (t < 2 ^ 64)
  | .agentStateIngress port src t _ => decide (port < 8) && decide (src < 2 ^ 48) && decide (t < 2 ^ 64)
  | .requestIngress port src t _ => decide (port < 8) && decide (src < 2 ^ 48) && decide (t < 2 ^ 64)
  | .ptpFrame port t _ _ => decide (port < 8) && decide (t < 2 ^ 64)
  | .unmatchedFrame port _ => decide (port < 8)
  | .ptpAnnounceTimeout => true
  | .ppsInEdge t => decide (t < 2 ^ 64)
  | .holdoverExpiry => true
  | .clockMonitorWindow _ _ _ => true
  | .trnRun t => decide (t < 2 ^ 64)
  | .trnTaiSet v => decide (v < 2 ^ 64)
  | .ledgerCutoff => true
  | .streamTimeout n => decide (n < 128)
  | .tileMapChange => true
  | .turnBoundary => true
  | .pinHoldExpiry map => decide (map < 65536)
  | .imageActivate => true
  | .configActivate => true
  | .releasePhase => true
  | .quietTailCheck die => wfDie die
  | .bermOverrun die unit cyc => wfDie die && decide (unit < 256) && decide (cyc < 2 ^ 18)
  | .resultEgress => true
  | .deadlineExpiry _ => true
  | .budgetEnd _ => true
  | .predictorPassStart map => decide (map < 65536)
  | .predictorPassEnd map => decide (map < 65536)
  | .bvhBuildEnd map => decide (map < 65536)
  | .setBuildEnd set => decide (set < 65536)
  | .goalSolveEnd _ => true
  | .searchStep _ => true
  | .closingStop _ => true
  | .stageFinish _ => true
  | .footprintCover _ => true
  | .calibEstimateEnd key => decide (key < 65536)
  | .calibOutcome => true
  | .calibSpanExpiry key => decide (key < 65536)
  | .laneStep link side width height => decide (link < 10) && decide (side < 2) && decide (width < 256) && decide (height < 256)
  | .replayTurn => true
  | .planSeal die v => wfDie die && wfWord v
  | .bundleIssue die cyc => wfDie die && decide (cyc < 2 ^ 18)
  | .operationStart die unit cyc _ bankCe bankUe _ => wfDie die && decide (unit < 256) && decide (cyc < 2 ^ 18) && wfOpt 16 bankCe && wfOpt (2 ^ 22) bankUe
  | .tokenArrival die unit cyc => wfDie die && decide (unit < 256) && decide (cyc < 2 ^ 18)
  | .swpStage die core operand => wfDie die && wfCore core && decide (operand < 2 ^ 48)
  | .swpCheck die core operand _ => wfDie die && wfCore core && decide (operand < 2 ^ 48)
  | .swpInval die core operand => wfDie die && wfCore core && decide (operand < 2 ^ 48)
  | .tnsLoad die core operand => wfDie die && wfCore core && decide (operand < 2 ^ 48)
  | .tnsTable die core operand => wfDie die && wfCore core && decide (operand < 2 ^ 48)
  | .tnsLayer die core operand => wfDie die && wfCore core && decide (operand < 2 ^ 48)
  | .slvBatch die core operand => wfDie die && wfCore core && decide (operand < 2 ^ 48)
  | .slvRows die core operand _ => wfDie die && wfCore core && decide (operand < 2 ^ 48)
  | .selSort die core operand => wfDie die && wfCore core && decide (operand < 2 ^ 48)
  | .selTopk die core operand => wfDie die && wfCore core && decide (operand < 2 ^ 48)
  | .selUniq die core operand => wfDie die && wfCore core && decide (operand < 2 ^ 48)
  | .selMerge die core operand => wfDie die && wfCore core && decide (operand < 2 ^ 48)
  | .frnOpen die core operand => wfDie die && wfCore core && decide (operand < 2 ^ 48)
  | .frnPushb die core operand _ => wfDie die && wfCore core && decide (operand < 2 ^ 48)
  | .frnPopb die core operand _ => wfDie die && wfCore core && decide (operand < 2 ^ 48)
  | .frnClose die core operand => wfDie die && wfCore core && decide (operand < 2 ^ 48)
  | .frontierRefill die core queue => wfDie die && wfCore core && decide (queue < 1024)
  | .dmaIn die operand => wfDie die && decide (operand < 2 ^ 48)
  | .dmaOut die operand => wfDie die && decide (operand < 2 ^ 48)
  | .dmaCtrl die operand => wfDie die && decide (operand < 2 ^ 48)
  | .dmaLink die operand => wfDie die && decide (operand < 2 ^ 48)
  | .barArm die operand cyc => wfDie die && decide (operand < 2 ^ 48) && decide (cyc < 2 ^ 18)
  | .route die unit operand => wfDie die && decide (unit < 256) && decide (operand < 2 ^ 48)
  | .signal die unit operand cyc => wfDie die && decide (unit < 256) && decide (operand < 2 ^ 48) && decide (cyc < 2 ^ 18)
  | .grant die unit operand cyc => wfDie die && decide (unit < 256) && decide (operand < 2 ^ 48) && decide (cyc < 2 ^ 18)
  | .barWait die unit operand cyc => wfDie die && decide (unit < 256) && decide (operand < 2 ^ 48) && decide (cyc < 2 ^ 18)
  | .unitNop die unit operand => wfDie die && decide (unit < 256) && decide (operand < 2 ^ 48)
  | .barrierRelease die ctx cyc => wfDie die && decide (ctx < 8) && decide (cyc < 2 ^ 18)
  | .bankOwnerStage die bank v => wfDie die && decide (bank < 16) && wfWord v
  | .bankTestRegion die bank _ => wfDie die && decide (bank < 16)
  | .mcopy die core gd gs gn _ _ _ => wfDie die && wfCtl core && decide (gd < 32) && decide (gs < 32) && decide (gn < 32)
  | .mfill die core gd gv gn _ _ _ => wfDie die && wfCtl core && decide (gd < 32) && decide (gv < 32) && decide (gn < 32)
  | .qdrain die core gd gq gn _ _ _ => wfDie die && wfCtl core && decide (gd < 32) && decide (gq < 32) && decide (gn < 32)
  | .crcb32 die core gc gs gn _ _ _ => wfDie die && wfCtl core && decide (gc < 32) && decide (gs < 32) && decide (gn < 32)
  | .crcb64 die core gc gs gn _ _ _ => wfDie die && wfCtl core && decide (gc < 31) && decide (gs < 32) && decide (gn < 32)
  | .interruptTake die core _ latency => wfDie die && wfCtl core && decide (latency ≤ 840)
  | .tspawn die core rd level entry arg t => wfDie die && wfCtl core && decide (rd < 32) && decide (level < 32) && decide (entry < 2 ^ 32) && decide (arg < 2 ^ 32) && decide (t < 2 ^ 64)
  | .twait die core rd mask _ expiry => wfDie die && wfCtl core && decide (rd < 32) && decide (mask < 2 ^ 32) && wfOpt (2 ^ 64) expiry
  | .tdelay die core expiry => wfDie die && wfCtl core && decide (expiry < 2 ^ 64)
  | .tyield die core t => wfDie die && wfCtl core && decide (t < 2 ^ 64)
  | .texit die core => wfDie die && wfCtl core
  | .tsignal die core slot flag t => wfDie die && wfCtl core && decide (slot < 256) && decide (flag < 32) && decide (t < 2 ^ 64)
  | .hardwareEventFlag die slot flag t queued => wfDie die && decide (slot < 256) && decide (flag < 32) && decide (t < 2 ^ 64) && wfQueued queued
  | .coreTake die core t => wfDie die && wfCtl core && decide (t < 2 ^ 64)
  | .delayExpiry die tick => wfDie die && decide (tick < 2 ^ 64)
  | .flowEnter die core rd flow => wfDie die && wfCtl core && decide (rd < 32) && decide (flow < 16)
  | .flowDone die core flow ticket item => wfDie die && wfCtl core && decide (flow < 16) && decide (ticket < 2 ^ 32) && decide (item < 2 ^ 64)
  | .flowSkip die core flow ticket => wfDie die && wfCtl core && decide (flow < 16) && decide (ticket < 2 ^ 32)
  | .stwt die core addr v => wfDie die && wfCtl core && wfWord addr && wfWord v
  | .coherenceRequest die core addr _ victim => wfDie die && wfCtl core && wfWord addr && wfOpt (2 ^ 32) victim
  | .snoop addr => wfWord addr
  | .evictClean die core addr => wfDie die && wfCtl core && wfWord addr
  | .evictDirty die core addr => wfDie die && wfCtl core && wfWord addr
  | .evictPending die core addr => wfDie die && wfCtl core && wfWord addr
  | .evictAck die core addr => wfDie die && wfCtl core && wfWord addr
  | .wardenMessage m t => wfMsg m && decide (t < 2 ^ 64)
  | .quietExpiry source die core t => decide (source < 512) && wfDie die && wfCore core && decide (t < 2 ^ 64)
  | .wdnHeartbeatMiss die from_ t => wfDie die && decide (from_ < 256) && decide (t < 2 ^ 64)
  | .wdnCfgCheck t => decide (t < 2 ^ 64)
  | .wdnLock => true
  | .wdnAck v t => wfWord v && decide (t < 2 ^ 64)
  | .wdnAckAll t => decide (t < 2 ^ 64)
  | .wdnUnlatch source t => decide (source < 512) && decide (t < 2 ^ 64)
  | .wdnInject v t => wfWord v && decide (t < 2 ^ 64)
  | .wdnSafeClr => true
  | .safeStateExit => true
  | .blockReset die origin => wfDie die && decide (origin < 256)
  | .safeHeartbeat turn => decide (turn < 2 ^ 48)
  | .recMsg0Read => true
  | .twinLinkFrame gen seq _ _ t => decide (gen < 65536) && decide (seq < 2 ^ 32) && decide (t < 2 ^ 64)
  | .twinIdleTimer => true
  | .twinLinkLost t => decide (t < 2 ^ 64)
  | .twinDownIn _ t => decide (t < 2 ^ 64)
  | .handover => true
  | .twinLeave => true
  | .twinLedgerEntry turn e => decide (turn < 2 ^ 48) && wfEntry e
  | .twinSeal turn digest => decide (turn < 2 ^ 48) && decide (digest < 2 ^ 64)
  | .twinDigestList turn _ => decide (turn < 2 ^ 48)
  | .digestLate turn => decide (turn < 2 ^ 48)
  | .heldFrameExpiry turn => decide (turn < 2 ^ 48)
  | .arbitrationTimeout => true
  | .twnWitAns v t => wfWord v && decide (t < 2 ^ 64)
  | .tlRecordEntry _ => true
  | .attachJoinTurn => true
  | .attachStateDigest theirs t => decide (theirs < 2 ^ 64) && decide (t < 2 ^ 64)
  | .dieMessagesResume die => wfDie die
  | .dieBistEnd die _ coresFail => wfDie die && decide (coresFail < 65536)
  | .dieCopyCurrent die => wfDie die
  | .hello f t => wfFrame f && decide (t < 2 ^ 64)
  | .helloTimer => true
  | .assign f t => wfFrame f && decide (t < 2 ^ 64)
  | .assignTimer => true
  | .data f t => wfFrame f && decide (t < 2 ^ 64)
  | .ack f t => wfFrame f && decide (t < 2 ^ 64)
  | .dataResendTimeout peer chan => decide (peer < 64) && decide (chan < 4)
  | .heartbeat f t => wfFrame f && decide (t < 2 ^ 64)
  | .fabricHeartbeatSend => true
  | .leave f => wfFrame f
  | .peerLost peer => decide (peer < 64)
  | .powerOn => true
  | .resetNLow _ => true
  | .packageReset => true
  | .boot _ _ => true
  | .bootReady failDies failCores => decide (failDies < 256) && wfCores failCores
  | .bootFailure stage dies cores => decide (stage < 256) && decide (dies < 256) && wfCores cores
  | .thermalTrip die _ => wfDie die
  | .tapReset => true
  | .bypass _ _ => true
  | .idcode => true
  | .samplePreload _ _ _ => true
  | .extest _ _ _ => true
  | .clamp => true
  | .highz => true
  | .spiAccess addr _ => decide (addr < 2 ^ 32)
  | .smbId => true
  | .smbStepping => true
  | .smbStage => true
  | .smbStatus => true
  | .smbDieTemp die => wfDie die
  | .smbHottestTemp => true
  | .smbRailVoltage rail => decide (rail < 256)
  | .smbInputPower => true
  | .smbSerial => true
  | .smbSafeCnt => true
  | .smbWrite cmd _ => decide (cmd < 256)
  | .help => true
  | .ver => true
  | .monStage => true
  | .stat => true
  | .temp => true
  | .rd addr _ => wfWord addr
  | .monWdn => true
  | .ring _ => true
  | .unlock t => decide (t < 2 ^ 64)
  | .resp _ _ t => decide (t < 2 ^ 64)
  | .lock => true
  | .wr addr v t => wfWord addr && wfWord v && decide (t < 2 ^ 64)
  | .monAck source _ t => wfOpt 512 source && decide (t < 2 ^ 64)
  | .monLongLine => true
  | .monInactivity => true
  | .monLockoutExpiry => true
  | .regPairLowRead who addr => wfWho who && decide (addr < 2 ^ 37)
  | .regPairLowWrite who addr v => wfWho who && decide (addr < 2 ^ 37) && wfWord v
  | .regPairHighWrite who addr v t => wfWho who && decide (addr < 2 ^ 37) && wfWord v && decide (t < 2 ^ 64)
  | .rcRead who addr => wfWho who && decide (addr < 2 ^ 37)
  | .w1cWrite who addr v => wfWho who && decide (addr < 2 ^ 37) && wfWord v
  | .counterClear who addr => wfWho who && decide (addr < 2 ^ 37)
  | .registerWrite who addr v t => wfWho who && decide (addr < 2 ^ 37) && wfWord v && decide (t < 2 ^ 64)
  | .loadImageEnd => true
  | .cfgStageEnd => true
  | .snapshotEnd => true
  | .fieldPortLink port _ => decide (port < 8)
  | .fabricPortLink port _ => decide (port < 4)
  | .pcieLinkUp speed width vfs => decide (3 ≤ speed) && decide (speed ≤ 6) && (width == 4 || width == 8 || width == 16) && decide (vfs ≤ 16)
  | .pwrGoodRise => true
  | .twinDownInRelease => true
  | .powerLoss => true

/-- A command that may be given to the part. -/
abbrev WellFormed (i : Instr) : Prop := wf i = true

end Sys2Proof
end

