-- ==== Sys2Proof/Certificates/Slice0/Obligations.lean ====
section
/-! DEFINITION. The statements for the provers. Where a meaning answers `s.withDev d` or `s.withMem m d`, the equation is also the frame: nothing
of the state that `d` (and `m`) does not say has changed. -/
open Sys2Proof Sys2Proof.Machine

/-! ### The queue, the memory and the whole machine -/

/-- With a command at the front of the queue a step is that command's meaning on the state with the queue's rest. -/
def Obligations.StepRunsFront : Prop :=
  ∀ (c : Instr) (rest : List Instr) (s : State), step { s with pending := c :: rest } = exec c { s with pending := rest }

/-- Every step keeps the canonical form of the byte memory. -/
def Obligations.StepKeepsMemoryForm : Prop := ∀ s t : State, Sound s → step s = .next t → Sound t

/-- The byte memory after reset is in its canonical form, and no command waits. -/
def ResetIsSound : Prop := Sound State.reset ∧ State.reset.pending = []

/-- No command changes what is fused into the package (R2, R33, R44, R558) or the commands that wait behind it. -/
def Obligations.FusesAndQueueKept : Prop :=
  ∀ (c : Instr) (s t : State), exec c s = .next t → t.fuses = s.fuses ∧ t.pending = s.pending

/-- A well-formed command always answers a next state: no operand, mode or data of the machine ends a run. -/
def Obligations.WellFormedCompletes : Prop := ∀ (c : Instr) (s : State), wf c = true → ∃ t, exec c s = .next t

/-! ### Commands of the host: models, maps, streams, agents -/

/-- NOP answers OK in its ledger turn; the reply of a pair that is enabled waits in the pair's list, in order of its turn and index (R364, R366). -/
def NopAnswersOk : Prop :=
  ∀ (c : Cmd) (s : State),
    exec (.nop c) s = .next (s.withDev (ok s.dev c)) ∧
    ∀ (p q : Nat) (pr : PairRec), c.origin = .host p q → tget s.dev.host.pairs (pairKey p q) = some pr → pr.enabled = true → lostReply pr c.seq = false →
      ∃ r : Reply, r.tag = c.tag ∧ r.status = 0 ∧ r.detail = 0 ∧ r.admitted = s.dev.time.turn ∧ r.due = s.dev.time.turn ∧
        ok s.dev c = { s.dev with host := { s.dev.host with
          pairs := tput s.dev.host.pairs (pairKey p q) { pr with waiting := queueReply pr.waiting r } } }

/-- The commands on models and primitive sets that pass the tests of R572 have their effect, answer OK with the handle, and change nothing else:
MODEL_DEFINE makes a model or gives it a definition that forms at the turn's end, PRIMSET_LOAD a set; MODEL_FREE and PRIMSET_FREE remove
one that nothing holds; SET_BUILD_END turns a build into a version that is due (R130 to R142, R368). -/
def Obligations.ModelCommandsRun : Prop :=
  ∀ (c : Cmd) (s : State),
    (firstFail (modelDefineTests s.dev c) = none → fld c.block 0 2 = 0xffff →
      let h := (lowestFree s.dev.world.models 1024).getD 0
      let m : ModelRec := { (default : ModelRec) with
        owner := ownerOf c (fld c.block 2 1), kind := fld (c.block.drop 8) 0 1, due := some (c.block.drop 8) }
      exec (.modelDefine c) s = .next (s.withDev (ok { s.dev with world := { s.dev.world with models := tput s.dev.world.models h m } } c h))) ∧
    (firstFail (modelDefineTests s.dev c) = none → fld c.block 0 2 ≠ 0xffff →
      exec (.modelDefine c) s =
        .next (s.withDev (ok (modModel s.dev (fld c.block 0 2) fun m => { m with due := some (c.block.drop 8) }) c (fld c.block 0 2)))) ∧
    (firstFail (primsetLoadTests s.dev c) = none →
      exec (.primsetLoad c) s = .next (s.withDev
        (ok { s.dev with world := { s.dev.world with sets := tput s.dev.world.sets (primsetSlot s.dev c) (primsetRec s.dev c) } } c (primsetSlot s.dev c)))) ∧
    (∀ m : ModelRec, c.block.length = 4 → allZero (slice c.block 2 2) = true → fld c.block 0 2 ≤ 1023 → tget s.dev.world.models (fld c.block 0 2) = some m → m.owner = c.polder →
      modelHeld s.dev (fld c.block 0 2) m = false →
      exec (.modelFree c) s = .next (s.withDev (ok (modModel s.dev (fld c.block 0 2) fun m => { m with removed := true }) c))) ∧
    (∀ p : SetRec, c.block.length = 4 → allZero (slice c.block 2 2) = true → fld c.block 0 2 ≤ 255 → tget s.dev.world.sets (fld c.block 0 2) = some p → p.owner = c.polder →
      setHeld s.dev (fld c.block 0 2) p = false →
      exec (.primsetFree c) s = .next (s.withDev (ok (modSet s.dev (fld c.block 0 2) fun m => { m with removed := true }) c))) ∧
    (∀ (h v : Nat) (raw : Bytes) (p : SetRec) (b : SetBuild), tget s.dev.world.sets h = some p → p.build = some b → b.modelVer = some (v, raw) →
      exec (.setBuildEnd h) s = .next (s.withDev
        (modSet s.dev h fun x => { x with build := none, due := some { ver := 0, raw := b.raw, buildOf := x.model, buildVer := v, buildModel := raw } })))

/-- The commands on maps that pass their tests have their effect, answer OK, and change nothing else: MAP_CREATE takes the lowest free handle and
returns it; MAP_UPDATE stages its records and starts a build where they change static geometry; MAP_COMMIT makes the staged set an event of the
next formation and empties it; MAP_GRANT and its revoke form change the grants; MAP_DESTROY marks the map (R92 to R119). -/
def Obligations.MapCommandsRun : Prop :=
  ∀ (c : Cmd) (s : State) (m : MapRec),
    (firstFail (mapCreateTests s.dev c) = none →
      let h := (lowestFree s.dev.world.maps 64).getD 0
      exec (.mapCreate c) s = .next (s.withDev (ok { s.dev with world := { s.dev.world with maps := tput s.dev.world.maps h (mapCreateRec s.dev c) } } c h))) ∧
    (∀ (rs : List (Nat × Nat × Bytes)) (st : Staged), updRecs ((c.block.drop 8).length + 1) (c.block.drop 8) = some rs → 8 ≤ c.block.length →
      allZero (slice c.block 3 5) = true → tget s.dev.world.maps (fld c.block 0 2) = some m → m.removed = false → isMirrorLocal s.dev (fld c.block 0 2) = false →
      m.owner = c.polder → fld c.block 0 2 ≤ 63 → rs.all (recInRange (some m)) = true → stageAll m (stagedOf m) rs = .ok st → st.objs.length ≤ 1048576 → total (st.objs.map fun o => o.2.tris.length) ≤ 16777216 →
      st.bytes ≤ 67108864 → storeFull s.dev (st.bytes - m.staged.bytes) = false → quotaFull s.dev m.owner (st.bytes - m.staged.bytes) = false →
      exec (.mapUpdate c) s = .next (s.withDev (ok (modMap s.dev (fld c.block 0 2) fun m => { m with
        staged := st, build := if rs.any (fun r => r.1 ≤ 3) then .start (s.dev.time.turn + 1) else m.build }) c rs.length))) ∧
    (c.block.length = 4 → allZero (slice c.block 2 2) = true → fld c.block 0 2 ≤ 63 → tget s.dev.world.maps (fld c.block 0 2) = some m → m.removed = false →
      isMirrorLocal s.dev (fld c.block 0 2) = false → m.owner = c.polder →
      (m.staged.statics = false →
        exec (.mapCommit c) s = .next (s.withDev (ok (modMap s.dev (fld c.block 0 2) fun x => { x with
          events := x.events ++ [(2, .commit m.staged.vox none)], staged := default }) c (nextVer m)))) ∧
      (∀ (prims : List Prim) (bvh : List BvhNode), m.staged.statics = true → m.build = .ready prims bvh →
        exec (.mapCommit c) s = .next (s.withDev (ok (modMap s.dev (fld c.block 0 2) fun x => { x with
          events := x.events ++ [(2, .commit m.staged.vox (some (m.staged.touched, m.staged.objs, prims, bvh)))], staged := default, build := .idle }) c (nextVer m))))) ∧
    (c.block.length = 4 → fld c.block 0 1 ≤ 63 → fld c.block 1 1 ≤ 16 → fld c.block 2 1 ≤ 1 → fld c.block 3 1 = 0 →
      tget s.dev.world.maps (fld c.block 0 1) = some m → m.removed = false → m.owner = c.polder ∨ c.polder = 0 →
      (fld c.block 2 1 = 0 → exec (.mapGrant c) s = .next (s.withDev (ok (modMap s.dev (fld c.block 0 1) fun x => { x with
        grantNext := x.grantNext.filter (· != fld c.block 1 1) ++ [fld c.block 1 1] }) c))) ∧
      exec (.mapGrantRevoke c) s = .next (s.withDev (ok (modMap s.dev (fld c.block 0 1) fun x => { x with
        grantNext := x.grantNext.filter (· != fld c.block 1 1) }) c))) ∧
    (c.block.length = 4 → allZero (slice c.block 2 2) = true → fld c.block 0 2 ≤ 63 → tget s.dev.world.maps (fld c.block 0 2) = some m → m.removed = false → m.owner = c.polder →
      mapHeld s.dev (fld c.block 0 2) m = false →
      exec (.mapDestroy c) s = .next (s.withDev (ok (modMap s.dev (fld c.block 0 2) fun m => { m with removed := true }) c)))

/-- The commands on streams and agents that pass their tests have their effect, answer OK with the number, and change nothing else: STREAM_OPEN,
STREAM_CLOSE (which ends the stream's time estimate with result 8), AGENT_BIND of a new and of a bound agent, and AGENT_BIND with unbind set
(R122 to R124, R145 to R148). -/
def Obligations.StreamAndAgentCommandsRun : Prop :=
  ∀ (c : Cmd) (s : State),
    (firstFail (streamOpenTests s.dev c) = none →
      let n := (lowestFree s.dev.world.streams 128).getD 0
      exec (.streamOpen c) s = .next (s.withDev (ok { s.dev with world := { s.dev.world with streams := tput s.dev.world.streams n (streamRec s.dev c) } } c n))) ∧
    (∀ x : StreamRec, c.block.length = 4 → allZero (slice c.block 2 2) = true → fld c.block 0 2 ≤ 127 → tget s.dev.world.streams (fld c.block 0 2) = some x →
      x.polder = c.polder → x.closeTurn = none → streamHeld s.dev (fld c.block 0 2) = false →
      exec (.streamClose c) s = .next (s.withDev (ok (endEstimate
        (modStream s.dev (fld c.block 0 2) fun x => { x with closeTurn := some s.dev.time.turn }) (1024 + fld c.block 0 2) 8) c))) ∧
    (fld c.block 2 1 = 0 → firstFail (agentBindTests s.dev c) = none → fld c.block 0 2 = 0xffff →
      let n := (lowestFree s.dev.world.agents 4096).getD 0
      let a : AgentRec := { (default : AgentRec) with
        polder := c.polder, bind := bindOf c.block, tile := bestTile s.dev c.polder, charge := bindCharge s.dev c, chargeNext := bindCharge s.dev c, fresh := true }
      exec (.agentBind c) s = .next (s.withDev (ok { s.dev with world := { s.dev.world with agents := tput s.dev.world.agents n a } } c n))) ∧
    (fld c.block 2 1 = 0 → firstFail (agentBindTests s.dev c) = none → fld c.block 0 2 ≠ 0xffff →
      exec (.agentBind c) s = .next (s.withDev (ok (modAgent s.dev (fld c.block 0 2) fun a => { a with
        next := some (bindOf c.block), chargeNext := bindCharge s.dev c }) c (fld c.block 0 2)))) ∧
    (∀ a : AgentRec, c.block.length = 64 → fld c.block 0 2 ≤ 4095 → fld c.block 2 1 = 1 → tget s.dev.world.agents (fld c.block 0 2) = some a →
      a.polder = c.polder → a.leaving = false →
      exec (.agentUnbind c) s = .next (s.withDev (ok (unbindAgent s.dev (fld c.block 0 2)) c (fld c.block 0 2))) ∧ exec (.agentBind c) s = exec (.agentUnbind c) s)

/-! ### Commands of the host: queries, records, calibration, polders -/

/-- The conditions on which a PLAN is entered in its ledger turn: its block and header are in range, its tag is free, its agent is the polder's
and bound, and the maps, sets and model it names may be used (R118, R158, R210, R218, R219, R363). -/
def planEnters (d : Dev) (c : Cmd) (a : AgentRec) : Prop :=
  planRangeOk c (some (kinN (curModelRaw d a.bind.model))) = true ∧ qHeadOk c = true ∧ tagTaken d c.polder c.tag = false ∧
  tget d.world.agents (planOf c).agent = some a ∧ a.polder = c.polder ∧ a.leaving = false ∧ (planSlots (planOf c) a.bind).isSome = true ∧
  ((a.bind.homeMap :: (planOf c).maps).all fun h => mapUsable d c.polder h) = true ∧ heurOk d c.polder (planOf c).heur = true ∧
  sameSlices d (a.bind.homeMap :: (planOf c).maps) = true

/-- A PLAN, STOP_VERIFY, SOLVE or SELECT that passes its tests takes a place with its stamp and the activation pass of its turn follows;
PLAN_CANCEL ends the polder's live queries of its tag with CANCELLED, answers OK with 1 where there was one and 0 where not, and changes nothing
else (R55, R218, R239, R244, R278, R297, R397, R398). -/
def Obligations.QueryCommandsRun : Prop :=
  ∀ (c : Cmd) (s : State) (a : AgentRec),
    (planEnters s.dev c a → exec (.plan c) s = .next (s.withDev (activationPass (enterQuery s.dev c (planOf c).agent (ctrlOf a))))) ∧
    (c.block.length = 4 → fld c.block 0 2 ≤ 4095 → fld c.block 2 1 ≤ 1 → fld c.block 3 1 = 0 → c.cls = 0 → qHeadOk c = true →
      (∀ port ag, c.origin = .field port ag → ag = fld c.block 0 2) → tagTaken s.dev c.polder c.tag = false →
      tget s.dev.world.agents (fld c.block 0 2) = some a → a.polder = c.polder → a.leaving = false → a.state ≠ 0 →
      exec (.stopVerify c) s = .next (s.withDev (activationPass (enterQuery s.dev c (fld c.block 0 2) (ctrlOf a))))) ∧
    (∀ m : ModelRec, solveBlockOk c = true → qHeadOk c = true → solveModelOk (modelDef m) c = true → tagTaken s.dev c.polder c.tag = false →
      tget s.dev.world.models (fld c.block 2 2) = some m → m.owner = c.polder → m.kind = 1 → m.removed = false → m.vers ≠ [] →
      (bitAt (fld c.block 1 1) 0 = true → tget s.dev.world.agents (fld c.block 4 2) = some a ∧ a.polder = c.polder ∧ a.bind.model = fld c.block 2 2 ∧
        a.state ≠ 0 ∧ a.snap.isSome = true) →
      exec (.solve c) s = .next (s.withDev (activationPass (enterQuery s.dev c (fld c.block 4 2) (0, 0, 0))))) ∧
    (selBlkOk c.block (c.cls == 0) = true → qHeadOk c = true → tagTaken s.dev c.polder c.tag = false →
      exec (.select c) s = .next (s.withDev (activationPass (enterQuery s.dev c 0 (0, 0, 0))))) ∧
    (c.block.length = 4 →
      let ids := ((liveQueries s.dev).filter fun q => q.2.cmd.polder == c.polder && q.2.cmd.tag == fld c.block 0 4).map (·.1)
      exec (.planCancel c) s = .next (s.withDev (ok (endQueries s.dev ids stCancelled 0) c (if ids.isEmpty then 0 else 1))))

/-- A query that is entered keeps every other query's record, takes the next number, and holds the command with its turn and index as its stamp (R55, R62). -/
def Obligations.EnterQueryFrame : Prop :=
  ∀ (d : Dev) (c : Cmd) (ag : Nat) (ctrl : Nat × Nat × Nat),
    (enterQuery d c ag ctrl).q.next = d.q.next + 1 ∧
    (∀ n, n ≠ d.q.next → tget (enterQuery d c ag ctrl).q.recs n = tget d.q.recs n) ∧
    (∃ q, tget (enterQuery d c ag ctrl).q.recs d.q.next = some q ∧ q.cmd = c ∧ q.admTurn = d.time.turn ∧ q.admIndex = d.ldg.pos ∧ q.stage = .entered ∧ q.agent = ag) ∧
    { enterQuery d c ag ctrl with q := d.q } = d

/-- Where its tiles lie on live dies, BUDGET_END of a search that has used its budget ends it on its budget, and of a SOLVE or SELECT that computes completes it; DEADLINE_EXPIRY ends a
query that still waits past its deadline turn with TIME_LIMITED, a SELECT with the head of its result block, and a search with its best node (R68, R69, R231, R232,
R276, R301, R400). -/
def Obligations.QueryEndsRun : Prop :=
  ∀ (n : Nat) (s : State) (q : QueryRec), tget s.dev.q.recs n = some q →
    (stuck s.dev q = false → q.stage = .search → q.cmd.budget ≤ q.expansions → exec (.budgetEnd n) s = .next (s.withDev (endBudget s.dev n q))) ∧
    (stuck s.dev q = false → q.stage = .compute → q.kind = .solve → exec (.budgetEnd n) s = .next (s.withDev (solveEnd s.dev n q))) ∧
    (stuck s.dev q = false → q.stage = .compute → q.kind = .select → exec (.budgetEnd n) s = .next (s.withDev (selectEnd s.dev n q))) ∧
    (deadlineTurn s.dev q.cmd ≤ s.dev.time.turn → waitsSlot q = true → q.foreign = false → exec (.deadlineExpiry n) s = .next (s.withDev (endQuery s.dev n stTimeLimited 0
      (if q.kind = .select then some (selResult q.cmd.block default true) else none)))) ∧
    (deadlineTurn s.dev q.cmd ≤ s.dev.time.turn → waitsSlot q = false → q.stage = .search →
      exec (.deadlineExpiry n) s = .next (s.withDev (endSearch s.dev n (bestNode q.tiles (q.start.getD default)) false true)))

/-- LEDGER_CTL in its five uses: SNAPSHOT schedules a copy and SNAPSHOT_END answers with its size, whatever that free value is; REPLAY_PREPARE waits for
the end of its ledger turn; REPLAY_RUN reads the records of its buffer, which is all it reads of the memory; REPLAY_END stops the turns (R86, R87, R374). -/
def Obligations.RecordCommandsRun : Prop :=
  ∀ (c : Cmd) (s : State), c.polder = 0 →
    (ctlOk c 1 = true → s.dev.time.turn + 2 ≤ ctlTurn c → ctlTurn c ≤ s.dev.time.turn + 10000 → s.dev.ldg.replay = false → s.dev.ldg.snapshot = none →
      exec (.snapshot c) s = .next (s.withDev { s.dev with ldg := { s.dev.ldg with snapshot := some (ctlTurn c, s.dev.time.turn, c) } })) ∧
    (∀ (t adm : Nat) (x : Snap), s.dev.ldg.snapshot = some (t, adm, c) → s.dev.host.taken = some x →
      let n := Config.freeNat s.dev.free; let fits := n * 4096 ≤ ctlLen c;
      exec .snapshotEnd s = .next (s.withDev (reply { s.dev with
        free := s.dev.free + 1, ldg := { s.dev.ldg with snapshot := none },
        host := { s.dev.host with taken := none, snaps := if fits then tput s.dev.host.snaps (ctlAddr c) x else s.dev.host.snaps } }
        c (if fits then 0 else stBadRange) n none adm 0 0 0))) ∧
    (ctlOk c 2 = true → attached s.dev = false → s.dev.ldg.preparing = none → s.dev.ldg.replay = false →
      exec (.replayPrepare c) s = .next (s.withDev { s.dev with ldg := { s.dev.ldg with preparing := some (c, s.dev.time.turn) } })) ∧
    (ctlOk c 3 = true → s.dev.ldg.replay = true → s.dev.ldg.replayRun = none →
      exec (.replayRun c) s = .next (s.withDev { s.dev with ldg := { s.dev.ldg with
        replayRun := some (c, readRecords (ctlLen c / 48) none (mgets s.mem (hostBase + ctlAddr c) (ctlLen c))), replayDone := 0, replayDiff := false } })) ∧
    (ctlOk c 4 = true → s.dev.ldg.replay = true →
      exec (.replayEnd c) s = .next (s.withDev (modTime (rfield (modLdg (irq (outside s.dev c 0 0) 0 59) fun l => { l with
        replay := false, prepared := none, replayRun := none }) 0x500000 3 3 0) fun t => { t with started := false, running := false })))

/-- The calibration commands start, end and report: CALIB_KIN starts an idle estimate, its abort form ends a running one with result 9; CALIB_TIME starts
one on a stream, its clear form also sets the stream's offset to 0; CALIB_LANE only reports in mode 2, starts receivers in mode 1 and lets them stop
in mode 0. Each is answered at the turn's end with its record (R433, R435, R439, R444, R445). -/
def CalibCommandsRun : Prop :=
  ∀ (c : Cmd) (s : State),
    (∀ (m : ModelRec) (a : AgentRec), c.block.length = 8 → fld c.block 0 2 ≤ 1023 → fld c.block 2 2 ≤ 4095 → fld c.block 7 1 = 0 →
      tget s.dev.world.models (fld c.block 0 2) = some m → m.owner = c.polder → m.kind = 1 → tget s.dev.world.agents (fld c.block 2 2) = some a →
      a.polder = c.polder → a.bind.model = fld c.block 0 2 → a.leaving = false →
      (exec (.calibKinAbort c) s = .next (s.withDev (askCal (endEstimate s.dev (fld c.block 0 2) 9) c))) ∧
      (fld c.block 6 1 ≤ 1 → 8 ≤ fld c.block 4 2 → fld c.block 4 2 ≤ 1024 → kinRunning s.dev < 16 →
        (estOf s.dev (fld c.block 0 2) 1 (fld c.block 0 2)).state = 0 →
        ∃ e : CalRec, exec (.calibKin c) s = .next (s.withDev (askCal (setEst s.dev (fld c.block 0 2) e) c)) ∧ e.kind = 1 ∧ e.state = 1 ∧
          e.polder = c.polder ∧ e.agent = fld c.block 2 2 ∧ e.want = fld c.block 4 2 ∧ e.start = s.dev.time.turn ∧ e.apply = (fld c.block 6 1 == 1))) ∧
    (∀ x : StreamRec, c.block.length = 4 → fld c.block 0 1 ≤ 127 → allZero (slice c.block 2 2) = true → tget s.dev.world.streams (fld c.block 0 1) = some x →
      x.polder = c.polder →
      (exec (.calibTimeClear c) s = .next (s.withDev (askCal (modStream (endEstimate s.dev (1024 + fld c.block 0 1) 9) (fld c.block 0 1) fun x => { x with offs := 0, offsNext := none }) c))) ∧
      (fld c.block 1 1 ≤ 1 → (estOf s.dev (1024 + fld c.block 0 1) 2 (fld c.block 0 1)).state = 0 →
        ∃ e : CalRec, exec (.calibTime c) s = .next (s.withDev (askCal (setEst s.dev (1024 + fld c.block 0 1) e) c)) ∧ e.state = 1 ∧ e.polder = c.polder ∧
          e.start = s.dev.time.turn ∧ e.timeSamples = [] ∧ e.apply = (fld c.block 1 1 == 1) ∧ e.want = bits (rget s.dev (calBase 0 + 8)) 11 0)) ∧
    (c.polder = 0 → c.block.length = 8 → fld c.block 0 2 ≤ 0x3ff → fld c.block 3 1 = 0 →
      exec (.calibLaneReport c) s = .next (s.withDev (askCal s.dev c)) ∧
      (∃ l : CalDev, exec (.calibLaneStop c) s = .next (s.withDev (askCal { s.dev with cal := l } c)) ∧ l.est = s.dev.cal.est ∧ l.mask = s.dev.cal.mask ∧
        l.period = s.dev.cal.period) ∧
      (1 ≤ fld c.block 4 4 → fld c.block 4 4 ≤ 2 ^ 24 →
        ∃ l : CalDev, exec (.calibLaneRun c) s = .next (s.withDev (askCal { s.dev with cal := l } c)) ∧ l.est = s.dev.cal.est ∧ l.mask = fld c.block 0 2 ∧
          l.period = fld c.block 4 4 % 2 ^ 24 ∧ l.laneStart = s.dev.time.turn))

/-- The events of a calibration: a fit that has its samples computes corrections and ends with the result of R439's tests; the span of an estimate that
still takes samples ends it with result 3; the oldest outcome that is due leaves the list; a lane's measurement that is good moves the receiver on
(R434, R437 to R440, R444, R446). -/
def CalibEventsRun : Prop :=
  ∀ (s : State) (key : Nat) (e : CalRec),
    (tget s.dev.cal.est key = some e →
      (e.state = 2 → e.kind = 1 →
        let r := kinFit e.raw e.kinSamples (bits (rget s.dev (calBase 0)) 3 0)
        exec (.calibEstimateEnd key) s = .next (s.withDev (endEstimate (setEst (fitWork s.dev e r.2) key { e with
          corr := r.1.1, m := r.1.1.length, before := r.1.2.1, after := r.1.2.2, used := e.kinSamples.length }) key (kinOutcome s.dev e r)))) ∧
      (e.state = 1 → e.start + rget s.dev (calBase 0 + 0xC) ≤ s.dev.time.turn →
        exec (.calibSpanExpiry key) s = .next (s.withDev (endEstimate (setEst s.dev key { e with
          used := if e.kind = 1 then e.kinSamples.length else e.timeSamples.length }) key 3)))) ∧
    (∀ (t : Nat) (rest : List (Nat × CalRec)), s.dev.cal.outcomes = (t, e) :: rest → t ≤ s.dev.time.turn →
      ∃ d, exec .calibOutcome s = .next (s.withDev d) ∧ d.cal.outcomes = rest) ∧
    (∀ (link side width height : Nat), link ≤ 9 → side ≤ 1 → (laneOf s.dev link side).running = true → (laneOf s.dev link side).stopping = false →
      (laneOf s.dev link side).lane < 64 → running s.dev = false →
      let die := if side = 0 then (linkDies link).1 else (linkDies link).2
      bits (rget s.dev (calBase die + 0x10)) 7 0 ≤ width → bits (rget s.dev (calBase die + 0x10)) 15 8 ≤ height →
      let l := laneOf s.dev link side
      let l' : LaneRec := { l with failed := false, lane := l.lane + 1, minW := min l.minW width, minH := min l.minH height }
      exec (.laneStep link side width height) s =
        .next (s.withDev { s.dev with cal := { s.dev.cal with lanes := tput s.dev.cal.lanes (link * 2 + side) l' } }))

/-- The conditions on which POLDER_CREATE with a named number makes it (R370, R382). -/
def polderMakes (d : Dev) (c : Cmd) : Prop :=
  polderRange c.block = true ∧ 1 ≤ fld c.block 0 1 ∧ fld c.block 0 1 ≤ 16 ∧ (polder d (fld c.block 0 1)).state = 0 ∧
  (polder d (fld c.block 0 1)).creating = false ∧ cfgPolder d (fld c.block 0 1) = false ∧ slicesDue d 99 + fld c.block 8 2 ≤ bermLen d

/-- The polder commands that pass their tests: POLDER_CREATE and POLDER_MODIFY give values that start with the next turn; POLDER_RESET discards what runs at
once and sets state 2; POLDER_DESTROY sets state 3. Each answers OK (R382, R385 to R389). -/
def Obligations.PolderCommandsRun : Prop :=
  ∀ (c : Cmd) (s : State), c.polder = 0 →
    (polderMakes s.dev c →
      exec (.polderCreate c) s = .next (s.withDev (ok (modPolder s.dev (fld c.block 0 1) fun x => { (default : PolderRec) with
        state := x.state, creating := true, next := some (polderVals c.block), resetCnt := x.resetCnt }) c (fld c.block 0 1)))) ∧
    (let p := fld c.block 0 1;
      let x := polder s.dev p
      polderRange c.block = true → 1 ≤ p → p ≤ 16 → x.state = 1 ∨ x.state = 2 → cfgPolder s.dev p = false → useQ s.dev p ≤ fld c.block 10 2 →
      mapsOf s.dev p ≤ fld c.block 12 1 → streamsOf s.dev p ≤ fld c.block 13 1 → agentsOf s.dev p ≤ fld c.block 14 2 →
      (fld c.block 16 4 = 0 ∨ polderStore s.dev p ≤ fld c.block 16 4 * 1048576) → slicesDue s.dev p + fld c.block 8 2 ≤ bermLen s.dev →
      sliceHolds s.dev p (fld c.block 8 2) = true →
      exec (.polderModify c) s = .next (s.withDev (ok (modPolder s.dev p fun x => { x with next := some (polderVals c.block) }) c))) ∧
    (let p := fld c.block 0 1;
      c.block.length = 4 → 1 ≤ p → p ≤ 16 → allZero (slice c.block 1 3) = true → (polder s.dev p).state = 1 →
      exec (.polderReset c) s = .next (s.withDev (ok (resetPolder s.dev p) c)) ∧
      (cfgPolder s.dev p = false → foreignPin s.dev p = false →
        exec (.polderDestroy c) s = .next (s.withDev (ok (modPolder (resetPolder s.dev p) p fun x => { x with state := 3 }) c))))

/-! ### Images, configuration bundles, twins, fabric -/

/-- Program images: LOAD_IMAGE of bytes in format and range fills the standby slot and waits for the verdict; LOAD_IMAGE_END answers with the signature's
verdict, whatever it is; ACTIVATE_IMAGE sets the activation turn; IMAGE_ACTIVATE switches the slots in that turn (R340 to R342). -/
def ImageCommandsRun : Prop :=
  ∀ (c : Cmd) (s : State), c.polder = 0 →
    (imgFormatOk c.block = true → imgRangeOk c.block = true → predsFit s.dev c.block = true → s.dev.img.at_ = none → s.dev.img.loading = none →
      exec (.loadImage c) s = .next (s.withDev (if fld c.block 16 1 = Config.fwMajor then { s.dev with img := { s.dev.img with
        standby := false, slots := tput s.dev.img.slots (1 - s.dev.img.active) { raw := c.block, ready := false }, loading := some (c, s.dev.time.turn) } }
        else answer { s.dev with img := { s.dev.img with standby := false } } c stBadState 0))) ∧
    (∀ turn : Nat, s.dev.img.loading = some (c, turn) →
      ∃ d, exec .loadImageEnd s = .next (s.withDev d) ∧ d.img.loading = none ∧ d.img.standby = Config.imageSigned (imgRaw s.dev (1 - s.dev.img.active)) ∧
        d.img.active = s.dev.img.active ∧ d.regs = s.dev.regs ∧ d.ldg = s.dev.ldg) ∧
    (c.block.length = 8 → fld c.block 6 2 = 0 → s.dev.img.standby = true → s.dev.time.turn + 1 < fld c.block 0 6 →
      slotsHold s.dev (imgRaw s.dev (1 - s.dev.img.active)) = true → fabricMember s.dev = false →
      exec (.activateImage c) s = .next (s.withDev (ok { s.dev with img := { s.dev.img with at_ := some (fld c.block 0 6) } } c))) ∧
    (∀ a : Nat, s.dev.img.at_ = some a → a ≤ s.dev.time.turn →
      ∃ d, exec .imageActivate s = .next (s.withDev d) ∧ d = switchImage s.dev ∧ d.img.active = 1 - s.dev.img.active ∧ d.img.at_ = none ∧ d.img.standby = true)

/-- Configuration bundles: CFG_STAGE of a bundle that passes every check of R529 is verified, CFG_STAGE_END stages it and answers with its generation,
CFG_COMMIT sets the commit turn, and CONFIG_ACTIVATE in that turn applies a bundle that fits whole, or, where it does not fit, nothing but the abort's
mark and signal (R529 to R531). -/
def BundleCommandsRun : Prop :=
  ∀ (c : Cmd) (s : State), c.polder = 0 →
    (let raw := c.block.drop 8;
      ∀ l : List (Nat × Nat × Nat × Bytes), 72 ≤ c.block.length → fld c.block 0 2 = 0 → allZero (slice c.block 3 5) = true → fld raw 6 2 = 0 →
      allZero (slice raw 40 24) = true → 1 ≤ fld raw 4 2 → fld raw 4 2 ≤ 2048 → fld raw 0 4 = ((s.dev.fab.cfg.map (·.gen)).getD 0 + 1) % 2 ^ 32 →
      sha256 (raw.drop 64) = slice raw 8 32 → bundleSecs (fld raw 4 2) (raw.drop 64) = some l →
      (∀ k ∈ [1, 4, 5, 6], (l.filter fun s => s.1 == k).length ≤ 1) → l.findSome? (secFail s.dev l) = none → s.dev.fab.commitTurn = none → s.dev.ldg.replay = false →
      storeFull s.dev (bundleStore s.dev l) = false → s.dev.fab.staging = none →
      exec (.cfgStage c) s = .next (s.withDev { s.dev with fab := { s.dev.fab with
        staging := some ({ gen := fld raw 0 4, digest := slice raw 8 32, secs := l }, c, s.dev.time.turn) } })) ∧
    (∀ (b : BundleRec) (turn : Nat), s.dev.fab.staging = some (b, c, turn) →
      exec .cfgStageEnd s = .next (s.withDev (reply { s.dev with fab := { s.dev.fab with staging := none, staged := some b } } c 0 b.gen none turn 0 0 0))) ∧
    (∀ b : BundleRec, c.block.length = 12 → fld c.block 10 2 = 0 → s.dev.fab.staged = some b → b.gen = fld c.block 0 4 →
      s.dev.time.turn + 4 ≤ fld c.block 4 6 → s.dev.fab.commitTurn = none → s.dev.ldg.replay = false →
      exec (.cfgCommit c) s = .next (s.withDev (ok { s.dev with fab := { s.dev.fab with commitTurn := some (fld c.block 4 6) } } c (fld c.block 0 4)))) ∧
    (∀ (b : BundleRec) (t : Nat), s.dev.fab.commitTurn = some t → s.dev.fab.staged = some b → t ≤ s.dev.time.turn →
      ∃ d, exec .configActivate s = .next (s.withDev d) ∧ d.fab.commitTurn = none ∧
        (commitFits s.dev b = true → d.fab.cfg = some b ∧ d.fab.staged = none) ∧
        (commitFits s.dev b = false → d.fab.cfg = s.dev.fab.cfg ∧ d.fab.aborted = true ∧ d.regs = s.dev.regs ∧ d.pld = s.dev.pld ∧ d.world = s.dev.world ∧ d.img = s.dev.img))

/-- Commands on the pair and on dies: TWIN_ATTACH of a detached package whose twin can be heard sends its facts; TWIN_DETACH is due at the turn's end;
TWIN_CONFIG writes TWN_CFG and TWN_WIN; a fenced die comes back through DIE_MESSAGES_RESUME, DIE_BIST_END, DIE_COPY_CURRENT and DIE_READMIT
(R370, R487, R500 to R504). -/
def Obligations.TwinCommandsRun : Prop :=
  ∀ (c : Cmd) (s : State),
    (c.polder = 0 → s.dev.pkg.twin = true → s.dev.twin.attachCmd = none → s.dev.twin.role = .detached → s.dev.twin.linkUp = true → s.dev.twin.downIn = false →
      exec (.twinAttach c) s = .next (s.withDev (startCheck s.fuses s.dev c))) ∧
    (c.polder = 0 → s.dev.pkg.twin = true →
      exec (.twinDetach c) s = .next (s.withDev (ok { s.dev with twin := { s.dev.twin with leaving := true } } c s.dev.twin.gen))) ∧
    (c.polder = 0 → s.dev.pkg.twin = true → c.block.length = 12 → fld c.block 0 1 ≤ 1 → fld c.block 1 1 ≤ 63 → fld c.block 2 1 ≤ 1 → fld c.block 3 1 = 0 →
      1 ≤ fld c.block 4 2 → fld c.block 4 2 ≤ 255 → fld c.block 6 2 = 0 → 1 ≤ fld c.block 8 4 → fld c.block 8 4 ≤ 1000000 →
      exec (.twinConfig c) s = .next (s.withDev (ok (rset (rset s.dev 0x300000
        (fld c.block 4 2 * 2 ^ 24 + fld c.block 2 1 * 2 ^ 14 + fld c.block 1 1 * 2 ^ 8 + fld c.block 0 1)) 0x300004 (fld c.block 8 4)) c))) ∧
    (∀ (die : Nat) (good : Bool) (bad : Nat),
      (dieSt s.dev die = 1 → exec (.dieMessagesResume die) s = .next (s.withDev (setDie (cnt s.dev 0x300038) die 2))) ∧
      (dieSt s.dev die = 2 → exec (.dieBistEnd die good bad) s = .next (s.withDev
        (setDie (modTwin s.dev fun x => { x with coresFail := tput x.coresFail die (bad % 65536) }) die (if good then 3 else 1)))) ∧
      (dieSt s.dev die = 3 → exec (.dieCopyCurrent die) s = .next (s.withDev (setDie s.dev die 4))) ∧
      (c.polder = 0 → c.block.length = 4 → die = fld c.block 0 1 → 2 ≤ die → die ≤ 7 → allZero (slice c.block 1 3) = true → dieSt s.dev die = 4 →
        s.dev.twin.role ≠ .lead → s.dev.twin.role ≠ .follow →
        ∃ d n, exec (.dieReadmit c) s = .next (s.withDev (ok d c n)) ∧ dieSt d die = 0 ∧ d.pkg.live = s.dev.pkg.live ||| 2 ^ die ∧ d.pkg.dirty = true ∧
          tget d.pkg.svc die = some (tgetD s.dev.twin.coresFail die 0)))

/-- Events of the twin link (R484, R485, R487, R494 to R498): an in-sequence frame is taken and the next number is expected, one of an older generation
having no other effect; one with a bad CRC or out of sequence has none; an idle timer sends; a lost link with DOWN high, a pin seen low and LEAVE change the role of
a lead and of a follow as R487 says; a grant gives an arbitrating package the lead, a refusal or two turns without one quarantine it. -/
def Obligations.TwinEventsRun : Prop :=
  ∀ (s : State) (t : Nat), s.dev.pkg.twin = true →
    (∀ (gen seq : Nat) (msg : TwinMsg), (s.dev.twin.linkUp = true → seq = s.dev.twin.rxSeq) → let x := { s.dev.twin with linkUp := true, rxSeq := seq + 1 };
      (∃ d, exec (.twinLinkFrame s.dev.twin.gen seq true .idle t) s = .next (s.withDev d) ∧ d.twin = x ∧ d.world = s.dev.world ∧ d.q = s.dev.q) ∧
      (s.dev.twin.role ≠ .attaching → s.dev.twin.role ≠ .detached → attachMsg msg = false → gen ≠ s.dev.twin.gen → newerGen gen s.dev.twin.gen = false →
        ∃ d, exec (.twinLinkFrame gen seq true msg t) s = .next (s.withDev d) ∧ d.twin = x ∧ d.world = s.dev.world ∧ d.q = s.dev.q ∧ d.ldg = s.dev.ldg)) ∧
    (∀ (gen seq : Nat) (crcOk : Bool) (msg : TwinMsg), crcOk = false ∨ (s.dev.twin.linkUp = true ∧ seq ≠ s.dev.twin.rxSeq) →
      exec (.twinLinkFrame gen seq crcOk msg t) s = .next s) ∧
    (s.dev.twin.linkUp = true →
      exec .twinIdleTimer s = .next (s.withDev { s.dev with
        twin := { s.dev.twin with txSeq := s.dev.twin.txSeq + 1 }, out := s.dev.out ++ [.twin s.dev.twin.gen s.dev.twin.txSeq .idle] })) ∧
    (s.dev.twin.linkUp = true → s.dev.twin.downIn = false → s.dev.twin.role = .follow ∨ s.dev.twin.role = .lead → s.dev.twin.attach = 0 →
      ∃ d, exec (.twinLinkLost t) s = .next (s.withDev d) ∧ d.twin.role = .arbitrating ∧ d.twin.linkUp = false ∧
        d.twin.witGen = some ((s.dev.twin.gen + 1) % 65536, if s.dev.twin.role = .follow then 1 else 0) ∧ d.twin.arbFrom = some s.dev.time.turn) ∧
    (s.dev.twin.role = .lead →
      (∃ d, exec (.twinDownIn true t) s = .next (s.withDev d) ∧ d.twin.role = .solo ∧ d.twin.gen = s.dev.twin.gen ∧ d.twin.downIn = true) ∧
      ∃ d, exec .twinLeave s = .next (s.withDev d) ∧ d.twin.role = .solo ∧ d.twin.gen = s.dev.twin.gen) ∧
    (s.dev.twin.role = .follow →
      (∃ d, exec (.twinDownIn true t) s = .next (s.withDev d) ∧ d.twin.role = .solo ∧ d.twin.gen = (s.dev.twin.gen + 1) % 65536 ∧ d.twin.downIn = true) ∧
      (∃ d, exec .handover s = .next (s.withDev d) ∧ d.twin.role = .solo ∧ d.twin.gen = (s.dev.twin.gen + 1) % 65536) ∧
      ∃ d, exec .twinLeave s = .next (s.withDev d) ∧ d.twin.role = .solo ∧ d.twin.gen = (s.dev.twin.gen + 1) % 65536) ∧
    (∃ d, exec .twinDownInRelease s = .next (s.withDev d) ∧ d.twin.downIn = false ∧ d.twin.role = s.dev.twin.role ∧ d.world = s.dev.world) ∧
    (∀ (v prev : Nat), s.dev.twin.role = .arbitrating → s.dev.twin.witGen = some (bits v 15 0, prev) →
      (bitAt v 31 = true →
        ∃ d, exec (.twnWitAns v t) s = .next (s.withDev d) ∧ d.twin.role = .solo ∧ d.twin.gen = (s.dev.twin.gen + 1) % 65536 ∧ d.twin.witGen = none) ∧
      (bitAt v 31 = false → ∃ d, exec (.twnWitAns v t) s = .next (s.withDev d) ∧ d.twin.role = .quarantined ∧ d.twin.witGen = none)) ∧
    (∀ from_ : Nat, s.dev.twin.arbFrom = some from_ → from_ + 2 ≤ s.dev.time.turn → s.dev.twin.role = .arbitrating →
      ∃ d, exec .arbitrationTimeout s = .next (s.withDev d) ∧ d.twin.role = .quarantined ∧ d.twin.witGen = none ∧ d.twin.arbFrom = none)

/-- What the twins exchange for a turn (R488 to R493, R500): a follow keeps the entries the lead streams and accepts a seal that agrees with its own digest
of them; the digest list of a turn that has not ended waits; a late list counts and raises; held frames are let go of after two turns; the join turn
begins; equal state digests end an attach with a new generation. -/
def Obligations.TwinTurnsRun : Prop :=
  ∀ (s : State) (turn : Nat),
    (s.dev.twin.role = .follow →
      (∀ e : Entry, exec (.twinLedgerEntry turn e) s = .next (s.withDev { s.dev with twin := { s.dev.twin with
        tail := tput s.dev.twin.tail turn (tgetD s.dev.twin.tail turn [] ++ [e]) } })) ∧
      (∀ digest : Nat, digest = ledgerDigest s.dev turn false false ((tget s.dev.twin.seals (turn - 1)).getD s.dev.ldg.digest) (orderEntries (tgetD s.dev.twin.tail turn [])) →
        exec (.twinSeal turn digest) s = .next (s.withDev { s.dev with
          twin := { s.dev.twin with seals := tput s.dev.twin.seals turn digest }, ldg := { s.dev.ldg with opened := tdel s.dev.ldg.opened turn } })) ∧
      (∀ items : List (Nat × Nat × Nat), s.dev.time.turn ≤ turn →
        exec (.twinDigestList turn items) s = .next (s.withDev { s.dev with twin := { s.dev.twin with peerLists := tput s.dev.twin.peerLists turn items } })) ∧
      (ownItems s.dev turn ≠ [] → tget s.dev.twin.peerLists turn = none → turn < s.dev.time.turn →
        exec (.digestLate turn) s = .next (s.withDev (raise (cnt s.dev 0x300030) 0x055 0 0xD8 0)))) ∧
    (turn + 3 ≤ s.dev.time.turn →
      exec (.heldFrameExpiry turn) s = .next (s.withDev (dropFrames s.dev (fun f => f.waits && !f.equal && f.turn == turn) 0x302 0))) ∧
    (s.dev.twin.attach = 4 → s.dev.twin.attachTurn ≤ s.dev.time.turn →
      exec .attachJoinTurn s = .next (s.withDev { s.dev with twin := { s.dev.twin with attach := 5 } })) ∧
    (∀ (theirs t : Nat), 4 ≤ s.dev.twin.attach → s.dev.twin.joinDigest = some theirs → s.dev.twin.role = .attaching →
      ∃ d, exec (.attachStateDigest theirs t) s = .next (s.withDev d) ∧ d.twin.role = .follow ∧ d.twin.gen = (s.dev.twin.gen + 1) % 65536 ∧ d.twin.attach = 0) ∧
    (∀ (payload : Bytes) (id : Nat) (q : QueryRec),
      ((liveQueries s.dev).find? fun q => q.2.kind == .plan && q.2.cmd.tag == fld payload 0 4 && (planOf q.2.cmd).agent == fld payload 4 2 && needsTl s.dev q.2) = some (id, q) →
      q.tlPlaced = false → q.stage = .ready → s.dev.twin.role ≠ .follow →
      let content := payload.take (96 + 32 * fld payload 6 1)
      exec (.tlRecordEntry payload) s = .next (s.withDev (takeRecord s.dev id q content)))

/-- Commands and timers of the fabric (R511, R513 to R516): FABRIC_JOIN seeks an id, FABRIC_ASSIGN gives one, FABRIC_LEAVE leaves; the timers send HELLO,
ASSIGN, DATA again and heartbeats; a peer not heard for 3,000 turns is lost; a link change is taken and the ports chosen anew. -/
def FabricCommandsRun : Prop :=
  ∀ (c : Cmd) (s : State),
    (c.polder = 0 → c.block.length = 4 → fld c.block 0 1 ≤ 1 → allZero (slice c.block 1 3) = true → s.dev.fab.state = .unjoined → s.dev.ldg.replay = false →
      exec (.fabricJoin c) s = .next (s.withDev (ok { s.dev with fab := { s.dev.fab with
        state := .seeking, coord := bitAt (fld c.block 0 1) 0, leaves := 0 } } c 0xffffffff))) ∧
    (c.polder = 0 → c.block.length = 12 → fld c.block 0 8 = s.fuses.serial → fld c.block 8 1 ≤ 63 → allZero (slice c.block 9 3) = true → s.dev.fab.coord = true →
      s.dev.fab.state = .seeking → s.dev.fab.otherCoord = [] → s.dev.fab.seen = [] → s.dev.fab.assigning = [] → idHeard s.dev (fld c.block 8 1) s.fuses.serial = false →
      exec (.fabricAssign c) s = .next (s.withDev (ok (takeId s.dev (fld c.block 8 1)) c))) ∧
    (c.polder = 0 → s.dev.fab.state ≠ .unjoined → ∃ d, exec (.fabricLeave c) s = .next (s.withDev (ok d c)) ∧ d.fab.state = .unjoined ∧ d.fab.coord = false ∧
      d.fab.peers = [] ∧ d.fab.leaves = 2 ∧ d.regs = s.dev.regs ∧ d.world = s.dev.world) ∧
    (s.dev.fab.state = .assigned ∨ s.dev.fab.state = .seeking →
      exec .helloTimer s = .next (s.withDev (fabAll s.dev (fabFrame s.dev 1 0 0xff 0 0 false (helloBytes s.fuses s.dev)))) ∧
      exec .assignTimer s = .next (s.withDev (s.dev.fab.assigning.foldl (fun d a =>
        fabAll d (fabFrame d 2 0 0xff 0 0 false (leBytes 8 a.1 ++ leBytes 1 a.2 ++ zeros 7))) s.dev))) ∧
    (∀ peer ch : Nat, (chanOf s.dev peer ch).unacked ≠ [] →
      exec (.dataResendTimeout peer ch) s =
        (let d := modChan (resendAll s.dev peer ch) peer ch fun x => { x with unacked := (chanOf s.dev peer ch).unacked.map fun u => (u.1, u.2.1, u.2.2 + 1) }
         let runs := ((chanOf d peer ch).unacked.filter fun u => u.2.2 % 8 == 0).length
         .next (s.withDev ((List.range runs).foldl (fun d _ => raise d 0x067 0 0xF0 peer) (cnt d 0x400090 runs))))) ∧
    (s.dev.fab.state = .assigned → s.dev.time.turn % 1000 = 0 → running s.dev = true →
      exec .fabricHeartbeatSend s = .next (s.withDev (fabAll s.dev (fabFrame s.dev 5 0 0xff 0 0 false (helloBytes s.fuses s.dev ++ leBytes 6 s.dev.time.turn ++
        leBytes 1 (roleCode s.dev) ++ zeros 1 ++ leBytes 2 s.dev.twin.gen ++ zeros 2 ++ leBytes 4 ((s.dev.fab.staged.map (·.gen)).getD 0)))))) ∧
    (∀ (peer : Nat) (p : PeerRec), tget s.dev.fab.peers peer = some p → p.alive = true → p.heard + 3000 ≤ s.dev.time.turn → s.dev.fab.mirrors = [] →
      exec (.peerLost peer) s = .next (s.withDev (assertLive (dropChans (modFab s.dev fun x => { x with
        peers := tmod x.peers peer fun p => { p with alive := false } }) peer) 0x061 0 0xF0 peer))) ∧
    (∀ (port : Nat) (up : Bool), port < 4 → ∃ d, exec (.fabricPortLink port up) s = .next (s.withDev d) ∧ bitAt d.fab.up port = up ∧
      (∀ p, p < 4 → p ≠ port → bitAt d.fab.up p = bitAt s.dev.fab.up p) ∧ d.regs = s.dev.regs)

/-- Frames of the fabric (R509 to R517): an accepted frame is heard and handled as its type says; a frame that R512 drops counts and does nothing else. -/
def FabricFramesRun : Prop :=
  ∀ (f : FabFrame) (t : Nat) (s : State), fabOpen s.dev f = true →
    (fabBad s.dev f = false →
      let d := heardFrom (atTime s.dev t) (fabFrom f)
      exec (.hello f t) s = .next (s.withDev (meet s.fuses d f.mac (fabPayload f))) ∧
      (fld (fabPayload f) 0 8 = s.fuses.serial → s.dev.fab.state = .seeking → fld (fabPayload f) 8 1 ≤ 63 → idHeard d (fld (fabPayload f) 8 1) s.fuses.serial = false →
        exec (.assign f t) s = .next (s.withDev (takeId d (fld (fabPayload f) 8 1)))) ∧
      (fld f.body 3 1 = s.dev.fab.id → s.dev.fab.state = .assigned →
        exec (.ack f t) s = .next (s.withDev (takeAck d (fabFrom f) (bits (fld f.body 1 1) 2 0) (fld f.body 8 4)))) ∧
      (let d' := meet s.fuses d f.mac (fabPayload f); let b := fabPayload f; let id := fld b 12 1;
        (tget d'.fab.peers id).isSome = true → fld b 0 8 ≠ s.fuses.serial →
        let diff := fld b 24 4 != (d'.fab.cfg.map (·.gen)).getD 0 || slice b 28 32 != fit 32 ((d'.fab.cfg.map (·.digest)).getD [])
        exec (.heartbeat f t) s = .next (s.withDev
          (setLive (modFab d' fun x => { x with peers := tmod x.peers id fun p => { p with differs := diff } }) 0x062 0 0xF0 id diff))) ∧
      (fld f.body 3 1 = s.dev.fab.id → s.dev.fab.state = .assigned → bits (fld f.body 1 1) 2 0 = 1 → fabFrom f ≤ 63 → bitAt (fld f.body 14 1) 0 = false →
        let d1 := takeAck d (fabFrom f) 1 (fld f.body 8 4)
        (chanOf d1 (fabFrom f) 1).expect = fld f.body 4 4 →
        let d2 := modChan d1 (fabFrom f) 1 fun c => { c with expect := (fld f.body 4 4 + 1) % 2 ^ 32 }
        exec (.data f t) s = .next (s.withDev (takeWitness s.fuses
          (fabTo d2 (fabFrom f) (fabFrame d2 4 1 (fabFrom f) 0 (chanOf d2 (fabFrom f) 1).expect false [])) (fabFrom f) (fabPayload f))))) ∧
    (fabBad s.dev f = true →
      exec (.hello f t) s = .next (s.withDev (cnt s.dev 0x400094)) ∧ exec (.assign f t) s = .next (s.withDev (cnt s.dev 0x400094)) ∧
      exec (.ack f t) s = .next (s.withDev (cnt s.dev 0x400094)) ∧ exec (.heartbeat f t) s = .next (s.withDev (cnt s.dev 0x400094)) ∧
      exec (.data f t) s = .next (s.withDev (cnt s.dev 0x400094)) ∧ exec (.leave f) s = .next (s.withDev (cnt s.dev 0x400094))) ∧
    (fabBad s.dev f = false →
      let d := heardFrom (atTime s.dev s.dev.time.now) (fabFrom f)
      let others := d.fab.otherCoord.filter (· != fld (fabPayload f) 0 8)
      exec (.leave f) s = .next (s.withDev (setLive (modFab d fun x => { x with otherCoord := others }) 0x065 0 0xF0 0 (d.fab.coord && !others.isEmpty))))

/-! ### The host interface, field ports, time -/

/-- Doorbells and the life of a queue pair (R351, R352, R354, R357, R379): a tail below the SQ's size is taken and one at or above it only sets HIF_DMA's bit; a
head releases entries up to it; enable starts a pair anew, disable lets it drain, and the pair has drained when nothing of it is outstanding. -/
def QueuePairsRun : Prop :=
  ∀ (p q v : Nat) (s : State),
    (v % 4096 < sqSize s.dev p q → exec (.hifSqTail p q v) s = .next (s.withDev (modPair s.dev p q fun x => { x with sqTail := v % 4096 }))) ∧
    (sqSize s.dev p q ≤ v % 4096 → exec (.hifSqTail p q v) s = .next (s.withDev (stick s.dev 0x700008 1))) ∧
    (∀ k : Nat, v % 4096 < cqSize s.dev p q → 1 ≤ k → k < cqSize s.dev p q → k ≤ (pairOf s.dev p q).cqNext - (pairOf s.dev p q).cqHost →
      v % 4096 = ((pairOf s.dev p q).cqHost + k) % cqSize s.dev p q →
      exec (.hifCqHead p q v) s = .next (s.withDev (modPair s.dev p q fun x => { x with cqHost := x.cqHost + k }))) ∧
    (bitAt v 0 = true → (pairOf s.dev p q).enabled = false → (pairOf s.dev p q).busy = false →
      exec (.queuePairEnable p q v) s = .next (s.withDev (modPair (rset (rset s.dev (pageReg p q 0) (qCfg v)) (pageReg p q 0x24) 0) p q fun x =>
        { (default : PairRec) with enabled := true, phase := true, fetchCtr := x.fetchCtr, lost := x.lost }))) ∧
    (bitAt v 0 = false → (pairOf s.dev p q).enabled = true →
      ∃ d, exec (.queuePairDisable p q v) s = .next (s.withDev d) ∧ (pairOf d p q).enabled = false ∧ bitAt (rget d (pageReg p q 0)) 0 = false ∧
        (pairOf d p q).busy = (decide (0 < (pairOf s.dev p q).outstanding) || (pairOf s.dev p q).chunk.isSome) ∧ (pairOf d p q).waiting = (pairOf s.dev p q).waiting) ∧
    ((pairOf s.dev p q).busy = true → (pairOf s.dev p q).outstanding = 0 → (pairOf s.dev p q).chunk = none →
      exec (.queuePairDrained p q) s = .next (s.withDev (modPair s.dev p q fun x => { x with busy := false })))

/-- A due reply without a result is written to its CQ entry when the queue has room: 32 bytes at the entry's host address, the next entry follows, one command
less is outstanding (R354 to R356, R364). -/
def StatusReplyWritten : Prop :=
  ∀ (p q : Nat) (r : Reply) (rest : List Reply) (s : State), (pairOf s.dev p q).waiting = r :: rest → replyDue s.dev r = true → cqFull s.dev p q = false →
    r.result = none → r.noIrq = true →
    let x := pairOf s.dev p q; let n := cqSize s.dev p q;
    ∃ d, exec (.statusReplyWrite p q) s = .next (s.withDev d) ∧
      d.out = s.dev.out ++ [.hostWrite (pairAddr s.dev p q 0x10 + 32 * (x.cqNext % n)) (replyBytes s.dev r (x.cqNext / n % 2 == 0) q 0xffffffff)] ∧
      (pairOf d p q).cqNext = x.cqNext + 1 ∧ (pairOf d p q).waiting = rest ∧ (pairOf d p q).outstanding = x.outstanding - 1 ∧ (pairOf d p q).cqHost = x.cqHost ∧
      (rest = [] → d.regs = s.dev.regs) ∧ d.world = s.dev.world

/-- A packet that passes the checks of R362 is taken from its queue and placed in the ledger of its arrival: a command of class 1 to 3 whose block lies in the
packet, while the host share of that ledger has room (R59, R60, R62, R353). A packet that fails one is answered with the check's status and counted. -/
def Obligations.CommandFetchRuns : Prop :=
  ∀ (p q t : Nat) (packet block : Bytes) (s : State), mayFetch s.dev p q = true → (pairOf (atTime s.dev t) p q).chunk = none →
    let d := atTime s.dev t; let turn := entryTurn d t; let c := fetched d p q packet block;
    let r := fetchCheck d turn t c packet (some (ringSize d p q));
    (∀ st det item, r.1 = some (st, det, item) →
      exec (.commandFetch p q t packet block) s = .next (s.withDev (stallNow (reply (cnt (takePacket r.2 p q) 0x700010) c st det none 0 0 0 0) p q))) ∧
    (r.1 = none → s.dev.ldg.replay = false → r.2.ldg.replay = false → isIndirect packet = false → ¬(isQuery c.op = true ∧ c.cls = 0) →
      96 ≤ hostOpen s.fuses r.2 turn →
      exec (.commandFetch p q t packet block) s = .next (s.withDev (placeEntry (takePacket r.2 p q) turn
        { (default : Entry) with kind := kindOf c.op, source := srcHost p q, ctr := ((pairOf r.2 p q).fetchCtr + 1) % 2 ^ 32, ts := t / 4 * 4, polder := p,
                                 cls := if isQuery c.op then c.cls else 0, payload := packet })))

/-- Interrupts, errors and resets at the host interface: a coalescing timer that runs out signals the replies that wait for it; an unmasked vector sends what was
pending; a PCIe error disables the pair, discards its replies, sets dma_err and raises HIF_DMA, one on a fetch cutting its run of chunks; an FLR of an existing VF
places a POLDER_RESET entry, one of the PF disables its pairs and withdraws its interrupts and touches no ledger; a link reset disables every pair, clears
fetch_en and the link state; a link that comes up shows its speed, lanes and VFs (R61, R347, R350, R357, R359, R386, R554). -/
def Obligations.HostEventsRun : Prop :=
  ∀ (p q t : Nat) (s : State),
    ((pairOf s.dev p q).timer = true → ∃ d, exec (.cqCoalTimeout p q) s = .next (s.withDev d) ∧ d = cqSignal s.dev p q ∧
      (pairOf d p q).coal = 0 ∧ (pairOf d p q).timer = false ∧ d.regs = s.dev.regs ∧
      (s.dev.host.masked.contains (p * 64 + bits (rget s.dev (pageReg p q 0)) 14 9) = false →
        d.out = s.dev.out ++ if bitAt (rget s.dev (pageReg p q 0)) 15 then [.irq p (bits (rget s.dev (pageReg p q 0)) 14 9)] else [])) ∧
    (∀ fn vec : Nat,
      (s.dev.host.pba.contains (fn * 64 + vec) = true → ∃ d, exec (.msixUnmask fn vec) s = .next (s.withDev d) ∧ d.out = s.dev.out ++ [.irq fn vec] ∧
        d.host.masked = s.dev.host.masked.filter (· != fn * 64 + vec) ∧ d.host.pba = s.dev.host.pba.filter (· != fn * 64 + vec) ∧ d.regs = s.dev.regs) ∧
      (s.dev.host.pba.contains (fn * 64 + vec) = false → exec (.msixUnmask fn vec) s = .next (s.withDev { s.dev with host := { s.dev.host with
        masked := s.dev.host.masked.filter (· != fn * 64 + vec) } }))) ∧
    (∀ w : Bool, (tget s.dev.host.pairs (pairKey p q)).isSome = true →
      ∃ d, exec (.hifDmaError p q w) s = .next (s.withDev d) ∧
        d = raise (modPair ((if w then stopPair else killPair) (stick s.dev 0x700008 (if w then 4 else 2)) p q) p q fun x => { x with dmaErr := true }) 0x01C 0 0xC0 (pairKey p q) ∧
        (pairOf d p q).enabled = false ∧ (pairOf d p q).waiting = [] ∧ (pairOf d p q).dmaErr = true ∧ bitAt (rget d (pageReg p q 0)) 0 = false ∧
        (w = true → d.ldg = s.dev.ldg) ∧ (w = false → (pairOf d p q).chunk = none)) ∧
    (1 ≤ p → p ≤ 16 → (polder s.dev p).state ≠ 0 →
      let d := atTime s.dev t
      let packet := leBytes 2 0xA02 ++ zeros 18 ++ fit 36 (leBytes 4 p) ++ leBytes 4 4
      exec (.flrVf p t) s = .next (s.withDev (placeEntry { d with ldg := { d.ldg with intern := d.ldg.intern + 1 } } (entryTurn d t)
        { (default : Entry) with kind := 7, internal := true, source := srcHost p 0, ctr := d.ldg.intern + 1, ts := t / 4 * 4, polder := p,
                                 payload := packet ++ leBytes 4 (crc32c packet) }))) ∧
    (∃ d, exec .flrPf s = .next (s.withDev d) ∧ d.ldg = s.dev.ldg ∧ d.q = s.dev.q ∧ d.world = s.dev.world ∧ d.host.pba = s.dev.host.pba.filter (fun k => k / 64 != 0) ∧
      ∀ j, j < 8 → (pairOf d 0 j).enabled = false ∧ bitAt (rget d (pageReg 0 j 0)) 0 = false) ∧
    (∃ d, exec .hostLinkReset s = .next (s.withDev d) ∧ (∀ f j, f < 17 → j < 8 → (pairOf d f j).enabled = false) ∧ d.host.hostUp = false ∧ bitAt (rget d 0x700000) 0 = false ∧ rget d 0x700004 = 0 ∧ d.world = s.dev.world ∧ d.q = s.dev.q) ∧
    (∀ speed width vfs : Nat, speed < 16 → width < 32 → vfs < 32 →
      ∃ d, exec (.pcieLinkUp speed width vfs) s = .next (s.withDev d) ∧ d.host.hostUp = true ∧ rget d 0x700004 = speed + 16 * width + 512 * vfs + 16384 ∧
        ∀ o, o ≠ 0x700004 → rget d o = rget s.dev o)

/-- What R127 and R149 ask of a stream's frame at a port, up to its stream (checks 1 and 2). -/
def frameReaches (d : Dev) (port src t : Nat) (f : Bytes) (x : StreamRec) : Prop :=
  let n := fld f 2 1 % 128; let ty := fld f 1 1;
  portEn d port = true ∧ d.ldg.replay = false ∧ f.length ≤ 1500 ∧ bits (fld f 0 1) 3 0 = 1 ∧ ty = x.kind ∧ 1 ≤ ty ∧ ty ≤ 2 ∧ frameCrcOk f = true ∧ fld f 16 2 = fld f 18 2 * (if ty = 1 then 40 else 8) ∧
  tget d.world.streams n = some x ∧ x.openTurn < entryTurn (fldCnt (atTime d t) port 0) t ∧ x.closeTurn = none ∧ x.port = port ∧ (x.srcMac = 0 ∨ x.srcMac = src)

/-- Frames at a field port outside a replay (R125, R127, R149, R376, R542): a stream frame of at most 1,500 bytes that reaches an open stream of its kind is judged by the later checks; so is an agent's
state; a frame of no known kind or with a bad frame check sequence only counts; a request that passes its checks is placed in the ledger of its arrival. -/
def FieldFramesRun : Prop :=
  ∀ (port src t : Nat) (f : Bytes) (s : State),
    (∀ x : StreamRec, frameReaches s.dev port src t f x →
      exec (.streamFrameIngress port src t f) s = .next (s.withDev (streamAccept s.fuses (fldCnt (atTime s.dev t) port 0) (fld f 2 1 % 128) x
        ((s.dev.world.agents.find? fun a => a.2.bind.stream == fld f 2 1 % 128).map (·.2)) t f))) ∧
    (∀ (x : StreamRec) (n : Nat) (a : AgentRec), portEn s.dev port = true → s.dev.ldg.replay = false → f.length ≤ 1500 → bits (fld f 0 1) 3 0 = 1 → fld f 1 1 = 3 → frameCrcOk f = true → fld f 18 2 = 1 →
      tget s.dev.world.streams (fld f 2 1 % 128) = some x → x.kind = 3 → x.openTurn < entryTurn (fldCnt (atTime s.dev t) port 0) t → x.closeTurn = none → x.port = port →
      (x.srcMac = 0 ∨ x.srcMac = src) → (s.dev.world.agents.find? fun a => a.2.bind.stream == fld f 2 1 % 128) = some (n, a) →
      fld f 16 2 = 32 + 8 * kinN (curModelRaw s.dev a.bind.model) →
      exec (.agentStateIngress port src t f) s = .next (s.withDev (streamAccept s.fuses (fldCnt (atTime s.dev t) port 0) (fld f 2 1 % 128) x (some a) t f))) ∧
    (∀ fcs : Bool, portEn s.dev port = true →
      exec (.unmatchedFrame port fcs) s = .next (s.withDev (fldCnt (fldCnt s.dev port 0) port (if fcs then 3 else 2)))) ∧
    (∀ a : AgentRec, let n := fld f 2 2 % 4096; let packet := slice f 24 64; let blk := slice packet 20 (min 36 (blockLen packet));
      portEn s.dev port = true → s.dev.ldg.replay = false → f.length ≤ 1500 → bits (fld f 0 1) 3 0 = 1 → fld f 1 1 = 0x10 → tget s.dev.world.agents n = some a → frameCrcOk f = true → isIndirect packet = false →
      fld f 16 2 = 64 → bitAt (rget (fldCnt (atTime s.dev t) port 0) 0x700000) 1 = true → a.bind.ctrlPort = port → a.bind.ctrlMac = src → fld packet 0 2 = 0x501 →
      ctrOk a.reqCtr (fld f 4 4) = true → timeOk (fld f 8 8) t = true → crc32c (packet.take 60) = fld packet 60 4 →
      let d := modAgent (fldCnt (atTime s.dev t) port 0) n fun a => { a with reqCtr := some (fld f 4 4) }
      let c := cmdOf (.field port n) a.polder packet blk
      c.op = 0x501 → fld blk 0 2 = n → c.cls = 0 →
      let r := fetchCheck d (entryTurn d t) t c packet none
      r.1 = none →
      let e : Entry := { (default : Entry) with kind := kindOf c.op, source := srcField port a.bind.stream, ctr := fld f 4 4, ts := t / 4 * 4, polder := a.polder,
                                                cls := 0, payload := packet }
      shareOf e ≠ 2 →
      exec (.requestIngress port src t f) s = .next (s.withDev (placeEntry (cnt r.2 0x70001C) (entryTurn d t) e)))

/-- A frame that passes every check of R127 takes one token, counts as accepted, and stands in the ledger of its arrival with its stream's source; one that arrives
with an empty bucket counts as dropped and as the polder's violation, and nothing is placed. -/
def StreamFrameAccepted : Prop :=
  ∀ (fz : Fuses) (d : Dev) (n t : Nat) (x : StreamRec) (ag : Option AgentRec) (f : Bytes), d.twin.role ≠ .follow → d.twin.role ≠ .attaching →
    let level := min 16000000000 (x.bucket + (t - x.bucketAt) * x.rate);
    let e : Entry := { (default : Entry) with kind := if x.kind = 3 then 2 else 1, source := srcField x.port n, ctr := fld f 4 4, ts := t / 4 * 4,
                                              polder := x.polder, payload := f };
    (1000000000 ≤ level → x.lastCtr = none → timeOk (fld f 8 8 + offsFor d (entryTurn d t) n x) t = true → rangeOk d x ag f = true → entryBytes e ≤ fieldOpen fz d (entryTurn d t) →
      streamAccept fz d n x ag t f = placeEntry (modStream d n fun _ => { x with
        bucket := level - 1000000000, bucketAt := max t x.bucketAt, lastCtr := some (fld f 4 4), lastArr := t, timeoutSince := false,
        accepted := satInc x.accepted 1 }) (entryTurn d t) e) ∧
    (level < 1000000000 →
      streamAccept fz d n x ag t f = modPolder (modStream d n fun _ => { x with bucket := level, bucketAt := max t x.bucketAt, rateDrop := satInc x.rateDrop 1 })
        x.polder fun y => { y with violStream := satInc y.violStream 1 })

/-- Time (R40, R47 to R49, R456, R540, R543): a measurement on the PTP port or an edge of PPS_IN steers TCLK; a missing Announce takes the backup port, or loses the
reference; PPS_IN lost, found at the end of a window or of the holdover time, loses the reference too (when it counts as lost is open: log entry 96); holdover past
TRN_HOLD_MAX is a live condition; a window of the clock monitors shows its count; TRN_TAI steps the clock before run; run locks the safety
configuration and starts the turns on disciplined time, else waits. -/
def Obligations.TimeCommandsRun : Prop :=
  ∀ (s : State) (t : Nat),
    (∀ (port : Nat) (o : Int), portEn s.dev port = true → port = ptpPort (fldCnt (atTime s.dev t) port 0) → bitAt (rget (fldCnt (atTime s.dev t) port 0) 0x401004) 0 = true →
      bitAt (rget (fldCnt (atTime s.dev t) port 0) 0x600000) 8 = false →
      exec (.ptpFrame port t false (some o)) s = .next (s.withDev (measured (fldCnt (atTime s.dev t) port 0) t o))) ∧
    (bitAt (rget s.dev 0x600000) 8 = true →
      let k := (t + 500000000) / 1000000000 * 1000000000
      let d := measured (atTime s.dev t) t ((t : Int) - k)
      exec (.ppsInEdge t) s = .next (s.withDev { d with time := { d.time with ppsLast := some t } })) ∧
    (bitAt (rget s.dev 0x600000) 8 = false → bitAt (rget s.dev 0x401004) 0 = true →
      let d := rfield s.dev 0x401008 0 0 0
      (bitAt (rget d 0x401008) 2 = false → bitAt (rget d 0x401004) 15 = true → exec .ptpAnnounceTimeout s = .next (s.withDev (rfield d 0x401008 2 2 1))) ∧
      (bitAt (rget d 0x401004) 15 = false → exec .ptpAnnounceTimeout s = .next (s.withDev (loseRef d)))) ∧
    (let d := if ppsLost s.dev then loseRef s.dev else s.dev;
      (d.time.holdover.isSome = true → bits (rget d 0x600028) 15 0 ≠ 0 → exec .holdoverExpiry s = .next (s.withDev (assertLive d 0x01A 0 0xF0 0))) ∧
      (∀ cclk : Nat, 1498500 ≤ cclk → cclk ≤ 1501500 →
        exec (.clockMonitorWindow cclk true true) s = .next (s.withDev (rfield (rset d 0x1C cclk) 0x18 2 0 7)))) ∧
    (∀ v : Nat, bitAt (rget s.dev 0x600004) 0 = false →
      exec (.trnTaiSet v) s = .next (s.withDev (modTime (rset (rset s.dev 0x600018 v) 0x60001C (v / 2 ^ 32)) fun x => { x with now := v % 2 ^ 64 }))) ∧
    (bitAt (rget s.dev 0x600004) 0 = false →
      let d := lockWdn (rfield (atTime s.dev t) 0x600004 0 0 1)
      (disciplined d = true → exec (.trnRun t) s = .next (s.withDev (startRun d t))) ∧
      (disciplined d = false → simplex d = false → exec (.trnRun t) s = .next (s.withDev (modTime d fun x => { x with waiting := true }))))

/-! ### Turns -/

/-- The cutoff seals the ledger of the coming turn (R65, R67): its number is one more than that of the last one sealed, and its digest chains the next. The
TIMEOUT entry of a stream whose timeout has elapsed is placed; a tile map that is due is set with the next generation; a deferral that has lasted pin_hold_max turn
ends is ended (R32, R114). -/
def CutoffRuns : Prop :=
  ∀ s : State,
    (cutoffDue s.dev = true → builds s.dev = true →
      ∃ d l, exec .ledgerCutoff s = .next (s.withDev d) ∧ d.time.sealedTo = s.dev.time.sealedTo + 1 ∧ d.ldg.ready = some l ∧ l.turn = s.dev.time.sealedTo + 1 ∧
        d.ldg.digest = l.digest) ∧
    (∀ (n : Nat) (x : StreamRec), cutoffDue s.dev = true → builds s.dev = true → tget s.dev.world.streams n = some x → timeoutDue s.dev (s.dev.time.sealedTo + 1) x = true →
      exec (.streamTimeout n) s = .next (s.withDev (placeTimeout (atTime s.dev (cutoffTime s.dev (s.dev.time.sealedTo + 1))) (s.dev.time.sealedTo + 1) n))) ∧
    (∀ m : List Nat, s.dev.pkg.due = some m → exec .tileMapChange s = .next (s.withDev (setTiles s.dev m (s.dev.pkg.gen + 1)))) ∧
    (∀ (h : Nat) (m : MapRec), tget s.dev.world.maps h = some m → m.pend ≠ [] → m.removed = false → m.pinHoldMax ≤ m.deferTurns + 1 → roomFor s.dev h m = false →
      exec (.pinHoldExpiry h) s = .next (s.withDev (formOrDefer s.dev h m (formTurns s.dev m))))

/-- A turn boundary whose ledger is sealed ends the turn that executes and starts the next one with that ledger; in a latched safe state that has stopped the turns
only the turn number and the heartbeat go on (R45, R49, R477). In replay the virtual turns of a run follow each other while its ledgers and the mirror blocks in
its records verify; a ledger with more live cores than the package has is reported (R86, R87, R524). -/
def BoundaryRuns : Prop :=
  ∀ s : State,
    (s.dev.time.running = true → s.dev.pin.trip = false → s.dev.ldg.replay = false → s.dev.time.turn + 1 ≤ s.dev.time.sealedTo →
      let at_ := atTime s.dev (turnStart s.dev (s.dev.time.turn + 1))
      (s.dev.wdn.safe.stopped = false → s.dev.twin.tailNext = none →
        let d := if s.dev.time.started then endTurn s.fuses at_ else at_
        d.ldg.replay = false → (d.wdn.safe.on && d.wdn.safe.latched) = false →
        exec .turnBoundary s = .next (s.withDev (startTurn s.fuses (ledgerFor d (s.dev.time.turn + 1)).1 (ledgerFor d (s.dev.time.turn + 1)).2))) ∧
      (s.dev.wdn.safe.stopped = true →
        exec .turnBoundary s = .next (s.withDev (toTurn (fxHeartbeat at_ s.dev.time.turn) (s.dev.time.turn + 1))))) ∧
    (∀ (c : Cmd) (l : Ledger) (own n : Nat) (rest : List (Ledger × Nat)), s.dev.ldg.replay = true → s.dev.ldg.prepared = some n →
      s.dev.ldg.replayRun = some (c, (l, own) :: rest) →
      (l.turn = n → l.gap = false ∨ s.dev.ldg.current = none → own = l.digest → blocksGood l = true →
        let d := { s.dev with ldg := { s.dev.ldg with replayDiff := s.dev.ldg.replayDiff || decide (mapCores s.dev.pkg.map < l.cores) } }
        exec .replayTurn s = .next (s.withDev (startTurn s.fuses (modLdg (recordLedger d l true) fun x => { x with
          prepared := none, replayRun := some (c, rest), replayDone := x.replayDone + 1, digest := l.digest }) l))) ∧
      (own ≠ l.digest ∨ blocksGood l = false → exec .replayTurn s = .next (s.withDev (replayEnd s.dev c stBadCheck s.dev.ldg.replayDone))))

/-- What happens inside a turn: the release phase runs once; the oldest result that may leave goes out on its port; the quiet tail finds what is left over; a class-0
operation that runs past the berm is raised (R51, R82, R240, R328, R406). -/
def Obligations.TurnEventsRun : Prop :=
  ∀ s : State,
    (running s.dev = true → s.dev.q.relTurn ≠ s.dev.time.turn → lags s.dev = false →
      let d := { s.dev with q := { s.dev.q with relTurn := s.dev.time.turn, phase := [] } }
      exec .releasePhase s = .next (s.withDev (if releasing d then releasePlans (verifyAll (releaseStale d)) else d))) ∧
    (∀ (f : EgFrame) (rest : List EgFrame), sortBy egressLe (s.dev.host.egress.filter (mayLeave s.dev)) = f :: rest → f.body ≠ [] →
      let d := { s.dev with host := { s.dev.host with egress := s.dev.host.egress.filter fun x => x.id != f.id } }
      portEn d f.port = true → bitAt d.fab.fieldUp f.port = true →
      exec .resultEgress s = .next (s.withDev (fldCnt (send d (.field f.port (ethHead d f.port f.mac f.vlan f.pcp ++ f.body))) f.port 1))) ∧
    (∀ die unit cyc : Nat, die < 8 → die < variantDies s.fuses.variant →
      (latheOn s.dev die = true → (latheOf s.dev die).overrun = false → leftover s.dev die = true →
        exec (.quietTailCheck die) s = .next (s.withDev (cnt (latheErr (latheCnt s.dev die 0x34 (lateWaits s.dev die)) die 5 0x013 0) (dieWin die + 0x38)))) ∧
      (cyc = bermLen s.dev → 0x80 ≤ unit → ((stillRuns (unitOf s.dev die unit) cyc).any fun r => r.window == 1) = true →
        exec (.bermOverrun die unit cyc) s = .next (s.withDev (raise s.dev 0x015 die unit cyc))))

/-- Predictor passes and builds (R100, R102, R214 to R216): a pass that is due starts with its inputs and its end turn; one still in flight is skipped and counted; one
that ends without fault with all its tiles done joins the formation, one with tiles left is dropped; a static build is ready with its BVH. -/
def Obligations.MapWorkRuns : Prop :=
  ∀ (h : Nat) (m : MapRec) (s : State), tget s.dev.world.maps h = some m →
    (∀ (p : PredPass) (k : Nat), m.pass = some p → m.model = some k → running s.dev = true → passDue s.dev m = true →
      (p.ends = 0 → ∃ d p', exec (.predictorPassStart h) s = .next (s.withDev d) ∧ (tget d.world.maps h).bind (·.pass) = some p' ∧ p'.slot = p.slot ∧
        p'.start = s.dev.time.turn ∧ p'.ends = s.dev.time.turn + max 1 (predSlot (actImg s.dev) p.slot).lp ∧ d.world.frames = tdel s.dev.world.frames h ∧
        d.eng = s.dev.eng ∧ d.q = s.dev.q ∧ ∀ j, j ≠ h → tget d.world.maps j = tget s.dev.world.maps j) ∧
      (p.ends ≠ 0 → p.start ≠ s.dev.time.turn →
        exec (.predictorPassStart h) s = .next (s.withDev (modMap s.dev h fun m => { m with predSkip := satInc m.predSkip 1 })))) ∧
    (∀ p : PredPass, m.pass = some p → p.ends ≠ 0 → p.ends ≤ s.dev.time.turn → p.fault = false → passLate s.dev p = false → p.sat = false → p.boxes ≠ [] →
      exec (.predictorPassEnd h) s = .next (s.withDev (modMap s.dev h fun m => { m with
        pass := some { (default : PredPass) with slot := p.slot }, events := m.events ++ [(1, .pred p.boxes (p.words.getD []))] ++ refills s.dev h p.start }))) ∧
    (∀ p : PredPass, m.pass = some p → p.ends ≠ 0 → p.ends ≤ s.dev.time.turn → p.fault = false → passLate s.dev p = true →
      exec (.predictorPassEnd h) s = .next (s.withDev (dropPass s.dev h))) ∧
    (∀ t : Nat, m.build = .start t → t ≤ s.dev.time.turn →
      exec (.bvhBuildEnd h) s = .next (s.withDev (modMap s.dev h fun x => { x with
        build := .ready (allPrims m.staged.objs) (bvhBuild m.boxMin m.boxMax (allPrims m.staged.objs)) })))

/-- The stages of a PLAN whose tiles lie on live dies (R221, R224 to R248): the start node is pushed, each step pops and expands within the budget, the path gets its closing stop, stage 6 makes it
a plan to cover, and the footprints make it ready. -/
def Obligations.PlanStagesRun : Prop :=
  ∀ (n : Nat) (q : QueryRec) (s : State), tget s.dev.q.recs n = some q → stuck s.dev q = false →
    (q.kind = .plan → q.stage = .goal → (searchEnv s.dev q).p.eeGoal = false → exec (.goalSolveEnd n) s = .next (s.withDev (beginSearch s.dev n q))) ∧
    (q.stage = .search →
      let e := searchEnv s.dev q
      let pop := popNodes (total (q.tiles.map fun t => t.2.queue.length) + 1) (min e.p.popB (q.cmd.budget - q.expansions)) q.tiles
      (pop.1 = [] → exec (.searchStep n) s = .next (s.withDev
        (endBudget (modQ s.dev n fun q => { q with tiles := pop.2 }) n { q with tiles := pop.2 }))) ∧
      (pop.1 ≠ [] → ∃ d q', exec (.searchStep n) s = .next (s.withDev d) ∧ tget d.q.recs n = some q' ∧ q'.expansions = q.expansions + pop.1.length ∧ q'.cmd = q.cmd ∧
        q'.pinMaps = q.pinMaps ∧ (∀ j, j ≠ n → tget d.q.recs j = tget s.dev.q.recs j) ∧ d.world = s.dev.world)) ∧
    (q.stage = .closing → ∃ d q', exec (.closingStop n) s = .next (s.withDev d) ∧ tget d.q.recs n = some q' ∧ q'.stage = .finish ∧ q'.cmd = q.cmd ∧
      (∀ j, j ≠ n → tget d.q.recs j = tget s.dev.q.recs j) ∧ d.world = s.dev.world) ∧
    (q.stage = .finish → ∃ d q', exec (.stageFinish n) s = .next (s.withDev d) ∧ tget d.q.recs n = some q' ∧ q'.stage = .cover ∧
      (∀ j, j ≠ n → tget d.q.recs j = tget s.dev.q.recs j) ∧ d.world = s.dev.world) ∧
    (q.stage = .cover → planMotion s.dev q = none → needsTl s.dev q = false →
      exec (.footprintCover n) s = .next (s.withDev (modQ s.dev n fun q => { q with stage := .ready, foots := [] })))

/-! ### Engines, DMA, lathes, banks -/

/-- A core of a populated die that is in service. -/
def coreUp (s : State) (die core : Nat) : Prop := die < 8 ∧ core < 16 ∧ die < variantDies s.fuses.variant ∧ coreLive s.fuses s.dev die core = true
/-- A populated die. -/
def dieUp (s : State) (die : Nat) : Prop := die < 8 ∧ die < variantDies s.fuses.variant

/-- The sweep engine (R157, R163, R164, R168, R183): a half is staged from what the addresses of its descriptor hold in bulk memory, and a descriptor out of range leaves it
not staged; a batch of candidates leaves its results where the descriptor says, as the core may write them, and changes no half; a half is marked not staged. -/
def Obligations.SweepOperationsRun : Prop :=
  ∀ (die core operand : Nat) (s : State), coreUp s die core →
    let v := bankView s.dev core s.mem; let k := halfKey die core operand;
    let desc := mgets v (rowField die (opLoc operand)) 320;
    (∀ (h : Half) (m : Mem) (len : Nat), stageBulk v s.dev die desc = some (h, m, len) →
      ∃ d, exec (.swpStage die core operand) s = .next (s.withMem (bankMerge s.dev core s.mem m) d) ∧ d.eng.halves = tput s.dev.eng.halves k h ∧
        d.world = s.dev.world ∧ d.q = s.dev.q ∧ d.eng.lathes = s.dev.eng.lathes ∧
        (bitAt (rget s.dev (engReg die 0 core 0)) 1 = false → rget d (engReg die 0 core 0x38) = len % 2 ^ 32)) ∧
    (stageBulk v s.dev die desc = none →
      ∃ d, exec (.swpStage die core operand) s = .next (s.withDev d) ∧ d.eng.halves = tdel s.dev.eng.halves k ∧ bitAt (rget d (engReg die 0 core 8)) 0 = true) ∧
    (∃ d, exec (.swpCheck die core operand none) s =
        .next (s.withMem (bankMerge s.dev core s.mem (sweepCheck v die (rowField die (opLoc operand)) (tget s.dev.eng.halves k) none).1) d) ∧
      d.eng.halves = s.dev.eng.halves ∧ d.eng.lathes = s.dev.eng.lathes ∧ d.world = s.dev.world ∧ d.q = s.dev.q) ∧
    exec (.swpInval die core operand) s = .next (s.withDev { s.dev with eng := { s.dev.eng with halves := tdel s.dev.eng.halves k } })

/-- The tensor engine (R190 to R203): weights go from bulk memory into staging rows of the home bank and the load's cycles show; a table takes 16 rows; a layer without
a fault writes its outputs and its status block, with the entries of the table it names; a layer with one leaves zeros as its output, its fault code in its
status block, and sets bad_desc. -/
def Obligations.TensorOperationsRun : Prop :=
  ∀ (die core operand : Nat) (s : State), coreUp s die core →
    let v := bankView s.dev core s.mem; let at_ := rowField die (opLoc operand);
    (∀ a n row : Nat, a = fld (mgets v at_ 16) 0 8 → n = fld (mgets v at_ 16) 8 4 → row = fld (mgets v at_ 16) 12 4 →
      a % 64 = 0 → n % 64 = 0 → 64 ≤ n → n ≤ 8388608 → row + n / 64 ≤ 131072 → bulkOk die a n = true →
      ∃ d, exec (.tnsLoad die core operand) s =
          .next (s.withMem (bankMerge s.dev core s.mem (mputs s.mem (rowAddr die core row) (bulkGets s.mem s.dev die a n))) d) ∧
        d.eng = s.dev.eng ∧ d.world = s.dev.world ∧ d.q = s.dev.q ∧
        (bitAt (rget s.dev (engReg die 1 core 0)) 1 = false → rget d (engReg die 1 core 0x24) = 1600 + (n + 47) / 48)) ∧
    (locOk (opLoc operand) 16 = true → ownedBy s.dev die core (bits (opLoc operand) 21 18) = true →
      exec (.tnsTable die core operand) s = .next (s.withDev { s.dev with eng := { s.dev.eng with
        tables := tput s.dev.eng.tables ((die * 16 + core) * 8 + bits operand 23 22) (mgets s.mem at_ 1024) } })) ∧
    (∀ t : Bytes, let l := parseLayer (mgets v at_ 64);
      layerFault (ownedBy s.dev die core) v die core l = 0 → (l.act = 0xff ∨ tget s.dev.eng.tables ((die * 16 + core) * 8 + l.act) = some t) →
      ownedBy s.dev die core (bits l.stLoc 21 18) = true → locOk l.stLoc 1 = true →
      ∃ entry : Nat → Nat, (l.act ≠ 0xff → entry = fun i => fld t (4 * i) 4) ∧
        let o := layerRun v l entry (rowField die l.inLoc) (rowAddr die core l.wLoc) (rowAddr die core l.scLoc) (rowField die l.auxLoc);
        ∃ d lost, exec (.tnsLayer die core operand) s = .next (s.withMem
            (mputs (mputs s.mem (rowField die l.outLoc) o.out) (rowField die l.stLoc) (layerStatus o.accSat 0 o.sat o.clamp (l.cycles + lost))) d) ∧
          d.eng = s.dev.eng ∧ d.world = s.dev.world) ∧
    (let l := parseLayer (mgets v at_ 64); let f := layerFault (ownedBy s.dev die core) v die core l;
      f ≠ 0 → ownedBy s.dev die core (bits l.outLoc 21 18) = true → ownedBy s.dev die core (bits l.stLoc 21 18) = true → locOk l.stLoc 1 = true →
      ∃ d, exec (.tnsLayer die core operand) s = .next (s.withMem (mputs (mfill s.mem (rowField die l.outLoc)
          (64 * min (tensorRows l.outFmt l.cOut l.m) (bankRows - bits l.outLoc 17 0)) 0) (rowField die l.stLoc) (layerStatus false f 0 0 64)) d) ∧
        bitAt (rget d (engReg die 1 core 8)) 0 = true ∧ d.eng = s.dev.eng ∧ d.world = s.dev.world)

/-- The solver unit (R267, R282): a batch that passes its tests writes the outcome of every problem, in order, at its result location; a batch of rows
writes limit samples and sphere rows; a batch that does not pass leaves its result records degraded where the core may write them, rows that do not pass change
no memory, and each sets bad_desc, bad_loc or both. -/
def Obligations.SolverOperationsRun : Prop :=
  ∀ (die core operand : Nat) (u : UnitDesc) (s : State), coreUp s die core →
    let v := bankView s.dev core s.mem; let j := batchJob (ownedBy s.dev die core) v s.dev.world.agents die operand;
    let r := rowsJob (ownedBy s.dev die core) v die operand u;
    (j.badLoc = false → j.badDesc = false →
      ∃ d, exec (.slvBatch die core operand) s = .next (s.withMem (mputs s.mem j.res ((batchOuts j).flatMap fun o => solveRecord o false false 0)) d) ∧
        d.eng = s.dev.eng ∧ d.world = s.dev.world ∧ d.q = s.dev.q) ∧
    (j.badLoc = true ∨ j.badDesc = true → ∃ d, exec (.slvBatch die core operand) s = .next (s.withMem (batchRefused (ownedBy s.dev die core) s.mem j) d) ∧
      d.eng = s.dev.eng ∧ d.world = s.dev.world ∧ (j.badDesc = true → bitAt (rget d (engReg die 2 core 8)) 0 = true) ∧
      (j.badLoc = true → bitAt (rget d (engReg die 2 core 8)) 2 = true)) ∧
    (r.badLoc = false → r.badDesc = false →
      ∃ d, exec (.slvRows die core operand u) s = .next (s.withMem (rowsWrite s.mem die u r) d) ∧ d.eng = s.dev.eng ∧ d.world = s.dev.world ∧ d.q = s.dev.q) ∧
    (r.badLoc = true ∨ r.badDesc = true → ∃ d, exec (.slvRows die core operand u) s = .next (s.withDev d) ∧ d.eng = s.dev.eng ∧
      (r.badDesc = true → bitAt (rget d (engReg die 2 core 8)) 0 = true) ∧ (r.badLoc = true → bitAt (rget d (engReg die 2 core 8)) 2 = true))

/-- The select engine (R288 to R296): each of its four operations, with a descriptor in order, leaves the elements it gives and its status where the descriptor
says, as the core may write them, shows its cycles, and changes nothing of the engines' own state; one whose operand or descriptor is not in order sets bad_desc. -/
def Obligations.SelectOperationsRun : Prop :=
  ∀ (die core operand op : Nat) (i : Instr) (s : State), coreUp s die core →
    (i, op) ∈ [(Instr.selSort die core operand, 1), (.selTopk die core operand, 2), (.selUniq die core operand, 3), (.selMerge die core operand, 4)] →
    (ownedBy s.dev die core (bits (opLoc operand) 21 18) = true → bits operand 47 22 = 0 →
      ∃ d lost, let r := selUnit (bankView s.dev core s.mem) (ownedBy s.dev die core) die op (rowField die (opLoc operand)) lost;
        exec i s = .next (s.withMem (bankMerge s.dev core s.mem r.1) d) ∧ d.eng = s.dev.eng ∧ d.world = s.dev.world ∧ d.q = s.dev.q ∧
        (bitAt (rget s.dev (engReg die 3 core 0)) 1 = false → rget d (engReg die 3 core 0x20) = (if r.2.2.2.1 then 16 else r.2.2.2.2) % 2 ^ 32) ∧
        (r.2.2.2.1 = true → bitAt (rget d (engReg die 3 core 8)) 0 = true)) ∧
    (ownedBy s.dev die core (bits (opLoc operand) 21 18) = false ∨ bits operand 47 22 ≠ 0 →
      ∃ d m, exec i s = .next (s.withMem m d) ∧ bitAt (rget d (engReg die 3 core 8)) 0 = true ∧ d.eng = s.dev.eng ∧ d.world = s.dev.world)

/-- The frontier unit (R221, R222, R253): a queue opens empty; each entry pushed takes its place by cost, sequence number and node index; up to pop_b entries leave in that order,
16 bytes each (sequence number, cost, node index), to the row that the descriptor names; a queue closes with its entries; one that runs low takes up to 256 from its tile store. An operand whose row lies outside the bank, and a queue
that is not open, raise FRN_DESC. What the descriptors hold comes with the command: log entry 7. -/
def Obligations.FrontierOperationsRun : Prop :=
  ∀ (die core operand : Nat) (u : UnitDesc) (s : State), coreUp s die core →
    let q := bits operand 31 22; let k := frnKey die core q; let row := locOk (opLoc operand) 1;
    (row = true → exec (.frnOpen die core operand) s = .next (s.withDev (putFrn s.dev k { inUnit := [], inStore := [] }))) ∧
    (row = false → ∀ i ∈ [Instr.frnOpen die core operand, .frnPushb die core operand u, .frnPopb die core operand u, .frnClose die core operand],
      exec i s = .next (s.withDev (engFault s.dev die 4 core 0 operand))) ∧
    (∀ x : FrnQueue, row = true → u.entries ≠ [] → tget s.dev.eng.frn k = some x → x.inStore = [] → frnHeld s.dev die core + u.entries.length ≤ 65536 →
      ∃ d, exec (.frnPushb die core operand u) s = .next (s.withDev d) ∧
        d.eng = { s.dev.eng with frn := tput s.dev.eng.frn k { x with inUnit := u.entries.foldl (fun t e => insertBy entLe e t) x.inUnit } } ∧ d.world = s.dev.world) ∧
    (∀ x : FrnQueue, row = true → tget s.dev.eng.frn k = some x → x.inStore = [] →
      ∃ d, exec (.frnPopb die core operand u) s =
          .next (s.withMem (bankMerge s.dev core s.mem (mputs (bankView s.dev core s.mem) (rowAddr die u.bank u.row) ((x.inUnit.take u.pops).flatMap frnBytes))) d) ∧
        tget d.eng.frn k = some { x with inUnit := x.inUnit.drop u.pops } ∧ d.world = s.dev.world) ∧
    (row = true → thas s.dev.eng.frn k = true → exec (.frnClose die core operand) s = .next (s.withDev { s.dev with eng := { s.dev.eng with frn := tdel s.dev.eng.frn k } })) ∧
    (row = true → thas s.dev.eng.frn k = false →
      exec (.frnPushb die core operand u) s = .next (s.withDev (engFault s.dev die 4 core 2 operand)) ∧
      exec (.frnPopb die core operand u) s = .next (s.withDev (engFault s.dev die 4 core 2 operand)) ∧
      exec (.frnClose die core operand) s = .next (s.withDev (engFault s.dev die 4 core 2 operand))) ∧
    (∀ x : FrnQueue, tget s.dev.eng.frn k = some x → x.inUnit.length < 64 → x.inStore ≠ [] →
      exec (.frontierRefill die core q) s = .next (s.withDev (frnPeak (engCnt (putFrn s.dev k
        { inUnit := (x.inStore.take 256).foldl (fun t e => insertBy entLe e t) x.inUnit, inStore := x.inStore.drop 256 }) die 4 core 0x20 1) die core)))

/-- The DMA agent (R27, R28, R330, R337): a transfer whose length is a multiple of 64 from 64 bytes to 64 MiB, whose reserved bytes are 0 and whose ends lie in their
spaces moves its bytes, as its identity may read and write them; nothing of the engines changes. A length out of range or a reserved byte set moves nothing. -/
def Obligations.TransfersRun : Prop :=
  ∀ (die operand : Nat) (s : State), dieUp s die → dieLive s.dev die = true →
    let bs := mgets s.mem (rowField die (opLoc operand)) 32; let src := fld bs 0 8; let dst := fld bs 8 8; let n := fld bs 16 4; let dest := bits (fld bs 21 1) 2 0;
    let moved := fun who a b => s.withMem (bankMerge s.dev who s.mem (mputs (bankView s.dev who s.mem) b (mgets (bankView s.dev who s.mem) a n)));
    let clean := bits (fld bs 20 1) 7 5 = 0 ∧ bits (fld bs 21 1) 7 3 = 0 ∧ allZero (slice bs 22 10) = true;
    (∀ who b, n % 64 = 0 → 64 ≤ n → n ≤ 67108864 → clean → dmaWho s.dev die (bits (fld bs 20 1) 4 0) = some who →
      (bulkOk die src n = true → dst % 64 = 0 → dmaBank die dst n = some b →
        ∃ d, exec (.dmaIn die operand) s =
            .next (s.withMem (bankMerge s.dev who s.mem (mputs (bankView s.dev who s.mem) b (bulkGets (bankView s.dev who s.mem) s.dev die src n))) d) ∧
          d.eng = s.dev.eng ∧ d.world = s.dev.world) ∧
      (dmaBank die src n = some b → bulkOk die dst n = true →
        ∃ d, exec (.dmaOut die operand) s = .next (moved who b (bulkBase die + dst) d) ∧ d.eng = s.dev.eng ∧ d.world = s.dev.world) ∧
      (src + n ≤ 4194304 → dst % 64 = 0 → dmaBank die dst n = some b →
        ∃ d, exec (.dmaCtrl die operand) s = .next (moved who (ctlBase die + src) b d) ∧ d.eng = s.dev.eng ∧ d.world = s.dev.world) ∧
      (∀ a, dest ≠ die → dest < popDies s.fuses → dst % 64 = 0 → dmaBank die src n = some a → dmaBank dest dst n = some b →
        ∃ d, exec (.dmaLink die operand) s = .next (moved who a b d) ∧ d.eng = s.dev.eng ∧ d.world = s.dev.world)) ∧
    (n % 64 ≠ 0 ∨ n < 64 ∨ 67108864 < n ∨ ¬clean →
      ∀ i ∈ [Instr.dmaIn die operand, .dmaOut die operand, .dmaCtrl die operand, .dmaLink die operand], exec i s = .next (s.withDev (dmaFault s.dev die operand)))

/-- A bundle is issued at the first cycle that R314 allows and not before (R309, R310, R314): the sealed plan's next bundle puts one operation into the queue of each
unit it names, when every unit is there and has room, and the die's count of bundles rises; cycles lost to a full queue count, once each. -/
def Obligations.BundlesRun : Prop :=
  ∀ (die v cyc : Nat) (s : State), dieUp s die →
    (bitAt v 0 = true → exec (.planSeal die v) s = .next (s.withDev (modLathe s.dev die fun l => { l with sealed := true }))) ∧
    (∀ (e : Nat) (l : LatheRec), latheOn s.dev die = true → (latheOf s.dev die).overrun = false → planAt s.dev (latheOf s.dev die) = some (e, l) →
      let seg := segOf s.dev e; let raw := actImg s.dev; let bs := slice raw (imgBundles raw + 64 * (seg.1 + l.bundle)) 64;
      let after := (l.lastIssue.map (· + 1)).getD 0;
      let S := if l.bundle = 0 then (if l.rep = 0 then max (bits e 39 22) after else after) else l.repStart;
      let ops := bundleOps bs S cyc (l.rep * bits e 55 40) seg.2.2;
      let first := max (max S after) (S + bits (fld bs 0 8) 17 0 - 2);
      (∀ o ∈ ops, (unitPlace s.dev die o.1).isSome = true) →
      (cyc = first → (∀ o ∈ ops, queuedAt (unitOf s.dev die o.1) cyc + (ops.filter fun p => p.1 == o.1).length ≤ 16) →
        exec (.bundleIssue die cyc) s = .next (s.withDev (latheCnt (ops.foldl (fun d o => modUnit d die o.1 fun q => { q with ops := q.ops ++ [o.2] })
          (modLathe (latheCnt s.dev die 0x2C 0) die fun _ => nextPlace l e seg.2.1 cyc S)) die 0x28 1))) ∧
      (cyc < first → exec (.bundleIssue die cyc) s = .next s) ∧
      (first ≤ cyc → (∃ o ∈ ops, 16 < (unitOf s.dev die o.1).ops.length + (ops.filter fun p => p.1 == o.1).length) →
        exec (.bundleIssue die cyc) s = .next (s.withDev (modLathe (latheCnt s.dev die 0x2C (cyc + 1 - max first l.stallTo)) die fun x =>
          { x with stallTo := max x.stallTo (cyc + 1) }))))

/-- The head operation of a unit's queue starts when its window, its tokens and the operations beside it allow (R315, R318, R319, R321, R323): it takes its tokens, does
its work, and its data tokens and credits leave when it completes; a transfer beyond the die's traffic is late (R330); a code that R323 does not list is an error and
runs as NOP. -/
def Obligations.OperationStartRuns : Prop :=
  ∀ (die unit cyc : Nat) (u : UnitDesc) (o : OpEnt) (rest : List OpEnt) (s : State), dieUp s die → startsNow s.mem s.dev die unit cyc = true →
    (unitOf s.dev die unit).ops = o :: rest →
    let x := unitOf s.dev die unit;
    let d0 := modUnit s.dev die unit fun q => { q with ops := rest, data := q.data.drop o.data, credit := q.credit.drop o.credit, runs := stillRuns q cyc, starts := (cyc :: q.starts).take 16 };
    let started := fun (d : Dev) len => modUnit d die unit fun q =>
      { q with runs := q.runs ++ [{ code := o.code, operand := o.operand, window := o.window, ends := cyc + len, start := cyc }] };
    let finish := fun (d : Dev) len => countLate (sendCredits d die unit (cyc + len) (x.data.take o.data)) die o.window cyc (cyc + len);
    (o.code < 0xf0 → let r := runOwn s.fuses s.mem d0 die unit o.code o.operand cyc none u; let late := bulkLate r.2.1 die unit o.code cyc r.2.2;
      exec (.operationStart die unit cyc none none none u) s =
        .next (s.withMem r.1 (finish (sendRoute (started late.2 late.1) die unit (cyc + late.1) x.route) late.1))) ∧
    (o.code = 0xf0 → exec (.operationStart die unit cyc none none none u) s = .next (s.withDev (finish (started (modUnit d0 die unit fun q => { q with route := o.operand }) 1) 1))) ∧
    (o.code = 0xf1 → exec (.operationStart die unit cyc none none none u) s = .next (s.withDev (finish (started (sendRoute d0 die unit (cyc + 1) x.route) 1) 1))) ∧
    (o.code = 0xf2 → exec (.operationStart die unit cyc none none none u) s = .next (s.withDev (finish (started (fxGrant d0 die unit o.operand (cyc + 1)) 1) 1))) ∧
    (o.code = 0xf3 → exec (.operationStart die unit cyc none none none u) s =
      .next (s.withDev (fxBarWait d0 die unit o.operand cyc o.window (x.data.take o.data)))) ∧
    (o.code = 0xff → exec (.operationStart die unit cyc none none none u) s = .next (s.withDev (finish (started d0 1) 1))) ∧
    (0xf4 ≤ o.code → o.code ≠ 0xff →
      exec (.operationStart die unit cyc none none none u) s = .next (s.withDev (finish (started (latheErr d0 die 0 0x037 o.code) 1) 1)))

/-- Tokens, routes and barriers (R74, R318 to R327): a token that is due enters its unit's queue while that has room for 32, one from another die that is counted after
its cycle raising LINK_LATE; one that finds the queue full waits at its sender, which counts the cycles; each common operation has its effect; a barrier
armed is armed for its masks, and one armed already is an error; a unit that waits at a barrier not yet armed is held for it. -/
def TokensMove : Prop :=
  ∀ (die unit operand cyc : Nat) (s : State), dieUp s die →
    let x := bits operand 2 0;
    (∀ t : Transit, (s.dev.eng.transit.filter fun t => t.toDie == die && t.toUnit == unit && decide (t.due ≤ cyc)) = [t] →
      t.held = none →
      let d := { s.dev with eng := { s.dev.eng with transit := s.dev.eng.transit.filter fun t => !(t.toDie == die && t.toUnit == unit && decide (t.due ≤ cyc)) } };
      let enters := fun (d : Dev) at_ => modUnit d die unit fun q =>
        if t.isData then { q with data := q.data ++ [{ t.tok with seen := at_ }] } else { q with credit := q.credit ++ [{ t.tok with seen := at_ }] };
      ((if t.isData then (unitOf s.dev die unit).data else (unitOf s.dev die unit).credit).length < 32 →
        (t.tok.die = die ∨ t.due = cyc → exec (.tokenArrival die unit cyc) s = .next (s.withDev (enters d t.due))) ∧
        (t.tok.die ≠ die → t.due < cyc → exec (.tokenArrival die unit cyc) s = .next (s.withDev (enters (raise d 0x018 die unit t.tok.die) cyc)))) ∧
      (32 ≤ (if t.isData then (unitOf s.dev die unit).data else (unitOf s.dev die unit).credit).length →
        exec (.tokenArrival die unit cyc) s = .next (s.withDev (latheCnt
          { d with eng := { d.eng with transit := d.eng.transit ++ [{ t with held := some (cyc + 1) }] } } t.tok.die 0x30 (cyc + 1 - t.due))))) ∧
    exec (.route die unit operand) s = .next (s.withDev (modUnit s.dev die unit fun q => { q with route := bits operand 47 0 })) ∧
    ((stillRuns (unitOf s.dev die unit) cyc).isEmpty = true →
      exec (.signal die unit operand cyc) s = .next (s.withDev (sendRoute s.dev die unit (cyc + 1) (unitOf s.dev die unit).route)) ∧
      ((barOf s.dev die x).armed = false →
        ∃ d, exec (.barWait die unit operand cyc) s = .next (s.withDev d) ∧ (barOf d die x).held = (barOf s.dev die x).held ++ [(unit, cyc)] ∧
          (unitOf d die unit).waitBar = some (x, []) ∧ (unitOf d die unit).ops = (unitOf s.dev die unit).ops ∧ d.regs = s.dev.regs)) ∧
    (bits operand 7 0 ≠ 0xff → bits operand 19 12 ≤ 32 →
      exec (.grant die unit operand cyc) s = .next (s.withDev (Nat.repeat (fun d =>
        sendTok d die unit (cyc + 1) false (bits operand 10 8) (bits operand 7 0) false) (bits operand 19 12) s.dev))) ∧
    exec (.unitNop die unit operand) s = .next s ∧
    ((barOf s.dev die x).armed = true → exec (.barArm die operand cyc) s = .next (s.withDev (latheErr s.dev die 2 0x039 x))) ∧
    ((barOf s.dev die x).armed = false → (barOf s.dev die x).held = [] → (barOf s.dev die x).mismatch = false → exec (.barArm die operand cyc) s = .next (s.withDev (modBar s.dev die x fun _ =>
      { armed := true, dieMask := bits operand 15 8, slotMask := bits operand 31 16, engMask := bits operand 36 32, armCyc := cyc, arrivals := [], held := [] })))

/-- A barrier whose every participant has arrived is released at its computed cycle on every die of its mask, and is then no longer armed there (R326); only waits that
lasted into the release phase count in a register (R316). -/
def BarrierReleases : Prop :=
  ∀ (die x cyc : Nat) (s : State), dieUp s die → releaseCyc s.dev die x = some cyc →
    ∃ d, exec (.barrierRelease die x cyc) s = .next (s.withDev d) ∧ (cyc ≤ workEnd s.dev - 2000 → d.regs = s.dev.regs) ∧ d.world = s.dev.world ∧
      ∀ e, e < 8 → bitAt (barOf s.dev die x).dieMask e = true →
        (barOf d e x).armed = false ∧ (barOf d e x).arrivals = [] ∧ (barOf d e x).dieMask = (barOf s.dev e x).dieMask

/-- Bank owners and the background test (R333, R334, R339): an owner is staged and stays staged until a boundary; a bank whose core is removed and has lost its owner takes none;
a region tested after its period shows, one that fails shows with its number and raises BNK_BIST, and the last of a bank counts a pass. -/
def Obligations.BanksRun : Prop :=
  ∀ (die bank v : Nat) (s : State), die < 8 → bank < 16 → die < variantDies s.fuses.variant →
    let t := tgetD s.dev.eng.tests (die * 16 + bank) default; let w := dieWin die;
    (bankRemoved s.dev die bank = false →
      ∃ d, exec (.bankOwnerStage die bank v) s = .next (s.withDev d) ∧ tget d.eng.owner (die * 16 + bank) = some (bankOwner s.dev die bank, bits v 12 8, true) ∧
        bankOwner d die bank = bankOwner s.dev die bank ∧ d.regs = s.dev.regs) ∧
    (bankRemoved s.dev die bank = true → ∃ d, exec (.bankOwnerStage die bank v) s = .next (s.withDev d) ∧ d.eng = s.dev.eng) ∧
    (∀ fail : Bool, bitAt (rget s.dev (w + 0x11000)) 2 = true → (∀ st, t.started = some st → st + bits (rget s.dev (w + 0x11004)) 15 0 ≤ s.dev.time.turn) →
      let d1 := rset s.dev (w + 0x10004 + 0x100 * bank) (t.region * 16);
      let d2 := if fail then raise (rset d1 (w + 0x10018 + 0x100 * bank) (0x80000000 + t.region)) 0x021 die (0x90 + bank) t.region else d1;
      let d3 := if t.region = 2559 then cntWrap d2 (w + 0x10014 + 0x100 * bank) else d2;
      exec (.bankTestRegion die bank fail) s = .next (s.withDev { d3 with eng := { d3.eng with
        tests := tput d3.eng.tests (die * 16 + bank) { region := if t.region = 2559 then 0 else t.region + 1, started := some s.dev.time.turn } } }))


/-! ### Control cores, threads, coherence -/

/-- A control core of a populated die in service that is not halted. -/
def ctlUp (s : State) (die core : Nat) : Prop :=
  die < 8 ∧ core < 4 ∧ die < variantDies s.fuses.variant ∧ dieLive s.dev die = true ∧ (coreOf s.dev die core).halted = false
/-- The model's byte address of address `a` in the window of a core onto bulk memory (R411). -/
def winAddr (d : Dev) (die core a : Nat) : Nat := bulkBase die + (coreOf d die core).winBase + (a - 0x80000000)
/-- The `n` bytes that a core reads through its window from address `a` on. -/
def winGets (s : State) (die core a n : Nat) : Bytes := bulkGets s.mem s.dev die ((coreOf s.dev die core).winBase + (a - 0x80000000)) n
/-- The `n` bytes from `a` on lie in the window onto bulk memory. -/
def inWindow32 (a n : Nat) : Prop := 0x80000000 ≤ a ∧ a + n ≤ 0x100000000
/-- Three registers are different ones. -/
def distinct3 (a b c : Nat) : Prop := a < 32 ∧ b < 32 ∧ c < 32 ∧ a ≠ b ∧ a ≠ c ∧ b ≠ c

/-- MCOPY and MFILL over a block in the window onto bulk memory (R414): the block is copied or filled, byte i of a fill being byte i mod 4 of the pattern; the
operand registers stand past the block, the count is 0, and the PC passes the instruction (by four: the model's choice, log entry 44). -/
def CopyAndFillRun : Prop :=
  ∀ (die core gd gs gn : Nat) (s : State), Sound s → ctlUp s die core → distinct3 gd gs gn →
    let dst := greg s.dev die core gd; let src := greg s.dev die core gs; let n := greg s.dev die core gn;
    inWindow32 dst n →
    (inWindow32 src n → (dst + n ≤ src ∨ src + n ≤ dst) →
      ∃ d, exec (.mcopy die core gd gs gn none 0 none) s =
          .next (s.withMem (mputs s.mem (winAddr s.dev die core dst) (winGets s die core src n)) d) ∧
        greg d die core gd = (dst + n) % 2 ^ 32 ∧ greg d die core gs = (src + n) % 2 ^ 32 ∧ greg d die core gn = 0 ∧
        (coreOf d die core).pc = ((coreOf s.dev die core).pc + 4) % 2 ^ 32) ∧
    (∃ d, exec (.mfill die core gd gs gn none 0 none) s =
        .next (s.withMem (mputs s.mem (winAddr s.dev die core dst) ((List.range n).map fun i => (leBytes 4 src).getD (i % 4) 0)) d) ∧
      greg d die core gd = (dst + n) % 2 ^ 32 ∧ greg d die core gs = src ∧ greg d die core gn = 0 ∧
      (coreOf d die core).pc = ((coreOf s.dev die core).pc + 4) % 2 ^ 32)

/-- QDRAIN into the window onto bulk memory (R414): entries of 64 bytes leave the hardware queue in order, until the limit or until the queue is empty. -/
def QueueDrainRuns : Prop :=
  ∀ (die core gd gq gn : Nat) (s : State), ctlUp s die core → distinct3 gd gq gn →
    let dst := greg s.dev die core gd; let q := greg s.dev die core gq; let n := greg s.dev die core gn; let l := tgetD (schedOf s.dev die).hwq q [];
    let k := min n l.length;
    inWindow32 dst (64 * k) →
    ∃ d, exec (.qdrain die core gd gq gn none 0 none) s = .next (s.withMem (mputs s.mem (winAddr s.dev die core dst) ((l.take k).flatMap (fit 64))) d) ∧
      tgetD (schedOf d die).hwq q [] = l.drop k ∧ greg d die core gd = (dst + 64 * k) % 2 ^ 32 ∧ greg d die core gn = n - k ∧
      (coreOf d die core).pc = ((coreOf s.dev die core).pc + 4) % 2 ^ 32

/-- CRCB.32 and CRCB.64 over a block in the window onto bulk memory (R414): the state goes over the block byte by byte, without inversions; memory stays. -/
def BlockCrcRuns : Prop :=
  ∀ (die core gc gs gn : Nat) (s : State), ctlUp s die core → distinct3 gc gs gn →
    let src := greg s.dev die core gs; let n := greg s.dev die core gn; let bs := winGets s die core src n;
    inWindow32 src n →
    (∃ d, exec (.crcb32 die core gc gs gn none 0 none) s = .next (s.withDev d) ∧
      greg d die core gc = bs.foldl crc32cByte (greg s.dev die core gc) ∧ greg d die core gs = (src + n) % 2 ^ 32 ∧ greg d die core gn = 0) ∧
    (gc + 1 < 32 → gc + 1 ≠ gs → gc + 1 ≠ gn →
      ∃ d, exec (.crcb64 die core gc gs gn none 0 none) s = .next (s.withDev d) ∧
        greg d die core gc + 2 ^ 32 * greg d die core (gc + 1) = crc64 (greg s.dev die core gc + 2 ^ 32 * greg s.dev die core (gc + 1)) bs ∧
        greg d die core gs = (src + n) % 2 ^ 32 ∧ greg d die core gn = 0)

/-- Interrupts and faulting elements (R412, R415 to R417, R454): an interrupt within 840 cycles, or an NMI that the warden has set, saves the PC and enters a
handler, whose address the spec does not give (a free value, and the codes 1 to 3 of the cause are the model's choice: log entry 19); the largest latency shows. A double-bit error in the first element stores nothing, counts, and is a precise
fault: the PC saved is the instruction's own and the operand registers stand. -/
def Obligations.InterruptsRun : Prop :=
  ∀ (die core : Nat) (s : State), ctlUp s die core → let c := coreOf s.dev die core;
    (∀ (nmi : Bool) (lat : Nat), (nmi = true → c.nmi = true) → lat ≤ 840 →
      ∃ d h, exec (.interruptTake die core nmi lat) s = .next (s.withDev d) ∧
        coreOf d die core = { c with savedPc := c.pc, pc := h, trap := some (if nmi then 3 else 2), nmi := if nmi then false else c.nmi } ∧
        rget d (dieWin die + 0x30008) = max (rget s.dev (dieWin die + 0x30008)) lat % 2 ^ 32) ∧
    (∀ (gd gs gn : Nat), greg s.dev die core gn ≠ 0 →
      ∃ d h, exec (.mcopy die core gd gs gn none 0 (some 0)) s = .next (s.withDev d) ∧
        coreOf d die core = { c with savedPc := c.pc, pc := h, trap := some 1 } ∧ bitAt (rget d (dieWin die + 0x30004)) 0 = true ∧
        ∃ m, d.wdn.inbox = s.dev.wdn.inbox ++ [m] ∧ m.src = 0x024 ∧ m.die = die)

/-- A thread is made (R419): the lowest free slot takes its level, entry and argument and is READY; without a free slot, or above level 3 with only the
reserve left, the spawner reads the status 0x204 and nothing is made. -/
def Obligations.ThreadSpawnRuns : Prop :=
  ∀ (die core rd level entry arg t n : Nat) (s : State), ctlUp s die core → (coreOf s.dev die core).running.isSome = true → rd < 32 →
    let free := (List.range 256).find? fun n => (threadOf s.dev die n).state == TState.free;
    let reserve := min 64 (bits (rget s.dev (dieWin die + 0x20000)) 15 8);
    (free = some n → (level < 4 ∨ reserve < 256 - threadsUsed s.dev die) → (∀ c < 4, (coreOf s.dev die c).running ≠ some n) →
      ∃ d, exec (.tspawn die core rd level entry arg t) s = .next (s.withDev d) ∧ greg d die core rd = 0 ∧
        (threadOf d die n).state = .ready ∧ (threadOf d die n).level = level % 32 ∧ (threadOf d die n).pc = entry % 2 ^ 32 ∧
        (threadOf d die n).ready = ticks t ∧ tget (threadOf d die n).regs 0 = some (BitVec.ofNat 32 arg) ∧ (threadOf d die n).flags = 0) ∧
    (free = none ∨ (4 ≤ level ∧ 256 - threadsUsed s.dev die ≤ reserve) →
      exec (.tspawn die core rd level entry arg t) s = .next (s.withDev (cnt (gset (pcNext s.dev die core) die core rd 0x204) (dieWin die + 0x2000C))))

/-- A running thread waits, sleeps, yields and ends (R418, R423, R425): a condition met returns its flags and clears them; one not met leaves the core idle with the
thread's context saved, in the delay list where it is timed; a thread that ends frees its slot. The PC passes an instruction by four: the model's choice, log entry 44. -/
def ThreadWaitsRun : Prop :=
  ∀ (die core n : Nat) (s : State), ctlUp s die core → (coreOf s.dev die core).running = some n →
    let c := coreOf s.dev die core; let pc := (c.pc + 4) % 2 ^ 32;
    (∀ (rd mask : Nat) (all : Bool), rd < 32 →
      let th := { threadOf s.dev die n with mask := BitVec.ofNat 32 mask, modeAnd := all, rd := rd };
      (∀ f e, waitMet th = some f → ∃ d, exec (.twait die core rd mask all e) s = .next (s.withDev d) ∧ greg d die core rd = f.toNat ∧
        (threadOf d die n).flags = th.flags - f ∧ (threadOf d die n).state = th.state ∧ (coreOf d die core).running = some n ∧ (coreOf d die core).pc = pc) ∧
      (waitMet th = none → ∃ d, exec (.twait die core rd mask all none) s = .next (s.withDev d) ∧ (coreOf d die core).running = none ∧
        threadOf d die n = { th with state := .waiting, core := core, regs := c.regs, pc := pc } ∧ (schedOf d die).delay = (schedOf s.dev die).delay) ∧
      (∀ e, waitMet th = none → ∃ d, exec (.twait die core rd mask all (some e)) s = .next (s.withDev d) ∧ (coreOf d die core).running = none ∧
        threadOf d die n = { th with state := .waitTimed, core := core, regs := c.regs, pc := pc } ∧ (e, n) ∈ (schedOf d die).delay)) ∧
    (∀ e, ∃ d, exec (.tdelay die core e) s = .next (s.withDev d) ∧ (coreOf d die core).running = none ∧ (e, n) ∈ (schedOf d die).delay ∧
      threadOf d die n = { threadOf s.dev die n with state := .delayed, core := core, regs := c.regs, pc := pc }) ∧
    (∀ t, ∃ d, exec (.tyield die core t) s = .next (s.withDev d) ∧ (coreOf d die core).running = none ∧ (threadOf d die n).state = .ready ∧
      (threadOf d die n).ready = ticks t) ∧
    (tsorted 0 (schedOf s.dev die).threads = true →
      ∃ d, exec (.texit die core) s = .next (s.withDev d) ∧ (coreOf d die core).running = none ∧ threadOf d die n = default)

/-- Flags wake threads (R423, R424): a flag set at a thread that does not wait stays set; one that meets the wait makes the thread READY, the flags of its mask
going to its register and clearing; a free slot only counts. A hardware queue bound to a flag holds its entry first. -/
def Obligations.FlagsRun : Prop :=
  ∀ (die slot flag t : Nat) (s : State), dieUp s die → flag < 32 →
    let th := threadOf s.dev die slot; let set := th.flags ||| BitVec.ofNat 32 (2 ^ flag);
    (th.state = .ready ∨ th.state = .running ∨ th.state = .delayed →
      exec (.hardwareEventFlag die slot flag t none) s = .next (s.withDev (modThread s.dev die slot fun _ => { th with flags := set }))) ∧
    (th.state = .free → exec (.hardwareEventFlag die slot flag t none) s = .next (s.withDev (cnt s.dev (dieWin die + 0x20018)))) ∧
    (∀ f, th.state = .waiting ∨ th.state = .waitTimed → waitMet { th with flags := set } = some f → (∀ c < 4, (coreOf s.dev die c).running ≠ some slot) →
      ∃ d, exec (.hardwareEventFlag die slot flag t none) s = .next (s.withDev d) ∧ (threadOf d die slot).state = .ready ∧ (threadOf d die slot).flags = set - f ∧
        tget (threadOf d die slot).regs (th.rd % 32) = some f ∧ (threadOf d die slot).ready = ticks t) ∧
    (∀ (q : Nat) (e : Bytes), th.state = .ready →
      exec (.hardwareEventFlag die slot flag t (some (q, e))) s = .next (s.withDev (modThread (modSched s.dev die fun x =>
        { x with hwq := tput x.hwq q (tgetD x.hwq q [] ++ [fit 64 e]) }) die slot fun _ => { th with flags := set }))) ∧
    (∀ core, ctlUp s die core → (coreOf s.dev die core).running.isSome = true → th.state = .ready ∨ th.state = .running ∨ th.state = .delayed →
      exec (.tsignal die core slot flag t) s = .next (s.withDev (modThread (pcNext s.dev die core) die slot fun _ => { th with flags := set })))

/-- An idle core takes the thread that R420 gives it, with its context; a thread whose delay ends is READY at that tick (R420, R422, R425). -/
def CoreTakesAndDelaysRun : Prop :=
  ∀ (die : Nat) (s : State), dieUp s die →
    (∀ core t n, ctlUp s die core → (coreOf s.dev die core).running = none → takeFrom s.dev die core (readyOrder s.dev die) = some n →
      ∃ d, exec (.coreTake die core t) s = .next (s.withDev d) ∧
        coreOf d die core = { coreOf s.dev die core with running := some n, dispatched := ticks t, regs := (threadOf s.dev die n).regs, pc := (threadOf s.dev die n).pc } ∧
        threadOf d die n = { threadOf s.dev die n with state := .running, core := core, everRan := true }) ∧
    (∀ tick e n, ((schedOf s.dev die).delay.filter fun x => decide (x.1 ≤ tick)) = [(e, n)] → (threadOf s.dev die n).state = .delayed →
      ∃ d, exec (.delayExpiry die tick) s = .next (s.withDev d) ∧ (threadOf d die n).state = .ready ∧ (threadOf d die n).ready = tick * 250 ∧
        (schedOf d die).delay = (schedOf s.dev die).delay.filter fun x => x.2 != n)

/-- Ordered flows (R426): a ticket is taken; the item of the oldest ticket goes out, and one of a later ticket waits; a skipped ticket gives no item; a ticket
that is not outstanding raises HTS_FLOW. -/
def Obligations.FlowsRun : Prop :=
  ∀ (die core f : Nat) (s : State), ctlUp s die core → (coreOf s.dev die core).running.isSome = true → f < 16 →
    let d0 := pcNext s.dev die core; let r := flowOf s.dev die f;
    (∀ rd n, (coreOf s.dev die core).running = some n → r.open_.length < 256 →
      exec (.flowEnter die core rd f) s = .next (s.withDev (gset (modFlow d0 die f fun r =>
        { r with next := (r.next + 1) % 2 ^ 32, open_ := r.open_ ++ [(r.next, n, none)] }) die core rd r.next))) ∧
    (∀ ticket th item rest, r.open_ = (ticket, th, none) :: rest → (∀ x ∈ rest, x.1 ≠ ticket ∧ x.2.2 = none) →
      exec (.flowDone die core f ticket item) s = .next (s.withDev (modFlow d0 die f fun r => { r with open_ := rest, out := r.out ++ [BitVec.ofNat 64 item] })) ∧
      exec (.flowSkip die core f ticket) s = .next (s.withDev (modFlow d0 die f fun r => { r with open_ := rest }))) ∧
    (∀ ticket th old ho item, r.open_ = [(old, ho, none), (ticket, th, none)] → old ≠ ticket →
      exec (.flowDone die core f ticket item) s = .next (s.withDev (modFlow d0 die f fun r =>
        { r with open_ := [(old, ho, none), (ticket, th, some (some (BitVec.ofNat 64 item)))] }))) ∧
    (∀ ticket item, (∀ x ∈ r.open_, x.1 ≠ ticket) →
      exec (.flowDone die core f ticket item) s = .next (s.withDev (flowFault d0 die core f)) ∧
      exec (.flowSkip die core f ticket) s = .next (s.withDev (flowFault d0 die core f)))

/-- No cache holds a line, none waits for it, and the cache has room for it. -/
def coldLine (d : Dev) (k l : Nat) : Prop :=
  (dirOf d l).busy = none ∧ (dirOf d l).holders = [] ∧ (dirOf d l).modified = none ∧ tget (cacheOf d k).lines l = none ∧ thas (cacheOf d k).wb l = false ∧
    (dirOf d l).waiting = [] ∧ (cacheOf d k).lines.length < 256

/-- Control memory is coherent (R427 to R430): a request for a line that nobody holds is granted with the home's data; one for a busy line waits; a holder snooped
with modified data returns it to the home, and the request that no other holder keeps waiting is granted with it; an eviction notice leaves the home holding the data and one holder fewer; its acknowledgement frees the
buffer; a store-through writes the home's word. -/
def Obligations.CoherenceRuns : Prop :=
  ∀ (die core a l v : Nat) (own : Bool) (s : State), ctlUp s die core → lineOf a = some l → homeOf l < popDies s.fuses → dieLive s.dev (homeOf l) = true →
    let k := die * 4 + core;
    (coldLine s.dev k l → ∃ d, exec (.coherenceRequest die core a own none) s = .next (s.withDev d) ∧
      tget (cacheOf d k).lines l = some (own, mgets s.mem l 64) ∧ (dirOf d l).holders = [k] ∧ (dirOf d l).modified = (if own then some k else none) ∧
      (dirOf d l).busy = none) ∧
    (∀ b, (dirOf s.dev l).busy = some b → b.reqCache ≠ k → (∀ w ∈ (dirOf s.dev l).waiting, w.1 ≠ k) → thas (cacheOf s.dev k).wb l = false →
      tget (cacheOf s.dev k).lines l = none → (cacheOf s.dev k).lines.length < 256 →
      exec (.coherenceRequest die core a own none) s = .next (s.withDev (modDir s.dev l fun r => { r with waiting := r.waiting ++ [(k, own)] }))) ∧
    (∀ b data, (dirOf s.dev l).busy = some b → tget (cacheOf s.dev b.target).lines l = some (true, data) →
      ∃ d, exec (.snoop a) s = .next (s.withMem (mputs s.mem l data) d) ∧
        (b.rest = [] → (dirOf s.dev l).waiting = [] → b.reqCache ≠ b.target → dieLive s.dev (b.reqCache / 4) = true →
          tsorted 0 (cacheOf s.dev b.target).lines = true →
          tget (cacheOf d b.reqCache).lines l = some (b.reqOwn, mgets (mputs s.mem l data) l 64) ∧ (dirOf d l).busy = none ∧
          tget (cacheOf d b.target).lines l = if b.reqOwn then none else some (false, data))) ∧
    (∀ data, tget (cacheOf s.dev k).wb l = some { dirty := true, data := data, noticed := false } → (dirOf s.dev l).busy = none →
      exec (.evictDirty die core a) s = .next (s.withMem (mputs s.mem l data) (ackEvict s.dev l k))) ∧
    (∀ data, tget (cacheOf s.dev k).wb l = some { dirty := false, data := data, noticed := false } → (dirOf s.dev l).busy = none →
      exec (.evictClean die core a) s = .next (s.withDev (ackEvict s.dev l k))) ∧
    (∀ b, s.dev.ctc.pendAns = [(k, l)] → (dirOf s.dev l).busy = some b → b.target = k → b.notice = none →
      exec (.evictPending die core a) s = .next (s.withDev (modDir { s.dev with ctc := { s.dev.ctc with pendAns := [] } } l fun r =>
        { r with busy := some { b with pendingSeen := true } }))) ∧
    (∀ w, tget (cacheOf s.dev k).wb l = some w → w.noticed = true →
      exec (.evictAck die core a) s = .next (s.withDev (modCache s.dev k fun c => { c with wb := tdel c.wb l }))) ∧
    (coldLine s.dev k l → a % 4 = 0 →
      let data := mgets s.mem l 64; let b := data.take (a % 64) ++ leBytes 4 v ++ data.drop (a % 64 + 4);
      ∃ d, exec (.stwt die core a v) s = .next (s.withMem (mputs s.mem l b) d) ∧ tget (cacheOf d k).lines l = some (true, b) ∧ (dirOf d l).holders = [k] ∧
        (coreOf d die core).pc = ((coreOf s.dev die core).pc + 4) % 2 ^ 32)


/-! ### The warden -/

/-- Messages reach the package warden (R449, R457, R459, R463, R470): one of a privileged source puts the package into the safe state, latched; a first message
of a source that only interrupts makes its instance active and opens its record; an instance is quiet again after its time without one. -/
def Obligations.WardenMessagesRun : Prop :=
  ∀ (m : WMsg) (t : Nat) (s : State), (srcRow m.src).isSome = true →
    let d0 := atTime s.dev t; let k := instKey s.dev m; let i := tgetD s.dev.wdn.inst k default; let r := tgetD s.dev.wdn.recs m.src default;
    (isPriv m.src = true → m.kind ≠ 2 → ∃ d, exec (.wardenMessage (some m) t) s = .next (s.withDev d) ∧ d.wdn.safe.on = true ∧ d.wdn.safe.latched = true) ∧
    (isPriv m.src = false → m.kind = 0 → i.state = 0 → i.live = false → evtReact s.dev m.src = 1 →
      (bits (cfg0 s.dev m.src) 31 24 = 0 ∨ inWindow s.dev m.src ((t :: i.times).take 256) < bits (cfg0 s.dev m.src) 31 24) → r.isOpen = false → s.dev.wdn.ring.length < wdnRingMax →
      ∃ d, exec (.wardenMessage (some m) t) s = .next (s.withDev d) ∧
        tget d.wdn.inst k = some { i with state := 1, times := (t :: i.times).take 256, last := t, origin := m.origin } ∧
        tget d.wdn.recs m.src = some { (default : WRec) with msg := m, lastTs := m.ts, isOpen := true } ∧ d.wdn.ring = s.dev.wdn.ring ++ [m] ∧
        d.wdn.safe = s.dev.wdn.safe ∧ d.regs = s.dev.regs ∧ d.world = s.dev.world) ∧
    (s.dev.wdn.inbox = [m] →
      exec (.wardenMessage none t) s = .next (s.withDev (classify s.fuses (modWdn d0 fun w => { w with inbox := [] }) m t))) ∧
    (∀ n, isPriv m.src = false → n.src = m.src → n.die = m.die → n.kind = m.kind → m.ts ≤ n.ts → s.dev.wdn.inbox = [m, n] →
      let d1 := modWdn d0 fun w => { w with inbox := [] }; let m' := { m with ts := n.ts };
      exec (.wardenMessage none t) s = .next (s.withDev (classify s.fuses (classify s.fuses d1 m' t) m' t))) ∧
    (∀ j, bits (cfg0 s.dev m.src) 15 14 = 0 → tget s.dev.wdn.inst (m.src * 128) = some j → isPriv m.src = false → j.live = false → (j.state = 1 ∨ j.state = 2) →
      j.last + bits (cfg1 s.dev m.src) 15 0 * 1000000 ≤ t → bits (cfg0 s.dev m.src) 12 7 = 0 →
      exec (.quietExpiry m.src m.die 0 t) s = .next (s.withDev (setInst d0 (m.src * 128)
        { j with state := 0, recov := (t :: j.recov).filter fun x => decide (t / 60000000000 < x / 60000000000 + 60) })))

/-- What is written to the warden (R456, R458, R465, R466, R468): the lock sets its bit and takes the configuration's CRC; a changed configuration and a missed
heartbeat are messages; an acknowledged record without a live condition closes; unlatching makes latched instances quiet; injection posts a TEST message, and of a
privileged source under lock an error; reading a record's first word marks it read. -/
def WardenWritesRun : Prop :=
  ∀ (src t v : Nat) (s : State),
    let d0 := atTime s.dev t;
    (bitAt (rget s.dev 0x200000) 0 = false → ∃ d, exec .wdnLock s = .next (s.withDev d) ∧ bitAt (rget d 0x200000) 0 = true ∧
      rget d 0x200034 = crc32c (wdnCfgBytes d) % 2 ^ 32 ∧ ∀ o, o ≠ 0x200000 → o ≠ 0x200034 → rget d o = rget s.dev o) ∧
    (bitAt (rget s.dev 0x200000) 0 = true → crc32c (wdnCfgBytes s.dev) ≠ rget s.dev 0x200034 →
      exec (.wdnCfgCheck t) s = .next (s.withDev (raise d0 0x001 0 0xE2 0))) ∧
    (bitAt (rget s.dev 0x200000) 0 = true → crc32c (wdnCfgBytes s.dev) = rget s.dev 0x200034 → exec (.wdnCfgCheck t) s = .next s) ∧
    (∀ die, exec (.wdnHeartbeatMiss die v t) s = .next (s.withDev (raise d0 0x005 die 0xE2 v))) ∧
    ((tgetD s.dev.wdn.recs (bits v 8 0) default).isOpen = true → (∀ i ∈ s.dev.wdn.inst, i.2.live = false) → bitAt v 30 = false → bitAt v 31 = false →
      exec (.wdnAck v t) s = .next (s.withDev (modRec d0 (bits v 8 0) fun r => { r with isOpen := false }))) ∧
    (∀ r, s.dev.wdn.recs = [(src, r)] → r.isOpen = true → (∀ i ∈ s.dev.wdn.inst, i.2.live = false) →
      exec (.wdnAckAll t) s = .next (s.withDev (modRec d0 src fun r => { r with isOpen := false }))) ∧
    (isPriv src = false → (tgetD s.dev.wdn.recs src default).isOpen = false →
      exec (.wdnUnlatch src t) s = .next (s.withDev (modWdn d0 fun w => { w with inst := tmap (fun k i =>
        if k / 128 = src ∧ i.state = 3 then { i with state := 0, recov := [] } else i) w.inst }))) ∧
    (isPriv (bits v 8 0) = false ∨ bitAt (rget s.dev 0x200000) 0 = false →
      exec (.wdnInject v t) s = .next (s.withDev (post d0 { src := bits v 8 0, die := bits v 11 9, kind := 3, origin := bits v 19 12, detail := 0, ts := t }))) ∧
    (isPriv (bits v 8 0) = true → bitAt (rget s.dev 0x200000) 0 = true → exec (.wdnInject v t) s = .next (s.withDev (stick s.dev 0x200014 2))) ∧
    (∀ r, tget s.dev.wdn.recs (bits (rget s.dev 0x200040) 8 0) = some r →
      exec .recMsg0Read s = .next (s.withDev (modRec s.dev (bits (rget s.dev 0x200040) 8 0) fun r => { r with isRead := true })))

/-- The safe state is left and shown (R462, R472, R475, R476): a request to clear is refused while an instance holds S, else noted; at a boundary the state ends
where nothing holds S, nothing is latched and the exit is permitted; a heartbeat notice goes out in its turns; a waiting block reset takes effect once. -/
def SafeStateRuns : Prop :=
  ∀ (s : State), let x := s.dev.wdn.safe;
    (anyHeld s.dev 5 = true → exec .wdnSafeClr s = .next (s.withDev (stick s.dev 0x200014 1))) ∧
    (anyHeld s.dev 5 = false → exec .wdnSafeClr s = .next (s.withDev (modWdn s.dev fun w => { w with safe := { w.safe with clrReq := true } }))) ∧
    (x.on = true → x.latched = false → anyHeld s.dev 5 = false → (bitAt (rget s.dev 0x200000) 1 = true ∨ x.clrReq = true) →
      ∃ d, exec .safeStateExit s = .next (s.withDev d) ∧ d.wdn.safe.on = false ∧ d.wdn.safe.stopped = false ∧ d.wdn.safe.notices = x.notices + 1 ∧ d.world = s.dev.world) ∧
    (x.latched = true → exec .safeStateExit s = .next s) ∧
    (∀ turn, bits (rget s.dev 0x200028) 15 0 ≠ 0 → turn % bits (rget s.dev 0x200028) 15 0 = 0 → running s.dev = true →
      exec (.safeHeartbeat turn) s = .next (s.withDev (notice s.dev turn (turnStart s.dev (turn + 1)) true false))) ∧
    (∀ die core, dieUp s die → core < 16 → s.dev.wdn.resets.contains (die, 0x90 + core) = true →
      ∃ d, exec (.blockReset die (0x90 + core)) s = .next (s.withDev d) ∧ d.wdn.resets = s.dev.wdn.resets.filter (· != (die, 0x90 + core)) ∧
        d.eng.halves = tfilter (fun h _ => h / 2 != die * 16 + core) s.dev.eng.halves ∧ d.eng.tables = tfilter (fun h _ => h / 8 != die * 16 + core) s.dev.eng.tables ∧
        d.eng.frn = tfilter (fun h _ => h / 1024 != die * 16 + core) s.dev.eng.frn ∧ d.regs = s.dev.regs)

/-! ### Power, resets, boot, telemetry, test port -/

/-- Power and resets (R539, R545, R547, R548, R554, R555): power on leaves RESET_N and PWR_GOOD low; RESET_N or PWR_GOOD low (one command) for at least
10 µs and a package reset put everything back but the flash, the latch of THERMTRIP_N, the pins' levels and what the host holds; a shorter pulse is taken or not; a
removal of VDD_IO loses all but the flash; a junction above 95 °C is a live condition that ends below 90 °C, one above 105 °C is raised, one above 115 °C latches the
trip; telemetry takes its address from the boot configuration, or the one of R555 where that has none. -/
def Obligations.PowerAndResetsRun : Prop :=
  ∀ (s : State),
    (s.dev.pin.vddIo = false → ∃ d, exec .powerOn s = .next (s.withDev d) ∧ d.pin = { (default : PinDev) with vddIo := true, flash := s.dev.pin.flash, tapIr := .idcode, drive := .part } ∧
      d.world = Dev.reset.world ∧ d.ldg = Dev.reset.ldg) ∧
    (∃ d, exec .powerLoss s = .next (s.withDev d) ∧ d.pin.vddIo = false ∧ d.pin.flash = s.dev.pin.flash ∧ d.pin.trip = false ∧ d.world = Dev.reset.world ∧
      d.wdn.ring = [] ∧ d.fab.witness = s.dev.fab.witness) ∧
    (∃ d, exec .packageReset s = .next (s.withDev d) ∧ d.pin.flash = s.dev.pin.flash ∧ d.pin.trip = s.dev.pin.trip ∧ d.pin.ready = false ∧ d.pin.stage = 0 ∧
      d.world = Dev.reset.world ∧ d.ldg = Dev.reset.ldg ∧ d.time = Dev.reset.time ∧ d.q = Dev.reset.q ∧ d.eng = Dev.reset.eng ∧ d.twin = Dev.reset.twin ∧
      d.wdn.ring = s.dev.wdn.ring ∧ d.wdn.safe.on = false ∧ (∀ o, o ≠ 0x100800 → rget d o = regReset o) ∧ rget d 0x100800 = brmReset s.fuses.variant) ∧
    (∀ us, s.dev.pin.vddIo = true → 10 ≤ us →
      exec (.resetNLow us) s = .next (s.withDev (modPin (packageReset s.fuses s.dev) fun p => { p with resetN := false }))) ∧
    (∀ us, s.dev.pin.vddIo = true → us < 10 → ∃ taken : Bool, let d := { s.dev with free := s.dev.free + 1 };
      exec (.resetNLow us) s = .next (s.withDev (if taken then modPin (packageReset s.fuses d) fun p => { p with resetN := false } else d))) ∧
    (∀ (die : Nat) (temp : Int), dieUp s die → 760 < temp → temp ≤ 840 → exec (.thermalTrip die temp) s = .next (s.withDev (assertLive s.dev 0x01D die 0xFF 0))) ∧
    (∀ (die : Nat) (temp : Int), dieUp s die → temp < 720 → exec (.thermalTrip die temp) s = .next (s.withDev (clearLive s.dev 0x01D die 0xFF 0))) ∧
    (∀ (die : Nat) (temp : Int), dieUp s die → 840 < temp → temp ≤ 920 →
      exec (.thermalTrip die temp) s = .next (s.withDev (raise (assertLive s.dev 0x01D die 0xFF 0) 0x01E die 0xFF temp.toNat))) ∧
    (∀ (die : Nat) (temp : Int), dieUp s die → 920 < temp → s.dev.pin.vddIo = true →
      ∃ d, exec (.thermalTrip die temp) s = .next (s.withDev d) ∧ d.pin = { s.dev.pin with trip := true } ∧ thermTripN d = false ∧ d.world = s.dev.world) ∧
    (∀ (die : Nat) (temp : Int), dieUp s die → 720 ≤ temp → temp ≤ 760 → exec (.thermalTrip die temp) s = .next s) ∧
    (s.dev.pin.vddIo = true → s.dev.pin.smbAddr = none →
      ∃ a, exec .pwrGoodRise s = .next (s.withDev (modPin s.dev fun p => { p with pwrGood := true, smbAddr := some a })) ∧ 0x58 ≤ a ∧ a ≤ 0x5F)

/-- Boot (R552, R553): with a good configuration and image the active slot holds the image from the flash and boot goes on; a configuration or an image that fails
stops it in its failure stage; once the dies and cores are known the tile map stands and the package is ready.
That the verdicts on the two signatures come with the command, and what the boot sector says, are the model's choice: log entry 29. -/
def Obligations.BootRuns : Prop :=
  ∀ (s : State),
    let clear := s.dev.pin.vddIo = true ∧ s.dev.pin.pwrGood = true ∧ s.dev.pin.trip = false ∧ s.dev.pin.stage = 0;
    (clear → imgFormatOk (flashImage s.dev) = true → imgRangeOk (flashImage s.dev) = true →
      ∃ d, exec (.boot true true) s = .next (s.withDev d) ∧ d.pin.resetN = true ∧
        (bootField s.dev 0 ≠ 1 → d.pin.stage = 0x83 ∧ d.pin.ready = false ∧ d.img = s.dev.img) ∧
        (bootField s.dev 0 = 1 → d.pkg.twin = (bootField s.dev 1 % 2 == 1) ∧
          (fld (flashImage s.dev) 16 1 ≠ Config.fwMajor → d.pin.stage = 0x85 ∧ d.pin.ready = false ∧ d.img = s.dev.img) ∧
          (fld (flashImage s.dev) 16 1 = Config.fwMajor → d.pin.stage = 6 ∧ d.pin.ready = s.dev.pin.ready ∧
            tget d.img.slots 0 = some { raw := flashImage s.dev, ready := true } ∧ d.img.active = 0))) ∧
    (∀ img, clear → ∃ d, exec (.boot false img) s = .next (s.withDev d) ∧ d.pin.stage = 0x83 ∧ d.pin.ready = false ∧ d.img = s.dev.img) ∧
    (clear → ∃ d, exec (.boot true false) s = .next (s.withDev d) ∧ d.pin.stage = (if bootField s.dev 0 = 1 then 0x85 else 0x83) ∧ d.pin.ready = false ∧ d.img = s.dev.img) ∧
    (2 ≤ s.dev.pin.stage → s.dev.pin.stage ≤ 7 →
      ∃ d, exec (.bootReady 0 []) s = .next (s.withDev d) ∧ d.pin.stage = 8 ∧ d.pin.ready = true ∧ d.pkg.map = tileMapOf s.fuses s.dev (actImg s.dev) ∧ d.pkg.live = s.dev.pkg.live) ∧
    (∀ stage, s.dev.pin.vddIo = true → s.dev.pin.pwrGood = true → s.dev.pin.ready = false → s.dev.pin.stage < 0x80 → 0x81 ≤ stage → stage ≤ 0x85 →
      exec (.bootFailure stage 0 []) s = .next (s.withDev (modPin s.dev fun p => { p with resetN := true, stage := stage, ready := false })))

/-- Telemetry and the test port (R44, R555, R556): each read answers its bytes once the controller has its address; a write changes nothing. Each test port
instruction shifts out what it selects; a reset of the port gives the pins back; the flash is written while RESET_N is low. The byte order of the
multiple-byte answers is the model's choice (log entry 33), the register that a reset of the port selects and the length of the boundary register too (log entry 34). -/
def TelemetryAndTestRun : Prop :=
  ∀ (s : State) (die rail cmd pins tdi n : Nat) (data : Bytes),
    let tells := fun (b : Bytes) => (Host.Outcome.next (s.withDev (send s.dev (.smb b))) : Host.Outcome State Fault Refusal);
    let taps := fun (ir : TapIr) (dr : PinDrive) (bnd v : Nat) => (Host.Outcome.next (s.withDev
      (send (modPin s.dev fun p => { p with tapIr := ir, drive := dr, boundary := bnd }) (.tap (v % 2 ^ n) n))) : Host.Outcome State Fault Refusal);
    (s.dev.pin.smbAddr.isSome = true →
      exec .smbId s = tells (leBytes 2 (pkgId s.fuses / 65536)) ∧ exec .smbStepping s = tells (leBytes 1 s.fuses.stepLetter ++ leBytes 1 s.fuses.stepDigit) ∧
      exec .smbStage s = tells (leBytes 1 s.dev.pin.stage) ∧ exec .smbStatus s = tells (leBytes 1 (smbStatus s.dev)) ∧ exec .smbSerial s = tells (leBytes 8 s.fuses.serial) ∧
      exec .smbSafeCnt s = tells (leBytes 4 (rget s.dev 0x200018)) ∧
      (popDies s.fuses ≤ die → exec (.smbDieTemp die) s = tells (leBytes 2 0x8000)) ∧ (6 < rail → exec (.smbRailVoltage rail) s = tells (leBytes 2 0x8000)) ∧
      (∀ i ∈ [Instr.smbHottestTemp, .smbInputPower] ++ (if die < popDies s.fuses then [.smbDieTemp die] else []) ++ (if rail ≤ 6 then [.smbRailVoltage rail] else []),
        ∃ v d, exec i s = .next (s.withDev d) ∧ d.out = s.dev.out ++ [.smb (leBytes 2 v)] ∧ d.regs = s.dev.regs ∧ d.pin = s.dev.pin)) ∧
    exec (.smbWrite cmd data) s = .next s ∧
    (s.dev.pin.vddIo = true →
      exec (.bypass tdi n) s = taps .bypass .part s.dev.pin.boundary (2 * tdi) ∧
      (n = 32 → exec .idcode s = taps .idcode .part s.dev.pin.boundary (idCode s.fuses)) ∧
      exec (.samplePreload pins tdi n) s = taps .sample .part (tdi % 2 ^ n) pins ∧
      exec (.extest pins tdi n) s = taps .extest (.boundary (tdi % 2 ^ n)) (tdi % 2 ^ n) pins ∧
      (n = 0 → exec .clamp s = taps .clamp (.boundary s.dev.pin.boundary) s.dev.pin.boundary 0 ∧ exec .highz s = taps .highz .highz s.dev.pin.boundary 0)) ∧
    exec .tapReset s = .next (s.withDev (modPin s.dev fun p => { p with tapIr := .idcode, drive := .part })) ∧
    (∀ addr b, s.dev.pin.vddIo = true → s.dev.pin.resetN = false → addr < 2 ^ 26 →
      ∃ d, exec (.spiAccess addr [b]) s = .next (s.withDev d) ∧ d.pin = { s.dev.pin with tapIr := .spi, drive := .part, flash := tput s.dev.pin.flash addr b } ∧ d.out = s.dev.out)

/-- A field port's link shows; an enabled port without one is a live condition (R455, R558). -/
def FieldPortLinkRuns : Prop :=
  ∀ (port : Nat) (up : Bool) (s : State), port < 8 →
    ∃ d, exec (.fieldPortLink port up) s = .next (s.withDev d) ∧ bitAt d.fab.fieldUp port = up ∧ (∀ q, q ≠ port → bitAt d.fab.fieldUp q = bitAt s.dev.fab.fieldUp q) ∧
      d.regs = s.dev.regs ∧ d.world = s.dev.world

/-! ### The monitor -/

/-- The serial monitor runs with the firmware's commands. -/
def monFull (d : Dev) : Prop := monUp d = true ∧ monRom d = false
/-- Only lines are sent: the device is as it was but for what it sent, which ends in `OK`. -/
def saysOk (s : State) (i : Instr) : Prop := ∃ lines, exec i s = .next (s.withDev (uart s.dev (lines ++ ["OK"])))

/-- The monitor's commands of level READ answer lines that end in OK and change nothing (R559, R561, R564, R565); a read shows each word's address and value. The
wording of the lines beyond what the rules quote is the model's choice: log entry 28. -/
def Obligations.MonitorReadsRun : Prop :=
  ∀ (addr n : Nat) (s : State), monFull s.dev →
    saysOk s .help ∧ saysOk s .monStage ∧ saysOk s .stat ∧ saysOk s .monWdn ∧ (1 ≤ n → n ≤ 64 → saysOk s (.ring n)) ∧
    (∃ ver, exec .ver s = .next (s.withDev (uart { s.dev with free := s.dev.free + 1 } ["KV-" ++ hexN 3 (partCode s.fuses.variant),
      "STEP " ++ String.singleton (Char.ofNat s.fuses.stepLetter) ++ decStr s.fuses.stepDigit, "ROM " ++ decStr ver, "FW " ++ decStr Config.fwMajor,
      "IMAGE " ++ hex32 (imgContent (actImg s.dev)), "OK"]))) ∧
    (∃ d, exec .temp s = .next (s.withDev d) ∧ d.regs = s.dev.regs ∧ d.mon = s.dev.mon ∧ d.out.getLast? = some (.uart "OK") ∧
      d.out.length = s.dev.out.length + popDies s.fuses + 1) ∧
    (∀ o, monAddr s.fuses addr = true → msixAt s.dev .monitor addr = none → regKey s.fuses s.dev .monitor addr = some o → (o < 0x01000000 ∨ o % 0x01000000 < 0x100000) →
      exec (.rd addr 1) s = .next (s.withDev (uart s.dev [hex32 addr ++ " = " ++ hex32 (showReg s.fuses s.dev o).1, "OK"]))) ∧
    (1 ≤ n → n ≤ 16 → (∀ i, i < n → monAddr s.fuses (addr + 4 * i) = true) →
      exec (.rd addr n) s = .next (s.withDev (uart ((List.range n).foldl (fun d i => let v := peekReg s.fuses d (addr + 4 * i);
        uart v.2 [hex32 (addr + 4 * i) ++ " = " ++ hex32 v.1]) s.dev) ["OK"]))) ∧
    (n = 0 ∨ 16 < n → exec (.rd addr n) s = .next (s.withDev (uart s.dev ["ERR SYNTAX"]))) ∧
    exec .monLongLine s = .next (s.withDev (uart s.dev ["ERR LONG"]))

/-- The unlock and what it permits (R562, R563, R566, R567): a challenge; the sixth line of a response that verifies unlocks; one that does not counts and the third
in a row locks out; a write as the PF makes it and an acknowledgement, counted; LOCK, 15 minutes without input and the end of a lockout. That a wrong response
keeps the nonce, and the wording of the lines, are the model's choice: log entry 28. -/
def Obligations.MonitorUnlockRuns : Prop :=
  ∀ (t : Nat) (s : State), monFull s.dev → s.dev.time.now ≤ t →
    let d0 := atTime s.dev t; let fw := s.fuses;
    (bitAt (rget s.dev 0x1000) 1 = false → s.dev.mon.lockout = false →
      ∃ d n, exec (.unlock t) s = .next (s.withDev d) ∧ n < 2 ^ 64 ∧ d.mon = { s.dev.mon with nonce := some (n, t), resp := [] } ∧
        d.out = s.dev.out ++ [.uart ("CHALLENGE " ++ hex64 n ++ " SERIAL " ++ hex64 fw.serial ++ " VALID 60 s"), .uart "OK"] ∧ d.regs = s.dev.regs) ∧
    (bitAt (rget s.dev 0x1000) 1 = true → exec (.unlock t) s = .next (s.withDev (uart d0 ["ERR LEVEL"]))) ∧
    (∀ n t0 b, s.dev.mon.nonce = some (n, t0) → t ≤ t0 + 60000000000 → b.length = 16 →
      let resp := tput s.dev.mon.resp 5 b;
      (∀ i, i < 5 → exec (.resp i b t) s = .next (s.withDev (uart (modMon d0 fun x => { x with resp := tput x.resp i b }) ["OK"]))) ∧
      (resp.length = 6 → if Config.unlockOk n fw.serial (resp.flatMap (·.2)) = true then
          exec (.resp 5 b t) s = .next (s.withDev (uart (modMon (cnt d0 0x1008) fun x => { x with unlocked := true, fails := 0, nonce := none, resp := [] }) ["UNLOCKED", "OK"]))
        else ∃ d, exec (.resp 5 b t) s = .next (s.withDev d) ∧ d.mon.fails = s.dev.mon.fails + 1 ∧ d.mon.unlocked = s.dev.mon.unlocked ∧
          d.mon.lockout = (s.dev.mon.lockout || decide (3 ≤ s.dev.mon.fails + 1))) ∧
      (resp.length ≠ 6 →
        ∃ d, exec (.resp 5 b t) s = .next (s.withDev d) ∧ d.mon.fails = s.dev.mon.fails + 1 ∧ d.mon.unlocked = s.dev.mon.unlocked ∧
          d.mon.lockout = (s.dev.mon.lockout || decide (3 ≤ s.dev.mon.fails + 1)))) ∧
    exec .lock s = .next (s.withDev (uart (modMon s.dev fun x => { x with unlocked := false }) ["OK"])) ∧
    (∀ addr v, monAddr fw addr = true → s.dev.mon.unlocked = true →
      exec (.wr addr v t) s = .next (s.withDev (uart (cnt (writeReg fw d0 .monitor addr v t) 0x1010) ["OK"]))) ∧
    (∀ addr v, s.dev.mon.unlocked = false → exec (.wr addr v t) s = .next (s.withDev (uart d0 ["ERR LEVEL"]))) ∧
    (∀ src, src < 512 → s.dev.mon.unlocked = true →
      exec (.monAck (some src) false t) s = .next (s.withDev (uart (cnt (fxAck d0 src t) 0x1010) ["OK"]))) ∧
    exec .monInactivity s = .next (s.withDev (modMon s.dev fun x => { x with unlocked := false })) ∧
    (s.dev.mon.lockout = true → exec .monLockoutExpiry s = .next (s.withDev (modMon s.dev fun x => { x with lockout := false, fails := 0 })))

/-! ### Registers -/

/-- The register at key `o` is one that `who` reaches at `addr`, outside the MSI-X tables. -/
def reaches (s : State) (who : Who) (addr o : Nat) (h : RegHit) : Prop :=
  who ≠ .bar2 ∧ msixAt s.dev who addr = none ∧ regKey s.fuses s.dev who addr = some o ∧ regHit o = some h

/-- Registers (R9 to R11, R184, R570, R571): a read-clear register answers its value and is 0 after; a write of an unlocked register puts the value into its writable bits
and no others, and the links, ports or time reference follow where it is a port's control or FLD_PTP; one of a locked register changes nothing but the count of violations,
when it would change a bit; a 1 clears a sticky bit; cnt_clear clears a
block's counters. -/
def PlainRegistersRun : Prop :=
  ∀ (who : Who) (addr o v t : Nat) (h : RegHit) (s : State), reaches s who addr o h → v < 2 ^ 32 →
    let d0 := atTime s.dev t; let mask := writable who h.row;
    (h.row.pair = 0 → h.row.rc = true → tget s.dev.latch o = none → (showReg s.fuses s.dev o).2 = s.dev → o ≠ 0x200044 → (o < 0x780000 ∨ 0x781000 ≤ o) →
      exec (.rcRead who addr) s = .next (s.withDev (send (rset s.dev o 0) (.reg addr (showReg s.fuses s.dev o).1)))) ∧
    (writeEffect d0 who o v t = none → (bitAt v 0 = true → clearBlock d0 o = none) → h.row.pair = 0 → h.row.w1c = 0 →
      let put := rset d0 o ((rget s.dev o &&& (0xffffffff - mask)) ||| (fixVal d0 o (rget s.dev o) v &&& mask))
      lockedNow d0 o h.row.lock = false → mask ≠ 0 →
        (o = 0x400008 ∨ (0x401100 ≤ o ∧ o < 0x401200) → exec (.registerWrite who addr v t) s = .next (s.withDev (portsWritten d0 put))) ∧
        (o = 0x401004 → exec (.registerWrite who addr v t) s = .next (s.withDev (ptpWritten d0 put)))) ∧
    (writeEffect d0 who o v t = none → (bitAt v 0 = true → clearBlock d0 o = none) → h.row.pair = 0 → h.row.w1c = 0 → o ≠ 0x400008 → o ≠ 0x401004 → (o < 0x401100 ∨ 0x401200 ≤ o) →
      (lockedNow d0 o h.row.lock = false → mask ≠ 0 →
        exec (.registerWrite who addr v t) s = .next (s.withDev (rset d0 o ((rget s.dev o &&& (0xffffffff - mask)) ||| (fixVal d0 o (rget s.dev o) v &&& mask))))) ∧
      (lockedNow d0 o h.row.lock = true → (fixVal d0 o (rget s.dev o) v &&& mask) ≠ (rget s.dev o &&& mask) →
        exec (.registerWrite who addr v t) s = .next (s.withDev (cnt d0 0x10))) ∧
      (lockedNow d0 o h.row.lock = true → (fixVal d0 o (rget s.dev o) v &&& mask) = (rget s.dev o &&& mask) →
        exec (.registerWrite who addr v t) s = .next (s.withDev d0))) ∧
    (writeEffect s.dev who o v 0 = none → (bitAt v 0 = true → clearBlock s.dev o = none) → h.row.pair = 0 → h.row.w1c ≠ 0 → mask = 0 → lockedNow s.dev o h.row.lock = false →
      o ≠ 0x400008 → o ≠ 0x401004 → (o < 0x401100 ∨ 0x401200 ≤ o) →
      exec (.w1cWrite who addr v) s = .next (s.withDev (rset s.dev o (rget s.dev o - (rget s.dev o &&& v &&& h.row.w1c))))) ∧
    (∀ die core, die < 8 → core < 16 → o = engReg die 0 core 0 → mask = 2 → rget s.dev o < 4 → h.row.pair = 0 → h.row.w1c = 0 → h.row.lock = .free →
      ∃ d, exec (.counterClear who addr) s = .next (s.withDev d) ∧ (∀ x, 0xC ≤ x → x ≤ 0x38 → x % 4 = 0 → rget d (engReg die 0 core x) = 0) ∧ d.eng = s.dev.eng ∧ d.world = s.dev.world)
/-- MSI-X tables and BAR 2 (R335, R349, R358): a word of an MSI-X table is kept as written, its addresses being the model's choice (log entry 12); a word of the host
scratch, or of a bank that the host owns, is read and written through BAR 2, and one of another bank reads 0, is not written, and counts. -/
def TablesAndApertureRun : Prop :=
  ∀ (who : Who) (addr v t : Nat) (s : State), v < 2 ^ 32 →
    (∀ fn o, who ≠ .bar2 → msixAt s.dev who addr = some (fn, false, o) →
      exec (.rcRead who addr) s = .next (s.withDev (send s.dev (.reg addr (msixShow s.dev fn false o)))) ∧
      (o % 16 ≠ 12 → exec (.registerWrite who addr v t) s = .next (s.withDev (rset (atTime s.dev t) (msixKey fn o) v)))) ∧
    (∀ x, bar2At s.fuses s.dev (addr / 4 * 4) = some (x, none) →
      exec (.rcRead .bar2 addr) s = .next (s.withDev (send s.dev (.reg addr (mrd s.mem x 4)))) ∧ exec (.registerWrite .bar2 addr v t) s = .next (s.withMem (mwr s.mem x 4 v) s.dev)) ∧
    (∀ x die bank, bar2At s.fuses s.dev (addr / 4 * 4) = some (x, some (die, bank)) →
      (ownedBy s.dev die 0x12 bank = true →
        exec (.rcRead .bar2 addr) s = .next (s.withDev (send s.dev (.reg addr (mrd s.mem x 4)))) ∧ exec (.registerWrite .bar2 addr v t) s = .next (s.withMem (mwr s.mem x 4 v) s.dev)) ∧
      (ownedBy s.dev die 0x12 bank = false →
        let d := cnt s.dev (dieWin die + 0x10008 + 0x100 * bank)
        exec (.rcRead .bar2 addr) s = .next (s.withDev (send d (.reg addr 0))) ∧ exec (.registerWrite .bar2 addr v t) s = .next (s.withDev d)))

/-- Registers (R9 to R11, R184, R335, R349, R358, R570, R571): those of the register map, the MSI-X tables, BAR 2. -/
def Obligations.RegistersRun : Prop := PlainRegistersRun ∧ TablesAndApertureRun

/-- Register pairs (R12, R11): a read of the low word keeps the high word as it stands then, and the next read of the high word answers that; a write of the low word is
staged and changes no register; a write of the high word puts both words at once, and of a locked pair commits nothing and counts when it would change the value. -/
def Obligations.RegisterPairsRun : Prop :=
  ∀ (who : Who) (addr o v t : Nat) (hl hh : RegHit) (s : State), reaches s who addr o hl → reaches s who (addr + 4) (o + 4) hh → hl.row.pair = 1 → hh.row.pair = 2 →
    hl.row.rc = false → hh.row.rc = false → v < 2 ^ 32 → tget s.dev.latch o = none → (showReg s.fuses s.dev o).2 = s.dev → (showReg s.fuses s.dev (o + 4)).2 = s.dev →
    let d0 := atTime s.dev t; let shows := fun (d : Dev) x => (showReg s.fuses d x).1;
    exec (.regPairLowRead who addr) s =
      .next (s.withDev (send { s.dev with latch := tput s.dev.latch (o + 4) (BitVec.ofNat 32 (shows s.dev (o + 4))) } (.reg addr (shows s.dev o)))) ∧
    (∀ w, tget s.dev.latch (o + 4) = some w →
      exec (.regPairLowRead who (addr + 4)) s = .next (s.withDev (send { s.dev with latch := tdel s.dev.latch (o + 4) } (.reg (addr + 4) w.toNat)))) ∧
    (writeEffect s.dev who o v 0 = none → (bitAt v 0 = true → clearBlock s.dev o = none) → hl.row.rw ≠ 0 →
      ∃ d, exec (.regPairLowWrite who addr v) s = .next (s.withDev d) ∧ d = { s.dev with staged := tput s.dev.staged o (BitVec.ofNat 32 v) } ∧ ∀ x, shows d x = shows s.dev x) ∧
    (∀ low, writeEffect d0 who (o + 4) v t = none → (bitAt v 0 = true → clearBlock d0 (o + 4) = none) → hh.row.rw ≠ 0 → tget s.dev.staged o = some low →
      (lockedNow d0 (o + 4) hh.row.lock = false → o ≠ 0x600018 →
        exec (.regPairHighWrite who (addr + 4) v t) s = .next (s.withDev (regPut (regPut { d0 with staged := tdel s.dev.staged o } o low.toNat) (o + 4) v))) ∧
      (lockedNow d0 (o + 4) hh.row.lock = false → o = 0x600018 →
        exec (.regPairHighWrite who (addr + 4) v t) s = .next (s.withDev (fxTaiSet { d0 with staged := tdel s.dev.staged o } (low.toNat + 2 ^ 32 * v)))) ∧
      (lockedNow d0 (o + 4) hh.row.lock = true →
        ((low.toNat &&& hl.row.rw) ≠ (shows d0 o &&& hl.row.rw) ∨ (v &&& hh.row.rw) ≠ (shows d0 (o + 4) &&& hh.row.rw)) →
        exec (.regPairHighWrite who (addr + 4) v t) s = .next (s.withDev (cnt d0 0x10))) ∧
      (lockedNow d0 (o + 4) hh.row.lock = true → (low.toNat &&& hl.row.rw) = (shows d0 o &&& hl.row.rw) →
        (v &&& hh.row.rw) = (shows d0 (o + 4) &&& hh.row.rw) → exec (.regPairHighWrite who (addr + 4) v t) s = .next (s.withDev d0)))

/-- An offset of BAR 0 that the register map does not list, or that lies in the window of an unpopulated die, reads 0, and a write there changes nothing but the time of
the last arrival: no count, no message; a tile map entry beyond 127 is not listed (R568). -/
def Obligations.UnlistedRegistersReadZero : Prop :=
  (∀ (addr v t : Nat) (s : State), msixAt s.dev (.host 0) addr = none →
    (regHit addr = none ∨ (0x01000000 ≤ addr ∧ addr < 0x09000000 ∧ popDies s.fuses ≤ (addr - 0x01000000) / 0x01000000)) →
    exec (.rcRead (.host 0) addr) s = .next (s.withDev (send s.dev (.reg addr 0))) ∧
    exec (.registerWrite (.host 0) addr v t) s = .next (s.withDev (atTime s.dev t))) ∧
  ∀ n, 128 ≤ n → 0x100 + 4 * n < 0x1000 → regHit (0x100 + 4 * n) = none

/-- QUERY_STATUS (R367, R375): in a turn it waits for the turn's end, to be answered with the state that stands then; in replay it is answered at once with the record
of the object it names, where that is the polder's own or the physical function asks. -/
def QueryStatusRuns : Prop :=
  ∀ (c : Cmd) (s : State),
    (s.dev.ldg.replay = false → exec (.queryStatus c) s = .next (s.withDev { s.dev with ldg := { s.dev.ldg with asks := s.dev.ldg.asks ++ [(c, s.dev.ldg.pos)] } })) ∧
    (∀ (o : Nat) (r : Bytes), s.dev.ldg.replay = true → askOk c = true → statusRecord s.dev c = some (o, r) → (o = c.polder ∨ c.polder = 0) →
      exec (.queryStatus c) s = .next (s.withDev (reply s.dev c 0 0 (some r) 0 0 0 0)))


/-! ### Rules over the whole machine -/

/-- The square-root unit answers the floor of the square root of an unsigned 64-bit number (R259). -/
def Obligations.SquareRootIsFloor : Prop := ∀ x : Nat, x < 2 ^ 64 → isqrt x * isqrt x ≤ x ∧ x < (isqrt x + 1) * (isqrt x + 1)

/-- The commands whose meaning may store into the byte memory: unit operations that write banks, transfers, the control cores' stores and the write-backs of their
caches, and writes through BAR 2. -/
def mayStore : Instr → Bool
  | .operationStart .. => true
  | .swpStage .. => true
  | .swpCheck .. => true
  | .tnsLoad .. => true
  | .tnsLayer .. => true
  | .slvBatch .. => true
  | .slvRows .. => true
  | .selSort .. => true
  | .selTopk .. => true
  | .selUniq .. => true
  | .selMerge .. => true
  | .frnPopb .. => true
  | .dmaIn .. => true
  | .dmaOut .. => true
  | .dmaCtrl .. => true
  | .dmaLink .. => true
  | .mcopy .. => true
  | .mfill .. => true
  | .qdrain .. => true
  | .crcb32 .. => true
  | .crcb64 .. => true
  | .stwt .. => true
  | .snoop .. => true
  | .evictDirty .. => true
  | .evictPending .. => true
  | .regPairLowWrite who .. => who == .bar2
  | .regPairHighWrite who .. => who == .bar2
  | .w1cWrite who .. => who == .bar2
  | .registerWrite who .. => who == .bar2
  | _ => false

/-- Every other command leaves every byte of the memory as it was. -/
def Obligations.OthersLeaveMemory : Prop := ∀ (i : Instr) (s t : State), mayStore i = false → exec i s = .next t → t.mem = s.mem

/-- A polder's commands on maps, models, sets and streams change no object of another polder (R381, R390): whatever the command says, a map, model, set or stream that the
issuer does not own stands as it stood. -/
def Obligations.OtherPoldersObjectsStand : Prop :=
  ∀ (c : Cmd) (i : Instr) (s t : State), c.polder ≠ 0 →
    i ∈ [.mapCreate c, .mapUpdate c, .mapCommit c, .mapGrant c, .mapGrantRevoke c, .mapDestroy c, .modelDefine c, .modelFree c, .primsetLoad c, .primsetFree c,
         .streamOpen c, .streamClose c] → exec i s = .next t →
    (∀ h m, tget s.dev.world.maps h = some m → m.owner ≠ c.polder → tget t.dev.world.maps h = some m) ∧
    (∀ h m, tget s.dev.world.models h = some m → m.owner ≠ c.polder → tget t.dev.world.models h = some m) ∧
    (∀ h m, tget s.dev.world.sets h = some m → m.owner ≠ c.polder → tget t.dev.world.sets h = some m) ∧
    (∀ h x, tget s.dev.world.streams h = some x → x.polder ≠ c.polder → tget t.dev.world.streams h = some x)

/-- The restricted monitor (R561): before the firmware runs and after a boot failure VER, STAGE, TEMP and HELP answer, and every other command answers ERR BOOT and does
nothing else. -/
def Obligations.RestrictedMonitor : Prop :=
  ∀ (addr n v t : Nat) (b : Bytes) (src : Option Nat) (u : Bool) (s : State), monUp s.dev = true → monRom s.dev = true →
    saysOk s .help ∧ saysOk s .monStage ∧ (∃ d, exec .temp s = .next (s.withDev d) ∧ d.out.getLast? = some (.uart "OK") ∧ d.regs = s.dev.regs ∧ d.mon = s.dev.mon) ∧
    (∃ d, exec .ver s = .next (s.withDev d) ∧ d.out.getLast? = some (.uart "OK") ∧ d.regs = s.dev.regs ∧ d.mon = s.dev.mon) ∧
    (∀ i ∈ [Instr.stat, .rd addr n, .monWdn, .ring n, .lock], exec i s = .next (s.withDev (uart s.dev ["ERR BOOT"]))) ∧
    (∀ i ∈ [Instr.unlock t, .resp n b t, .wr addr v t, .monAck src u t], exec i s = .next (s.withDev (uart (atTime s.dev t) ["ERR BOOT"])))

/-- What the registers show after reset: the reset column of the register map (R44, R45, R88, R89, R409, R455, R483, R506, R533, R558, R567) for registers of every block. -/
def ResetRegisters : Prop :=
  let d := State.reset.dev; let fz := State.reset.fuses;
  (∀ p ∈ [(0x80, 0), (0x1000, 1), (0x100808, 0x12C), (0x100810, 0x00100020), (0x100814, 0x0201), (0x100818, 0x204010), (0x200000, 0), (0x200028, 0x1F4),
         (0x20002C, 0xFFFFFFFF), (0x200030, 0xFFFF), (0x400000, 0x88B51400), (0x400008, 0x01010101), (0x400060, 0x68000001), (0x400064, 0x0350),
         (0x401000, 0x88B60000), (0x401004, 0x1001), (0x500004, 0xA14), (0x600000, 1), (0x600004, 0), (0x600028, 0xA), (0x700000, 0),
         (0x01040000, 0x330A1404), (0x01040004, 0x07D00000), (0x01040008, 0x14000100), (0x0104000C, 0x7A120), (0x01020000, 0x2004), (0x01011000, 4), (0x01011004, 0x2DB4)],
    (showReg fz d p.1).1 = p.2) ∧ rget d 0x100800 = brmReset fz.variant

/-! ### Statements of several parts -/

/-- The two commands that only ask (R366, R367, R375): NOP and QUERY_STATUS. -/
def Obligations.StatusCommandsRun : Prop := NopAnswersOk ∧ QueryStatusRuns
/-- Calibration (R433 to R448): its commands, and what follows them in later turns. -/
def Obligations.CalibrationRuns : Prop := CalibCommandsRun ∧ CalibEventsRun
/-- The fabric (R507 to R533): its commands and timers, and the frames that arrive. -/
def Obligations.FabricRuns : Prop := FabricCommandsRun ∧ FabricFramesRun
/-- The field ports (R125 to R128, R149, R376, R542): what each frame leads to, and when a stream frame is accepted. -/
def Obligations.FieldPortsRun : Prop := FieldFramesRun ∧ StreamFrameAccepted
/-- Tokens and barriers (R318 to R327). -/
def Obligations.TokensAndBarriersRun : Prop := TokensMove ∧ BarrierReleases
/-- The long instructions (R414), over a block in the window onto bulk memory. -/
def Obligations.LongInstructionsRun : Prop := CopyAndFillRun ∧ QueueDrainRuns ∧ BlockCrcRuns
/-- Telemetry, the test port and the links of field ports (R455, R555, R556, R558). -/
def Obligations.TelemetryAndPortsRun : Prop := TelemetryAndTestRun ∧ FieldPortLinkRuns
/-- Threads (R418 to R425): waiting, sleeping, yielding, ending, and being taken by a core. -/
def Obligations.ThreadsRun : Prop := ThreadWaitsRun ∧ CoreTakesAndDelaysRun
/-- The warden (R456 to R477): what is written to it, and the safe state. -/
def Obligations.WardenControlRuns : Prop := WardenWritesRun ∧ SafeStateRuns
/-- Turns (R39, R65, R67): the cutoff and the boundary. -/
def Obligations.TurnsRun : Prop := CutoffRuns ∧ BoundaryRuns
/-- Queue pairs and their replies (R351 to R357, R364). -/
def Obligations.RepliesAndPairsRun : Prop := QueuePairsRun ∧ StatusReplyWritten
/-- Program images and configuration bundles (R340 to R342, R526 to R531). -/
def Obligations.ImagesAndBundlesRun : Prop := ImageCommandsRun ∧ BundleCommandsRun
/-- The state after reset (R554): sound memory, an empty queue, and the reset values of the register map. -/
def Obligations.ResetState : Prop := ResetIsSound ∧ ResetRegisters
end

