-- ==== Sys2Proof/Laws/Exec.lean ====
section
/-! SUPPORT. The dispatch, one lemma per command, and what the answering operations of a meaning can do. -/
namespace Sys2Proof.Machine

theorem exec_nop (c : Cmd) (s : State) : exec (.nop c) s = execNop c s := rfl
theorem exec_queryStatus (c : Cmd) (s : State) : exec (.queryStatus c) s = execQueryStatus c s := rfl
theorem exec_loadImage (c : Cmd) (s : State) : exec (.loadImage c) s = execLoadImage c s := rfl
theorem exec_activateImage (c : Cmd) (s : State) : exec (.activateImage c) s = execActivateImage c s := rfl
theorem exec_modelDefine (c : Cmd) (s : State) : exec (.modelDefine c) s = execModelDefine c s := rfl
theorem exec_primsetLoad (c : Cmd) (s : State) : exec (.primsetLoad c) s = execPrimsetLoad c s := rfl
theorem exec_modelFree (c : Cmd) (s : State) : exec (.modelFree c) s = execModelFree c s := rfl
theorem exec_primsetFree (c : Cmd) (s : State) : exec (.primsetFree c) s = execPrimsetFree c s := rfl
theorem exec_mapCreate (c : Cmd) (s : State) : exec (.mapCreate c) s = execMapCreate c s := rfl
theorem exec_mapUpdate (c : Cmd) (s : State) : exec (.mapUpdate c) s = execMapUpdate c s := rfl
theorem exec_mapCommit (c : Cmd) (s : State) : exec (.mapCommit c) s = execMapCommit c s := rfl
theorem exec_mapGrant (c : Cmd) (s : State) : exec (.mapGrant c) s = execMapGrant c s := rfl
theorem exec_mapGrantRevoke (c : Cmd) (s : State) : exec (.mapGrantRevoke c) s = execMapGrantRevoke c s := rfl
theorem exec_mapDestroy (c : Cmd) (s : State) : exec (.mapDestroy c) s = execMapDestroy c s := rfl
theorem exec_streamOpen (c : Cmd) (s : State) : exec (.streamOpen c) s = execStreamOpen c s := rfl
theorem exec_streamClose (c : Cmd) (s : State) : exec (.streamClose c) s = execStreamClose c s := rfl
theorem exec_agentBind (c : Cmd) (s : State) : exec (.agentBind c) s = execAgentBind c s := rfl
theorem exec_agentUnbind (c : Cmd) (s : State) : exec (.agentUnbind c) s = execAgentUnbind c s := rfl
theorem exec_plan (c : Cmd) (s : State) : exec (.plan c) s = execPlan c s := rfl
theorem exec_stopVerify (c : Cmd) (s : State) : exec (.stopVerify c) s = execStopVerify c s := rfl
theorem exec_planCancel (c : Cmd) (s : State) : exec (.planCancel c) s = execPlanCancel c s := rfl
theorem exec_solve (c : Cmd) (s : State) : exec (.solve c) s = execSolve c s := rfl
theorem exec_select (c : Cmd) (s : State) : exec (.select c) s = execSelect c s := rfl
theorem exec_snapshot (c : Cmd) (s : State) : exec (.snapshot c) s = execSnapshot c s := rfl
theorem exec_replayPrepare (c : Cmd) (s : State) : exec (.replayPrepare c) s = execReplayPrepare c s := rfl
theorem exec_replayRun (c : Cmd) (s : State) : exec (.replayRun c) s = execReplayRun c s := rfl
theorem exec_replayEnd (c : Cmd) (s : State) : exec (.replayEnd c) s = execReplayEnd c s := rfl
theorem exec_calibKin (c : Cmd) (s : State) : exec (.calibKin c) s = execCalibKin c s := rfl
theorem exec_calibKinAbort (c : Cmd) (s : State) : exec (.calibKinAbort c) s = execCalibKinAbort c s := rfl
theorem exec_calibTime (c : Cmd) (s : State) : exec (.calibTime c) s = execCalibTime c s := rfl
theorem exec_calibTimeClear (c : Cmd) (s : State) : exec (.calibTimeClear c) s = execCalibTimeClear c s := rfl
theorem exec_calibLaneRun (c : Cmd) (s : State) : exec (.calibLaneRun c) s = execCalibLaneRun c s := rfl
theorem exec_calibLaneStop (c : Cmd) (s : State) : exec (.calibLaneStop c) s = execCalibLaneStop c s := rfl
theorem exec_calibLaneReport (c : Cmd) (s : State) : exec (.calibLaneReport c) s = execCalibLaneReport c s := rfl
theorem exec_polderCreate (c : Cmd) (s : State) : exec (.polderCreate c) s = execPolderCreate c s := rfl
theorem exec_polderModify (c : Cmd) (s : State) : exec (.polderModify c) s = execPolderModify c s := rfl
theorem exec_polderReset (c : Cmd) (s : State) : exec (.polderReset c) s = execPolderReset c s := rfl
theorem exec_polderDestroy (c : Cmd) (s : State) : exec (.polderDestroy c) s = execPolderDestroy c s := rfl
theorem exec_twinAttach (c : Cmd) (s : State) : exec (.twinAttach c) s = execTwinAttach c s := rfl
theorem exec_twinDetach (c : Cmd) (s : State) : exec (.twinDetach c) s = execTwinDetach c s := rfl
theorem exec_twinConfig (c : Cmd) (s : State) : exec (.twinConfig c) s = execTwinConfig c s := rfl
theorem exec_fabricJoin (c : Cmd) (s : State) : exec (.fabricJoin c) s = execFabricJoin c s := rfl
theorem exec_fabricAssign (c : Cmd) (s : State) : exec (.fabricAssign c) s = execFabricAssign c s := rfl
theorem exec_fabricLeave (c : Cmd) (s : State) : exec (.fabricLeave c) s = execFabricLeave c s := rfl
theorem exec_cfgStage (c : Cmd) (s : State) : exec (.cfgStage c) s = execCfgStage c s := rfl
theorem exec_cfgCommit (c : Cmd) (s : State) : exec (.cfgCommit c) s = execCfgCommit c s := rfl
theorem exec_dieReadmit (c : Cmd) (s : State) : exec (.dieReadmit c) s = execDieReadmit c s := rfl
theorem exec_hifSqTail (p : Nat) (q : Nat) (v : Nat) (s : State) : exec (.hifSqTail p q v) s = execHifSqTail p q v s := rfl
theorem exec_hifCqHead (p : Nat) (q : Nat) (v : Nat) (s : State) : exec (.hifCqHead p q v) s = execHifCqHead p q v s := rfl
theorem exec_queuePairEnable (p : Nat) (q : Nat) (v : Nat) (s : State) : exec (.queuePairEnable p q v) s = execQueuePairEnable p q v s := rfl
theorem exec_queuePairDisable (p : Nat) (q : Nat) (v : Nat) (s : State) : exec (.queuePairDisable p q v) s = execQueuePairDisable p q v s := rfl
theorem exec_queuePairDrained (p : Nat) (q : Nat) (s : State) : exec (.queuePairDrained p q) s = execQueuePairDrained p q s := rfl
theorem exec_commandFetch (p : Nat) (q : Nat) (t : Nat) (packet : Bytes) (block : Bytes) (s : State) : exec (.commandFetch p q t packet block) s = execCommandFetch p q t packet block s := rfl
theorem exec_statusReplyWrite (p : Nat) (q : Nat) (s : State) : exec (.statusReplyWrite p q) s = execStatusReplyWrite p q s := rfl
theorem exec_cqCoalTimeout (p : Nat) (q : Nat) (s : State) : exec (.cqCoalTimeout p q) s = execCqCoalTimeout p q s := rfl
theorem exec_msixUnmask (fn : Nat) (vec : Nat) (s : State) : exec (.msixUnmask fn vec) s = execMsixUnmask fn vec s := rfl
theorem exec_hifDmaError (p : Nat) (q : Nat) (write : Bool) (s : State) : exec (.hifDmaError p q write) s = execHifDmaError p q write s := rfl
theorem exec_flrVf (p : Nat) (t : Nat) (s : State) : exec (.flrVf p t) s = execFlrVf p t s := rfl
theorem exec_flrPf (s : State) : exec .flrPf s = execFlrPf s := rfl
theorem exec_hostLinkReset (s : State) : exec .hostLinkReset s = execHostLinkReset s := rfl
theorem exec_streamFrameIngress (port : Nat) (src : Nat) (t : Nat) (frame : Bytes) (s : State) : exec (.streamFrameIngress port src t frame) s = execStreamFrameIngress port src t frame s := rfl
theorem exec_agentStateIngress (port : Nat) (src : Nat) (t : Nat) (frame : Bytes) (s : State) : exec (.agentStateIngress port src t frame) s = execAgentStateIngress port src t frame s := rfl
theorem exec_requestIngress (port : Nat) (src : Nat) (t : Nat) (frame : Bytes) (s : State) : exec (.requestIngress port src t frame) s = execRequestIngress port src t frame s := rfl
theorem exec_ptpFrame (port : Nat) (t : Nat) (announce : Bool) (offset : Option Int) (s : State) : exec (.ptpFrame port t announce offset) s = execPtpFrame port t announce offset s := rfl
theorem exec_unmatchedFrame (port : Nat) (fcs : Bool) (s : State) : exec (.unmatchedFrame port fcs) s = execUnmatchedFrame port fcs s := rfl
theorem exec_ptpAnnounceTimeout (s : State) : exec .ptpAnnounceTimeout s = execPtpAnnounceTimeout s := rfl
theorem exec_ppsInEdge (t : Nat) (s : State) : exec (.ppsInEdge t) s = execPpsInEdge t s := rfl
theorem exec_holdoverExpiry (s : State) : exec .holdoverExpiry s = execHoldoverExpiry s := rfl
theorem exec_clockMonitorWindow (cclk : Nat) (ctclkOk : Bool) (tclkOk : Bool) (s : State) : exec (.clockMonitorWindow cclk ctclkOk tclkOk) s = execClockMonitorWindow cclk ctclkOk tclkOk s := rfl
theorem exec_trnRun (t : Nat) (s : State) : exec (.trnRun t) s = execTrnRun t s := rfl
theorem exec_trnTaiSet (v : Nat) (s : State) : exec (.trnTaiSet v) s = execTrnTaiSet v s := rfl
theorem exec_ledgerCutoff (s : State) : exec .ledgerCutoff s = execLedgerCutoff s := rfl
theorem exec_streamTimeout (n : Nat) (s : State) : exec (.streamTimeout n) s = execStreamTimeout n s := rfl
theorem exec_tileMapChange (s : State) : exec .tileMapChange s = execTileMapChange s := rfl
theorem exec_turnBoundary (s : State) : exec .turnBoundary s = execTurnBoundary s := rfl
theorem exec_pinHoldExpiry (map : Nat) (s : State) : exec (.pinHoldExpiry map) s = execPinHoldExpiry map s := rfl
theorem exec_imageActivate (s : State) : exec .imageActivate s = execImageActivate s := rfl
theorem exec_configActivate (s : State) : exec .configActivate s = execConfigActivate s := rfl
theorem exec_releasePhase (s : State) : exec .releasePhase s = execReleasePhase s := rfl
theorem exec_quietTailCheck (die : Nat) (s : State) : exec (.quietTailCheck die) s = execQuietTailCheck die s := rfl
theorem exec_bermOverrun (die : Nat) (unit : Nat) (cyc : Nat) (s : State) : exec (.bermOverrun die unit cyc) s = execBermOverrun die unit cyc s := rfl
theorem exec_resultEgress (s : State) : exec .resultEgress s = execResultEgress s := rfl
theorem exec_deadlineExpiry (q : Nat) (s : State) : exec (.deadlineExpiry q) s = execDeadlineExpiry q s := rfl
theorem exec_budgetEnd (q : Nat) (s : State) : exec (.budgetEnd q) s = execBudgetEnd q s := rfl
theorem exec_predictorPassStart (map : Nat) (s : State) : exec (.predictorPassStart map) s = execPredictorPassStart map s := rfl
theorem exec_predictorPassEnd (map : Nat) (s : State) : exec (.predictorPassEnd map) s = execPredictorPassEnd map s := rfl
theorem exec_bvhBuildEnd (map : Nat) (s : State) : exec (.bvhBuildEnd map) s = execBvhBuildEnd map s := rfl
theorem exec_setBuildEnd (set : Nat) (s : State) : exec (.setBuildEnd set) s = execSetBuildEnd set s := rfl
theorem exec_goalSolveEnd (q : Nat) (s : State) : exec (.goalSolveEnd q) s = execGoalSolveEnd q s := rfl
theorem exec_searchStep (q : Nat) (s : State) : exec (.searchStep q) s = execSearchStep q s := rfl
theorem exec_closingStop (q : Nat) (s : State) : exec (.closingStop q) s = execClosingStop q s := rfl
theorem exec_stageFinish (q : Nat) (s : State) : exec (.stageFinish q) s = execStageFinish q s := rfl
theorem exec_footprintCover (q : Nat) (s : State) : exec (.footprintCover q) s = execFootprintCover q s := rfl
theorem exec_calibEstimateEnd (key : Nat) (s : State) : exec (.calibEstimateEnd key) s = execCalibEstimateEnd key s := rfl
theorem exec_calibOutcome (s : State) : exec .calibOutcome s = execCalibOutcome s := rfl
theorem exec_calibSpanExpiry (key : Nat) (s : State) : exec (.calibSpanExpiry key) s = execCalibSpanExpiry key s := rfl
theorem exec_laneStep (link : Nat) (side : Nat) (width : Nat) (height : Nat) (s : State) : exec (.laneStep link side width height) s = execLaneStep link side width height s := rfl
theorem exec_replayTurn (s : State) : exec .replayTurn s = execReplayTurn s := rfl
theorem exec_planSeal (die : Nat) (v : Nat) (s : State) : exec (.planSeal die v) s = execPlanSeal die v s := rfl
theorem exec_bundleIssue (die : Nat) (cyc : Nat) (s : State) : exec (.bundleIssue die cyc) s = execBundleIssue die cyc s := rfl
theorem exec_operationStart (die : Nat) (unit : Nat) (cyc : Nat) (ue : Option Nat) (bankCe : Option Nat) (bankUe : Option Nat) (desc : UnitDesc) (s : State) : exec (.operationStart die unit cyc ue bankCe bankUe desc) s = execOperationStart die unit cyc ue bankCe bankUe desc s := rfl
theorem exec_tokenArrival (die : Nat) (unit : Nat) (cyc : Nat) (s : State) : exec (.tokenArrival die unit cyc) s = execTokenArrival die unit cyc s := rfl
theorem exec_swpStage (die : Nat) (core : Nat) (operand : Nat) (s : State) : exec (.swpStage die core operand) s = execSwpStage die core operand s := rfl
theorem exec_swpCheck (die : Nat) (core : Nat) (operand : Nat) (ecc : Option Nat) (s : State) : exec (.swpCheck die core operand ecc) s = execSwpCheck die core operand ecc s := rfl
theorem exec_swpInval (die : Nat) (core : Nat) (operand : Nat) (s : State) : exec (.swpInval die core operand) s = execSwpInval die core operand s := rfl
theorem exec_tnsLoad (die : Nat) (core : Nat) (operand : Nat) (s : State) : exec (.tnsLoad die core operand) s = execTnsLoad die core operand s := rfl
theorem exec_tnsTable (die : Nat) (core : Nat) (operand : Nat) (s : State) : exec (.tnsTable die core operand) s = execTnsTable die core operand s := rfl
theorem exec_tnsLayer (die : Nat) (core : Nat) (operand : Nat) (s : State) : exec (.tnsLayer die core operand) s = execTnsLayer die core operand s := rfl
theorem exec_slvBatch (die : Nat) (core : Nat) (operand : Nat) (s : State) : exec (.slvBatch die core operand) s = execSlvBatch die core operand s := rfl
theorem exec_slvRows (die : Nat) (core : Nat) (operand : Nat) (desc : UnitDesc) (s : State) : exec (.slvRows die core operand desc) s = execSlvRows die core operand desc s := rfl
theorem exec_selSort (die : Nat) (core : Nat) (operand : Nat) (s : State) : exec (.selSort die core operand) s = execSelSort die core operand s := rfl
theorem exec_selTopk (die : Nat) (core : Nat) (operand : Nat) (s : State) : exec (.selTopk die core operand) s = execSelTopk die core operand s := rfl
theorem exec_selUniq (die : Nat) (core : Nat) (operand : Nat) (s : State) : exec (.selUniq die core operand) s = execSelUniq die core operand s := rfl
theorem exec_selMerge (die : Nat) (core : Nat) (operand : Nat) (s : State) : exec (.selMerge die core operand) s = execSelMerge die core operand s := rfl
theorem exec_frnOpen (die : Nat) (core : Nat) (operand : Nat) (s : State) : exec (.frnOpen die core operand) s = execFrnOpen die core operand s := rfl
theorem exec_frnPushb (die : Nat) (core : Nat) (operand : Nat) (desc : UnitDesc) (s : State) : exec (.frnPushb die core operand desc) s = execFrnPushb die core operand desc s := rfl
theorem exec_frnPopb (die : Nat) (core : Nat) (operand : Nat) (desc : UnitDesc) (s : State) : exec (.frnPopb die core operand desc) s = execFrnPopb die core operand desc s := rfl
theorem exec_frnClose (die : Nat) (core : Nat) (operand : Nat) (s : State) : exec (.frnClose die core operand) s = execFrnClose die core operand s := rfl
theorem exec_frontierRefill (die : Nat) (core : Nat) (queue : Nat) (s : State) : exec (.frontierRefill die core queue) s = execFrontierRefill die core queue s := rfl
theorem exec_dmaIn (die : Nat) (operand : Nat) (s : State) : exec (.dmaIn die operand) s = execDmaIn die operand s := rfl
theorem exec_dmaOut (die : Nat) (operand : Nat) (s : State) : exec (.dmaOut die operand) s = execDmaOut die operand s := rfl
theorem exec_dmaCtrl (die : Nat) (operand : Nat) (s : State) : exec (.dmaCtrl die operand) s = execDmaCtrl die operand s := rfl
theorem exec_dmaLink (die : Nat) (operand : Nat) (s : State) : exec (.dmaLink die operand) s = execDmaLink die operand s := rfl
theorem exec_barArm (die : Nat) (operand : Nat) (cyc : Nat) (s : State) : exec (.barArm die operand cyc) s = execBarArm die operand cyc s := rfl
theorem exec_route (die : Nat) (unit : Nat) (operand : Nat) (s : State) : exec (.route die unit operand) s = execRoute die unit operand s := rfl
theorem exec_signal (die : Nat) (unit : Nat) (operand : Nat) (cyc : Nat) (s : State) : exec (.signal die unit operand cyc) s = execSignal die unit operand cyc s := rfl
theorem exec_grant (die : Nat) (unit : Nat) (operand : Nat) (cyc : Nat) (s : State) : exec (.grant die unit operand cyc) s = execGrant die unit operand cyc s := rfl
theorem exec_barWait (die : Nat) (unit : Nat) (operand : Nat) (cyc : Nat) (s : State) : exec (.barWait die unit operand cyc) s = execBarWait die unit operand cyc s := rfl
theorem exec_unitNop (die : Nat) (unit : Nat) (operand : Nat) (s : State) : exec (.unitNop die unit operand) s = execUnitNop die unit operand s := rfl
theorem exec_barrierRelease (die : Nat) (ctx : Nat) (cyc : Nat) (s : State) : exec (.barrierRelease die ctx cyc) s = execBarrierRelease die ctx cyc s := rfl
theorem exec_bankOwnerStage (die : Nat) (bank : Nat) (v : Nat) (s : State) : exec (.bankOwnerStage die bank v) s = execBankOwnerStage die bank v s := rfl
theorem exec_bankTestRegion (die : Nat) (bank : Nat) (fail : Bool) (s : State) : exec (.bankTestRegion die bank fail) s = execBankTestRegion die bank fail s := rfl
theorem exec_mcopy (die : Nat) (core : Nat) (gd : Nat) (gs : Nat) (gn : Nat) (stop : Option Nat) (ce : Nat) (ue : Option Nat) (s : State) : exec (.mcopy die core gd gs gn stop ce ue) s = execMcopy die core gd gs gn stop ce ue s := rfl
theorem exec_mfill (die : Nat) (core : Nat) (gd : Nat) (gv : Nat) (gn : Nat) (stop : Option Nat) (ce : Nat) (ue : Option Nat) (s : State) : exec (.mfill die core gd gv gn stop ce ue) s = execMfill die core gd gv gn stop ce ue s := rfl
theorem exec_qdrain (die : Nat) (core : Nat) (gd : Nat) (gq : Nat) (gn : Nat) (stop : Option Nat) (ce : Nat) (ue : Option Nat) (s : State) : exec (.qdrain die core gd gq gn stop ce ue) s = execQdrain die core gd gq gn stop ce ue s := rfl
theorem exec_crcb32 (die : Nat) (core : Nat) (gc : Nat) (gs : Nat) (gn : Nat) (stop : Option Nat) (ce : Nat) (ue : Option Nat) (s : State) : exec (.crcb32 die core gc gs gn stop ce ue) s = execCrcb32 die core gc gs gn stop ce ue s := rfl
theorem exec_crcb64 (die : Nat) (core : Nat) (gc : Nat) (gs : Nat) (gn : Nat) (stop : Option Nat) (ce : Nat) (ue : Option Nat) (s : State) : exec (.crcb64 die core gc gs gn stop ce ue) s = execCrcb64 die core gc gs gn stop ce ue s := rfl
theorem exec_interruptTake (die : Nat) (core : Nat) (nmi : Bool) (latency : Nat) (s : State) : exec (.interruptTake die core nmi latency) s = execInterruptTake die core nmi latency s := rfl
theorem exec_tspawn (die : Nat) (core : Nat) (rd : Nat) (level : Nat) (entry : Nat) (arg : Nat) (t : Nat) (s : State) : exec (.tspawn die core rd level entry arg t) s = execTspawn die core rd level entry arg t s := rfl
theorem exec_twait (die : Nat) (core : Nat) (rd : Nat) (mask : Nat) (modeAnd : Bool) (expiry : Option Nat) (s : State) : exec (.twait die core rd mask modeAnd expiry) s = execTwait die core rd mask modeAnd expiry s := rfl
theorem exec_tdelay (die : Nat) (core : Nat) (expiry : Nat) (s : State) : exec (.tdelay die core expiry) s = execTdelay die core expiry s := rfl
theorem exec_tyield (die : Nat) (core : Nat) (t : Nat) (s : State) : exec (.tyield die core t) s = execTyield die core t s := rfl
theorem exec_texit (die : Nat) (core : Nat) (s : State) : exec (.texit die core) s = execTexit die core s := rfl
theorem exec_tsignal (die : Nat) (core : Nat) (slot : Nat) (flag : Nat) (t : Nat) (s : State) : exec (.tsignal die core slot flag t) s = execTsignal die core slot flag t s := rfl
theorem exec_hardwareEventFlag (die : Nat) (slot : Nat) (flag : Nat) (t : Nat) (queued : Option (Nat × Bytes)) (s : State) : exec (.hardwareEventFlag die slot flag t queued) s = execHardwareEventFlag die slot flag t queued s := rfl
theorem exec_coreTake (die : Nat) (core : Nat) (t : Nat) (s : State) : exec (.coreTake die core t) s = execCoreTake die core t s := rfl
theorem exec_delayExpiry (die : Nat) (tick : Nat) (s : State) : exec (.delayExpiry die tick) s = execDelayExpiry die tick s := rfl
theorem exec_flowEnter (die : Nat) (core : Nat) (rd : Nat) (flow : Nat) (s : State) : exec (.flowEnter die core rd flow) s = execFlowEnter die core rd flow s := rfl
theorem exec_flowDone (die : Nat) (core : Nat) (flow : Nat) (ticket : Nat) (item : Nat) (s : State) : exec (.flowDone die core flow ticket item) s = execFlowDone die core flow ticket item s := rfl
theorem exec_flowSkip (die : Nat) (core : Nat) (flow : Nat) (ticket : Nat) (s : State) : exec (.flowSkip die core flow ticket) s = execFlowSkip die core flow ticket s := rfl
theorem exec_stwt (die : Nat) (core : Nat) (addr : Nat) (v : Nat) (s : State) : exec (.stwt die core addr v) s = execStwt die core addr v s := rfl
theorem exec_coherenceRequest (die : Nat) (core : Nat) (addr : Nat) (own : Bool) (victim : Option Nat) (s : State) : exec (.coherenceRequest die core addr own victim) s = execCoherenceRequest die core addr own victim s := rfl
theorem exec_snoop (addr : Nat) (s : State) : exec (.snoop addr) s = execSnoop addr s := rfl
theorem exec_evictClean (die : Nat) (core : Nat) (addr : Nat) (s : State) : exec (.evictClean die core addr) s = execEvictClean die core addr s := rfl
theorem exec_evictDirty (die : Nat) (core : Nat) (addr : Nat) (s : State) : exec (.evictDirty die core addr) s = execEvictDirty die core addr s := rfl
theorem exec_evictPending (die : Nat) (core : Nat) (addr : Nat) (s : State) : exec (.evictPending die core addr) s = execEvictPending die core addr s := rfl
theorem exec_evictAck (die : Nat) (core : Nat) (addr : Nat) (s : State) : exec (.evictAck die core addr) s = execEvictAck die core addr s := rfl
theorem exec_wardenMessage (m : Option WMsg) (t : Nat) (s : State) : exec (.wardenMessage m t) s = execWardenMessage m t s := rfl
theorem exec_quietExpiry (source : Nat) (die : Nat) (core : Nat) (t : Nat) (s : State) : exec (.quietExpiry source die core t) s = execQuietExpiry source die core t s := rfl
theorem exec_wdnHeartbeatMiss (die : Nat) (from_ : Nat) (t : Nat) (s : State) : exec (.wdnHeartbeatMiss die from_ t) s = execWdnHeartbeatMiss die from_ t s := rfl
theorem exec_wdnCfgCheck (t : Nat) (s : State) : exec (.wdnCfgCheck t) s = execWdnCfgCheck t s := rfl
theorem exec_wdnLock (s : State) : exec .wdnLock s = execWdnLock s := rfl
theorem exec_wdnAck (v : Nat) (t : Nat) (s : State) : exec (.wdnAck v t) s = execWdnAck v t s := rfl
theorem exec_wdnAckAll (t : Nat) (s : State) : exec (.wdnAckAll t) s = execWdnAckAll t s := rfl
theorem exec_wdnUnlatch (source : Nat) (t : Nat) (s : State) : exec (.wdnUnlatch source t) s = execWdnUnlatch source t s := rfl
theorem exec_wdnInject (v : Nat) (t : Nat) (s : State) : exec (.wdnInject v t) s = execWdnInject v t s := rfl
theorem exec_wdnSafeClr (s : State) : exec .wdnSafeClr s = execWdnSafeClr s := rfl
theorem exec_safeStateExit (s : State) : exec .safeStateExit s = execSafeStateExit s := rfl
theorem exec_blockReset (die : Nat) (origin : Nat) (s : State) : exec (.blockReset die origin) s = execBlockReset die origin s := rfl
theorem exec_safeHeartbeat (turn : Nat) (s : State) : exec (.safeHeartbeat turn) s = execSafeHeartbeat turn s := rfl
theorem exec_recMsg0Read (s : State) : exec .recMsg0Read s = execRecMsg0Read s := rfl
theorem exec_twinLinkFrame (gen : Nat) (seq : Nat) (crcOk : Bool) (msg : TwinMsg) (t : Nat) (s : State) : exec (.twinLinkFrame gen seq crcOk msg t) s = execTwinLinkFrame gen seq crcOk msg t s := rfl
theorem exec_twinIdleTimer (s : State) : exec .twinIdleTimer s = execTwinIdleTimer s := rfl
theorem exec_twinLinkLost (t : Nat) (s : State) : exec (.twinLinkLost t) s = execTwinLinkLost t s := rfl
theorem exec_twinDownIn (low : Bool) (t : Nat) (s : State) : exec (.twinDownIn low t) s = execTwinDownIn low t s := rfl
theorem exec_handover (s : State) : exec .handover s = execHandover s := rfl
theorem exec_twinLeave (s : State) : exec .twinLeave s = execTwinLeave s := rfl
theorem exec_twinLedgerEntry (turn : Nat) (e : Entry) (s : State) : exec (.twinLedgerEntry turn e) s = execTwinLedgerEntry turn e s := rfl
theorem exec_twinSeal (turn : Nat) (digest : Nat) (s : State) : exec (.twinSeal turn digest) s = execTwinSeal turn digest s := rfl
theorem exec_twinDigestList (turn : Nat) (items : List (Nat × Nat × Nat)) (s : State) : exec (.twinDigestList turn items) s = execTwinDigestList turn items s := rfl
theorem exec_digestLate (turn : Nat) (s : State) : exec (.digestLate turn) s = execDigestLate turn s := rfl
theorem exec_heldFrameExpiry (turn : Nat) (s : State) : exec (.heldFrameExpiry turn) s = execHeldFrameExpiry turn s := rfl
theorem exec_arbitrationTimeout (s : State) : exec .arbitrationTimeout s = execArbitrationTimeout s := rfl
theorem exec_twnWitAns (v : Nat) (t : Nat) (s : State) : exec (.twnWitAns v t) s = execTwnWitAns v t s := rfl
theorem exec_tlRecordEntry (payload : Bytes) (s : State) : exec (.tlRecordEntry payload) s = execTlRecordEntry payload s := rfl
theorem exec_attachJoinTurn (s : State) : exec .attachJoinTurn s = execAttachJoinTurn s := rfl
theorem exec_attachStateDigest (theirs : Nat) (t : Nat) (s : State) : exec (.attachStateDigest theirs t) s = execAttachStateDigest theirs t s := rfl
theorem exec_dieMessagesResume (die : Nat) (s : State) : exec (.dieMessagesResume die) s = execDieMessagesResume die s := rfl
theorem exec_dieBistEnd (die : Nat) (ok : Bool) (coresFail : Nat) (s : State) : exec (.dieBistEnd die ok coresFail) s = execDieBistEnd die ok coresFail s := rfl
theorem exec_dieCopyCurrent (die : Nat) (s : State) : exec (.dieCopyCurrent die) s = execDieCopyCurrent die s := rfl
theorem exec_hello (f : FabFrame) (t : Nat) (s : State) : exec (.hello f t) s = execHello f t s := rfl
theorem exec_helloTimer (s : State) : exec .helloTimer s = execHelloTimer s := rfl
theorem exec_assign (f : FabFrame) (t : Nat) (s : State) : exec (.assign f t) s = execAssign f t s := rfl
theorem exec_assignTimer (s : State) : exec .assignTimer s = execAssignTimer s := rfl
theorem exec_data (f : FabFrame) (t : Nat) (s : State) : exec (.data f t) s = execData f t s := rfl
theorem exec_ack (f : FabFrame) (t : Nat) (s : State) : exec (.ack f t) s = execAck f t s := rfl
theorem exec_dataResendTimeout (peer : Nat) (chan : Nat) (s : State) : exec (.dataResendTimeout peer chan) s = execDataResendTimeout peer chan s := rfl
theorem exec_heartbeat (f : FabFrame) (t : Nat) (s : State) : exec (.heartbeat f t) s = execHeartbeat f t s := rfl
theorem exec_fabricHeartbeatSend (s : State) : exec .fabricHeartbeatSend s = execFabricHeartbeatSend s := rfl
theorem exec_leave (f : FabFrame) (s : State) : exec (.leave f) s = execLeave f s := rfl
theorem exec_peerLost (peer : Nat) (s : State) : exec (.peerLost peer) s = execPeerLost peer s := rfl
theorem exec_powerOn (s : State) : exec .powerOn s = execPowerOn s := rfl
theorem exec_resetNLow (us : Nat) (s : State) : exec (.resetNLow us) s = execResetNLow us s := rfl
theorem exec_packageReset (s : State) : exec .packageReset s = execPackageReset s := rfl
theorem exec_boot (cfgOk : Bool) (imgOk : Bool) (s : State) : exec (.boot cfgOk imgOk) s = execBoot cfgOk imgOk s := rfl
theorem exec_bootReady (failDies : Nat) (failCores : List (Nat × Nat)) (s : State) : exec (.bootReady failDies failCores) s = execBootReady failDies failCores s := rfl
theorem exec_bootFailure (stage : Nat) (dies : Nat) (cores : List (Nat × Nat)) (s : State) : exec (.bootFailure stage dies cores) s = execBootFailure stage dies cores s := rfl
theorem exec_thermalTrip (die : Nat) (temp : Int) (s : State) : exec (.thermalTrip die temp) s = execThermalTrip die temp s := rfl
theorem exec_tapReset (s : State) : exec .tapReset s = execTapReset s := rfl
theorem exec_bypass (tdi : Nat) (bits : Nat) (s : State) : exec (.bypass tdi bits) s = execBypass tdi bits s := rfl
theorem exec_idcode (s : State) : exec .idcode s = execIdcode s := rfl
theorem exec_samplePreload (pins : Nat) (tdi : Nat) (bits : Nat) (s : State) : exec (.samplePreload pins tdi bits) s = execSamplePreload pins tdi bits s := rfl
theorem exec_extest (pins : Nat) (tdi : Nat) (bits : Nat) (s : State) : exec (.extest pins tdi bits) s = execExtest pins tdi bits s := rfl
theorem exec_clamp (s : State) : exec .clamp s = execClamp s := rfl
theorem exec_highz (s : State) : exec .highz s = execHighz s := rfl
theorem exec_spiAccess (addr : Nat) (data : Bytes) (s : State) : exec (.spiAccess addr data) s = execSpiAccess addr data s := rfl
theorem exec_smbId (s : State) : exec .smbId s = execSmbId s := rfl
theorem exec_smbStepping (s : State) : exec .smbStepping s = execSmbStepping s := rfl
theorem exec_smbStage (s : State) : exec .smbStage s = execSmbStage s := rfl
theorem exec_smbStatus (s : State) : exec .smbStatus s = execSmbStatus s := rfl
theorem exec_smbDieTemp (die : Nat) (s : State) : exec (.smbDieTemp die) s = execSmbDieTemp die s := rfl
theorem exec_smbHottestTemp (s : State) : exec .smbHottestTemp s = execSmbHottestTemp s := rfl
theorem exec_smbRailVoltage (rail : Nat) (s : State) : exec (.smbRailVoltage rail) s = execSmbRailVoltage rail s := rfl
theorem exec_smbInputPower (s : State) : exec .smbInputPower s = execSmbInputPower s := rfl
theorem exec_smbSerial (s : State) : exec .smbSerial s = execSmbSerial s := rfl
theorem exec_smbSafeCnt (s : State) : exec .smbSafeCnt s = execSmbSafeCnt s := rfl
theorem exec_smbWrite (cmd : Nat) (data : Bytes) (s : State) : exec (.smbWrite cmd data) s = execSmbWrite cmd data s := rfl
theorem exec_help (s : State) : exec .help s = execHelp s := rfl
theorem exec_ver (s : State) : exec .ver s = execVer s := rfl
theorem exec_monStage (s : State) : exec .monStage s = execMonStage s := rfl
theorem exec_stat (s : State) : exec .stat s = execStat s := rfl
theorem exec_temp (s : State) : exec .temp s = execTemp s := rfl
theorem exec_rd (addr : Nat) (n : Nat) (s : State) : exec (.rd addr n) s = execRd addr n s := rfl
theorem exec_monWdn (s : State) : exec .monWdn s = execMonWdn s := rfl
theorem exec_ring (n : Nat) (s : State) : exec (.ring n) s = execRing n s := rfl
theorem exec_unlock (t : Nat) (s : State) : exec (.unlock t) s = execUnlock t s := rfl
theorem exec_resp (idx : Nat) (data : Bytes) (t : Nat) (s : State) : exec (.resp idx data t) s = execResp idx data t s := rfl
theorem exec_lock (s : State) : exec .lock s = execLock s := rfl
theorem exec_wr (addr : Nat) (v : Nat) (t : Nat) (s : State) : exec (.wr addr v t) s = execWr addr v t s := rfl
theorem exec_monAck (source : Option Nat) (unlatch : Bool) (t : Nat) (s : State) : exec (.monAck source unlatch t) s = execMonAck source unlatch t s := rfl
theorem exec_monLongLine (s : State) : exec .monLongLine s = execMonLongLine s := rfl
theorem exec_monInactivity (s : State) : exec .monInactivity s = execMonInactivity s := rfl
theorem exec_monLockoutExpiry (s : State) : exec .monLockoutExpiry s = execMonLockoutExpiry s := rfl
theorem exec_regPairLowRead (who : Who) (addr : Nat) (s : State) : exec (.regPairLowRead who addr) s = execRegPairLowRead who addr s := rfl
theorem exec_regPairLowWrite (who : Who) (addr : Nat) (v : Nat) (s : State) : exec (.regPairLowWrite who addr v) s = execRegPairLowWrite who addr v s := rfl
theorem exec_regPairHighWrite (who : Who) (addr : Nat) (v : Nat) (t : Nat) (s : State) : exec (.regPairHighWrite who addr v t) s = execRegPairHighWrite who addr v t s := rfl
theorem exec_rcRead (who : Who) (addr : Nat) (s : State) : exec (.rcRead who addr) s = execRcRead who addr s := rfl
theorem exec_w1cWrite (who : Who) (addr : Nat) (v : Nat) (s : State) : exec (.w1cWrite who addr v) s = execW1cWrite who addr v s := rfl
theorem exec_counterClear (who : Who) (addr : Nat) (s : State) : exec (.counterClear who addr) s = execCounterClear who addr s := rfl
theorem exec_registerWrite (who : Who) (addr : Nat) (v : Nat) (t : Nat) (s : State) : exec (.registerWrite who addr v t) s = execRegisterWrite who addr v t s := rfl
theorem exec_loadImageEnd (s : State) : exec .loadImageEnd s = execLoadImageEnd s := rfl
theorem exec_cfgStageEnd (s : State) : exec .cfgStageEnd s = execCfgStageEnd s := rfl
theorem exec_snapshotEnd (s : State) : exec .snapshotEnd s = execSnapshotEnd s := rfl
theorem exec_fieldPortLink (port : Nat) (up : Bool) (s : State) : exec (.fieldPortLink port up) s = execFieldPortLink port up s := rfl
theorem exec_fabricPortLink (port : Nat) (up : Bool) (s : State) : exec (.fabricPortLink port up) s = execFabricPortLink port up s := rfl
theorem exec_pcieLinkUp (speed : Nat) (width : Nat) (vfs : Nat) (s : State) : exec (.pcieLinkUp speed width vfs) s = execPcieLinkUp speed width vfs s := rfl
theorem exec_pwrGoodRise (s : State) : exec .pwrGoodRise s = execPwrGoodRise s := rfl
theorem exec_twinDownInRelease (s : State) : exec .twinDownInRelease s = execTwinDownInRelease s := rfl
theorem exec_powerLoss (s : State) : exec .powerLoss s = execPowerLoss s := rfl

/-- A meaning over `onDev` answers the next state with the new device. -/
theorem onDev_eq (s : State) (f : Dev → Dev) : onDev s f = .next { s with dev := f s.dev } := rfl
/-- A meaning over `onFz` answers the next state with the new device. -/
theorem onFz_eq (s : State) (f : Fuses → Dev → Dev) : onFz s f = .next { s with dev := f s.fuses s.dev } := rfl
/-- A meaning over `onMem` answers the next state with the new memory and device. -/
theorem onMem_eq (s : State) (f : Fuses → Mem → Dev → Mem × Dev) :
    onMem s f = .next { s with mem := (f s.fuses s.mem s.dev).1, dev := (f s.fuses s.mem s.dev).2 } := rfl
/-- `onDev` changes the device only. -/
theorem onDev_next {s t : State} {f : Dev → Dev} (h : onDev s f = .next t) :
    t.fuses = s.fuses ∧ t.mem = s.mem ∧ t.pending = s.pending ∧ t.dev = f s.dev := by
  simp only [onDev, Host.Outcome.next.injEq] at h; subst h; exact ⟨rfl, rfl, rfl, rfl⟩
/-- `onFz` changes the device only. -/
theorem onFz_next {s t : State} {f : Fuses → Dev → Dev} (h : onFz s f = .next t) :
    t.fuses = s.fuses ∧ t.mem = s.mem ∧ t.pending = s.pending ∧ t.dev = f s.fuses s.dev := by
  simp only [onFz, Host.Outcome.next.injEq] at h; subst h; exact ⟨rfl, rfl, rfl, rfl⟩
/-- `onMem` changes memory and device only. -/
theorem onMem_next {s t : State} {f : Fuses → Mem → Dev → Mem × Dev} (h : onMem s f = .next t) :
    t.fuses = s.fuses ∧ t.pending = s.pending ∧ t.mem = (f s.fuses s.mem s.dev).1 ∧ t.dev = (f s.fuses s.mem s.dev).2 := by
  simp only [onMem, Host.Outcome.next.injEq] at h; subst h; exact ⟨rfl, rfl, rfl, rfl⟩
/-- What `onDie` can answer. -/
theorem onDie_cases (s : State) (die : Nat) (f : Fuses → Mem → Dev → Mem × Dev) :
    (8 ≤ die ∧ onDie s die f = .fault .illFormed) ∨ (die < 8 ∧ variantDies s.fuses.variant ≤ die ∧ onDie s die f = .next s) ∨
    (die < 8 ∧ die < variantDies s.fuses.variant ∧ onDie s die f = onMem s f) := by
  unfold onDie; split
  · exact .inl ⟨by omega, rfl⟩
  · split
    · exact .inr (.inl ⟨by omega, by omega, rfl⟩)
    · exact .inr (.inr ⟨by omega, by omega, rfl⟩)
/-- A command on a populated die acts. -/
theorem onDie_pop {s : State} {die : Nat} {f : Fuses → Mem → Dev → Mem × Dev} (h8 : die < 8) (h : die < variantDies s.fuses.variant) :
    onDie s die f = onMem s f := by
  rcases onDie_cases s die f with ⟨h1, _⟩ | ⟨_, h1, _⟩ | ⟨_, _, h1⟩
  · omega
  · omega
  · exact h1
/-- A command on a core of a populated die acts. -/
theorem onCore_pop {s : State} {die core : Nat} {f : Fuses → Mem → Dev → Mem × Dev} (h8 : die < 8) (hc : core < 16) (h : die < variantDies s.fuses.variant) :
    onCore s die core f = onMem s f := by
  unfold onCore; rw [if_neg (by simp; omega), if_neg (by omega)]
/-- A command on a control core of a populated die acts. -/
theorem onCtl_pop {s : State} {die core : Nat} {f : Fuses → Mem → Dev → Mem × Dev} (h8 : die < 8) (hc : core < 4) (h : die < variantDies s.fuses.variant) :
    onCtl s die core f = onMem s f := by
  unfold onCtl; rw [if_neg (by simp; omega), if_neg (by omega)]

/-! ### Registers -/

theorem tget_tput_self {α : Type} (t : Tab α) (k : Nat) (v : α) : tget (tput t k v) k = some v := by
  induction t with
  | nil => simp [tput, tget]
  | cons p t ih =>
    obtain ⟨j, w⟩ := p
    simp only [tput]
    split
    · simp [tget]
    · split
      · simp [tget]
      · have h1 : ¬ j = k := by assumption
        have h2 : ¬ k < j := by assumption
        simp [tget, h1, h2, ih]

theorem tget_tput_ne {α : Type} (t : Tab α) (k j : Nat) (v : α) (h : j ≠ k) : tget (tput t k v) j = tget t j := by
  induction t with
  | nil =>
    have h' : ¬ k = j := fun e => h e.symm
    simp [tput, tget, h']
  | cons p t ih =>
    obtain ⟨i, w⟩ := p
    simp only [tput]
    split
    · rename_i hk
      have h' : ¬ k = j := fun e => h e.symm
      by_cases hij : i = j
      · subst hij; simp [tget, h']; omega
      · simp only [tget, h', if_false]
        split
        · have : j < i := by omega
          simp [this]
        · rfl
    · split
      · rename_i hk
        subst hk
        have h' : ¬ i = j := fun e => h e.symm
        simp [tget, h']
      · simp only [tget, ih]

/-- A register reads what was written to it. -/
@[simp] theorem rget_rset_self (d : Dev) (o v : Nat) : rget (rset d o v) o = v % 2 ^ 32 := by
  simp [rget, rset, tget_tput_self]
/-- A write leaves every other register alone. -/
theorem rget_rset_ne (d : Dev) (o p v : Nat) (h : p ≠ o) : rget (rset d o v) p = rget d p := by
  simp [rget, rset, tget_tput_ne _ _ _ _ h]

end Sys2Proof.Machine
end

