-- ==== Sys2Proof/Laws/Mem.lean ====
section
/-! SUPPORT. The byte memory: a read after a write, and every operation keeps the canonical form. -/
namespace Sys2Proof.Machine

/-- A lower bound of a canonical memory may be lowered. -/
theorem mwfFrom_mono {m : Mem} {a b : Nat} (h : mwfFrom b m = true) (hab : a ≤ b) : mwfFrom a m = true := by
  cases m with
  | nil => rfl
  | cons p t =>
    simp only [mwfFrom, Bool.and_eq_true, decide_eq_true_eq] at h ⊢
    exact ⟨⟨by omega, h.1.2⟩, h.2⟩

/-- A canonical memory lists nothing below its bound. -/
theorem mget_below {m : Mem} {lo a : Nat} (h : mwfFrom lo m = true) (ha : a < lo) : mget m a = unwritten := by
  cases m with
  | nil => rfl
  | cons p t =>
    obtain ⟨j, b⟩ := p
    simp only [mwfFrom, Bool.and_eq_true, decide_eq_true_eq] at h
    have h1 : ¬ j = a := by omega
    have h2 : a < j := by omega
    simp [mget, h1, h2]

/-- A write keeps the canonical form. -/
theorem mput_wfFrom {m : Mem} {lo a : Nat} {b : Byte} (h : mwfFrom lo m = true) (ha : lo ≤ a) : mwfFrom lo (mput m a b) = true := by
  induction m generalizing lo with
  | nil => by_cases hb : b = unwritten <;> simp [mput, mwfFrom, hb, ha]
  | cons p t ih =>
    obtain ⟨j, c⟩ := p
    simp only [mwfFrom, Bool.and_eq_true, decide_eq_true_eq] at h
    obtain ⟨⟨h1, h2⟩, h3⟩ := h
    by_cases hlt : a < j
    · by_cases hb : b = unwritten
      · simp [mput, hlt, hb, mwfFrom, h1, h2, h3]
      · have : a + 1 ≤ j := by omega
        simp [mput, hlt, hb, mwfFrom, h2, h3, ha, this]
    · by_cases heq : a = j
      · subst heq
        by_cases hb : b = unwritten
        · simpa [mput, hb] using mwfFrom_mono h3 (by omega)
        · simp [mput, hb, mwfFrom, h1, h3]
      · have hw := ih h3 (by omega)
        simp [mput, hlt, heq, mwfFrom, h1, h2, hw]

/-- A write of one byte keeps the canonical form. -/
theorem mput_wf {m : Mem} {a : Nat} {b : Byte} (h : Memory.wf m = true) : Memory.wf (mput m a b) = true := mput_wfFrom h (Nat.zero_le a)
/-- A write of bytes keeps the canonical form. -/
theorem mputs_wf {m : Mem} {a : Nat} {bs : Bytes} (h : Memory.wf m = true) : Memory.wf (mputs m a bs) = true := by
  induction bs generalizing m a with
  | nil => exact h
  | cons b bs ih => exact ih (mput_wf h)
/-- A fill keeps the canonical form. -/
theorem mfill_wf {m : Mem} {a n : Nat} {b : Byte} (h : Memory.wf m = true) : Memory.wf (mfill m a n b) = true := mputs_wf h
/-- A little-endian write keeps the canonical form. -/
theorem mwr_wf {m : Mem} {a n v : Nat} (h : Memory.wf m = true) : Memory.wf (mwr m a n v) = true := mputs_wf h

/-- Taking bytes out of a canonical memory leaves it canonical. -/
theorem mwfFrom_filter {m : Mem} {lo : Nat} (p : Host.Cell → Bool) (h : mwfFrom lo m = true) : mwfFrom lo (m.filter p) = true := by
  induction m generalizing lo with
  | nil => rfl
  | cons c t ih =>
    obtain ⟨j, b⟩ := c
    simp only [mwfFrom, Bool.and_eq_true, decide_eq_true_eq] at h
    obtain ⟨⟨h1, h2⟩, h3⟩ := h
    by_cases hp : p (j, b)
    · simp [List.filter, hp, mwfFrom, h1, h2, ih h3]
    · simpa [List.filter, hp] using mwfFrom_mono (ih h3) (by omega)
/-- Writing a list of bytes, each at its address, keeps the canonical form. -/
theorem foldl_mput_wf {m : Mem} (l : List Host.Cell) (h : Memory.wf m = true) : Memory.wf (l.foldl (fun a c => mput a c.1 c.2) m) = true := by
  induction l generalizing m with
  | nil => exact h
  | cons c t ih => exact ih (mput_wf h)
/-- Taking some bytes from another memory keeps the canonical form. -/
theorem mmerge_wf {m m' : Mem} {p : Nat → Bool} (h : Memory.wf m = true) : Memory.wf (mmerge m m' p) = true :=
  foldl_mput_wf _ (mwfFrom_filter _ h)

/-- A byte reads as it was written. -/
theorem mget_mput_self {m : Mem} {lo a : Nat} {b : Byte} (h : mwfFrom lo m = true) : mget (mput m a b) a = b := by
  induction m generalizing lo with
  | nil => by_cases hb : b = unwritten <;> simp [mput, mget, hb]
  | cons p t ih =>
    obtain ⟨j, c⟩ := p
    simp only [mwfFrom, Bool.and_eq_true, decide_eq_true_eq] at h
    obtain ⟨⟨_, _⟩, h3⟩ := h
    by_cases hlt : a < j
    · have hne : ¬ j = a := by omega
      by_cases hb : b = unwritten <;> simp [mput, mget, hlt, hb, hne]
    · by_cases heq : a = j
      · subst heq
        by_cases hb : b = unwritten
        · simpa [mput, hb] using mget_below h3 (by omega)
        · simp [mput, mget, hb]
      · have hne : ¬ j = a := fun e => heq e.symm
        simp [mput, mget, hlt, heq, hne, ih h3]
/-- A write of one byte leaves every other address as it was. -/
theorem mget_mput_ne {m : Mem} {lo a x : Nat} {b : Byte} (h : mwfFrom lo m = true) (hx : x ≠ a) : mget (mput m a b) x = mget m x := by
  induction m generalizing lo with
  | nil =>
    have : ¬ a = x := fun e => hx e.symm
    by_cases hb : b = unwritten <;> simp [mput, mget, hb, this]
  | cons p t ih =>
    obtain ⟨j, c⟩ := p
    simp only [mwfFrom, Bool.and_eq_true, decide_eq_true_eq] at h
    obtain ⟨⟨_, _⟩, h3⟩ := h
    have hne : ¬ a = x := fun e => hx e.symm
    by_cases hlt : a < j
    · by_cases hb : b = unwritten
      · simp [mput, hlt, hb]
      · by_cases hj : j = x
        · subst hj
          have : ¬ j < a := by omega
          simp [mput, mget, hlt, hb, hne, this]
        · by_cases hxa : x < a
          · have : x < j := by omega
            simp [mput, mget, hlt, hb, hne, hj, hxa, this]
          · simp [mput, mget, hlt, hb, hne, hj, hxa]
    · by_cases heq : a = j
      · subst heq
        by_cases hb : b = unwritten
        · by_cases hxa : x < a
          · have := mget_below h3 (show x < a + 1 by omega)
            simp [mput, mget, hb, hne, hxa, this]
          · simp [mput, mget, hb, hne, hxa]
        · simp [mput, mget, hb, hne]
      · by_cases hj : j = x
        · subst hj; simp [mput, mget, hlt, heq]
        · by_cases hxj : x < j
          · simp [mput, mget, hlt, heq, hj, hxj]
          · simp [mput, mget, hlt, heq, hj, hxj, ih h3]

/-- A write of bytes leaves every address outside them as it was. -/
theorem mget_mputs_out {m : Mem} {a x : Nat} {bs : Bytes} (h : Memory.wf m = true) (hx : x < a ∨ a + bs.length ≤ x) :
    mget (mputs m a bs) x = mget m x := by
  induction bs generalizing m a with
  | nil => rfl
  | cons b bs ih =>
    simp only [List.length_cons] at hx
    rw [mputs, ih (mput_wf h) (by omega), mget_mput_ne h (by omega)]
/-- Each byte written reads as it was written. -/
theorem mget_mputs_in {m : Mem} {a i : Nat} {bs : Bytes} (h : Memory.wf m = true) (hi : i < bs.length) :
    mget (mputs m a bs) (a + i) = bs[i] := by
  induction bs generalizing m a i with
  | nil => simp at hi
  | cons b bs ih =>
    cases i with
    | zero => rw [mputs, mget_mputs_out (mput_wf h) (by omega)]; exact mget_mput_self h
    | succ i =>
      have h' := ih (m := mput m a b) (a := a + 1) (i := i) (mput_wf h) (by simpa using hi)
      rw [mputs, show a + (i + 1) = a + 1 + i by omega, h']; rfl

end Sys2Proof.Machine
end

