-- ==== Sys2Proof/Laws/PerInstr.lean ====
section
/-! SUPPORT. Per command: the die, core or control core that its meaning acts on, and that a well-formed command names one that R20 and R410 give. -/
set_option linter.unusedSimpArgs false
namespace Sys2Proof.Laws

/-- The die that a command acts on, its core and its control core, where it names one. -/
def place : Instr → Option Nat × Option Nat × Option Nat
  | .nop _ => (none, none, none)
  | .queryStatus _ => (none, none, none)
  | .loadImage _ => (none, none, none)
  | .activateImage _ => (none, none, none)
  | .modelDefine _ => (none, none, none)
  | .primsetLoad _ => (none, none, none)
  | .modelFree _ => (none, none, none)
  | .primsetFree _ => (none, none, none)
  | .mapCreate _ => (none, none, none)
  | .mapUpdate _ => (none, none, none)
  | .mapCommit _ => (none, none, none)
  | .mapGrant _ => (none, none, none)
  | .mapGrantRevoke _ => (none, none, none)
  | .mapDestroy _ => (none, none, none)
  | .streamOpen _ => (none, none, none)
  | .streamClose _ => (none, none, none)
  | .agentBind _ => (none, none, none)
  | .agentUnbind _ => (none, none, none)
  | .plan _ => (none, none, none)
  | .stopVerify _ => (none, none, none)
  | .planCancel _ => (none, none, none)
  | .solve _ => (none, none, none)
  | .select _ => (none, none, none)
  | .snapshot _ => (none, none, none)
  | .replayPrepare _ => (none, none, none)
  | .replayRun _ => (none, none, none)
  | .replayEnd _ => (none, none, none)
  | .calibKin _ => (none, none, none)
  | .calibKinAbort _ => (none, none, none)
  | .calibTime _ => (none, none, none)
  | .calibTimeClear _ => (none, none, none)
  | .calibLaneRun _ => (none, none, none)
  | .calibLaneStop _ => (none, none, none)
  | .calibLaneReport _ => (none, none, none)
  | .polderCreate _ => (none, none, none)
  | .polderModify _ => (none, none, none)
  | .polderReset _ => (none, none, none)
  | .polderDestroy _ => (none, none, none)
  | .twinAttach _ => (none, none, none)
  | .twinDetach _ => (none, none, none)
  | .twinConfig _ => (none, none, none)
  | .fabricJoin _ => (none, none, none)
  | .fabricAssign _ => (none, none, none)
  | .fabricLeave _ => (none, none, none)
  | .cfgStage _ => (none, none, none)
  | .cfgCommit _ => (none, none, none)
  | .dieReadmit _ => (none, none, none)
  | .hifSqTail _ _ _ => (none, none, none)
  | .hifCqHead _ _ _ => (none, none, none)
  | .queuePairEnable _ _ _ => (none, none, none)
  | .queuePairDisable _ _ _ => (none, none, none)
  | .queuePairDrained _ _ => (none, none, none)
  | .commandFetch _ _ _ _ _ => (none, none, none)
  | .statusReplyWrite _ _ => (none, none, none)
  | .cqCoalTimeout _ _ => (none, none, none)
  | .msixUnmask _ _ => (none, none, none)
  | .hifDmaError _ _ _ => (none, none, none)
  | .flrVf _ _ => (none, none, none)
  | .flrPf => (none, none, none)
  | .hostLinkReset => (none, none, none)
  | .streamFrameIngress _ _ _ _ => (none, none, none)
  | .agentStateIngress _ _ _ _ => (none, none, none)
  | .requestIngress _ _ _ _ => (none, none, none)
  | .ptpFrame _ _ _ _ => (none, none, none)
  | .unmatchedFrame _ _ => (none, none, none)
  | .ptpAnnounceTimeout => (none, none, none)
  | .ppsInEdge _ => (none, none, none)
  | .holdoverExpiry => (none, none, none)
  | .clockMonitorWindow _ _ _ => (none, none, none)
  | .trnRun _ => (none, none, none)
  | .trnTaiSet _ => (none, none, none)
  | .ledgerCutoff => (none, none, none)
  | .streamTimeout _ => (none, none, none)
  | .tileMapChange => (none, none, none)
  | .turnBoundary => (none, none, none)
  | .pinHoldExpiry _ => (none, none, none)
  | .imageActivate => (none, none, none)
  | .configActivate => (none, none, none)
  | .releasePhase => (none, none, none)
  | .quietTailCheck die => (some die, none, none)
  | .bermOverrun die _ _ => (some die, none, none)
  | .resultEgress => (none, none, none)
  | .deadlineExpiry _ => (none, none, none)
  | .budgetEnd _ => (none, none, none)
  | .predictorPassStart _ => (none, none, none)
  | .predictorPassEnd _ => (none, none, none)
  | .bvhBuildEnd _ => (none, none, none)
  | .setBuildEnd _ => (none, none, none)
  | .goalSolveEnd _ => (none, none, none)
  | .searchStep _ => (none, none, none)
  | .closingStop _ => (none, none, none)
  | .stageFinish _ => (none, none, none)
  | .footprintCover _ => (none, none, none)
  | .calibEstimateEnd _ => (none, none, none)
  | .calibOutcome => (none, none, none)
  | .calibSpanExpiry _ => (none, none, none)
  | .laneStep _ _ _ _ => (none, none, none)
  | .replayTurn => (none, none, none)
  | .planSeal die _ => (some die, none, none)
  | .bundleIssue die _ => (some die, none, none)
  | .operationStart die _ _ _ _ _ _ => (some die, none, none)
  | .tokenArrival die _ _ => (some die, none, none)
  | .swpStage die core _ => (some die, some core, none)
  | .swpCheck die core _ _ => (some die, some core, none)
  | .swpInval die core _ => (some die, some core, none)
  | .tnsLoad die core _ => (some die, some core, none)
  | .tnsTable die core _ => (some die, some core, none)
  | .tnsLayer die core _ => (some die, some core, none)
  | .slvBatch die core _ => (some die, some core, none)
  | .slvRows die core _ _ => (some die, some core, none)
  | .selSort die core _ => (some die, some core, none)
  | .selTopk die core _ => (some die, some core, none)
  | .selUniq die core _ => (some die, some core, none)
  | .selMerge die core _ => (some die, some core, none)
  | .frnOpen die core _ => (some die, some core, none)
  | .frnPushb die core _ _ => (some die, some core, none)
  | .frnPopb die core _ _ => (some die, some core, none)
  | .frnClose die core _ => (some die, some core, none)
  | .frontierRefill die core _ => (some die, some core, none)
  | .dmaIn die _ => (some die, none, none)
  | .dmaOut die _ => (some die, none, none)
  | .dmaCtrl die _ => (some die, none, none)
  | .dmaLink die _ => (some die, none, none)
  | .barArm die _ _ => (some die, none, none)
  | .route die _ _ => (some die, none, none)
  | .signal die _ _ _ => (some die, none, none)
  | .grant die _ _ _ => (some die, none, none)
  | .barWait die _ _ _ => (some die, none, none)
  | .unitNop die _ _ => (some die, none, none)
  | .barrierRelease die _ _ => (some die, none, none)
  | .bankOwnerStage die bank _ => (some die, some bank, none)
  | .bankTestRegion die bank _ => (some die, some bank, none)
  | .mcopy die core _ _ _ _ _ _ => (some die, none, some core)
  | .mfill die core _ _ _ _ _ _ => (some die, none, some core)
  | .qdrain die core _ _ _ _ _ _ => (some die, none, some core)
  | .crcb32 die core _ _ _ _ _ _ => (some die, none, some core)
  | .crcb64 die core _ _ _ _ _ _ => (some die, none, some core)
  | .interruptTake die core _ _ => (some die, none, some core)
  | .tspawn die core _ _ _ _ _ => (some die, none, some core)
  | .twait die core _ _ _ _ => (some die, none, some core)
  | .tdelay die core _ => (some die, none, some core)
  | .tyield die core _ => (some die, none, some core)
  | .texit die core => (some die, none, some core)
  | .tsignal die core _ _ _ => (some die, none, some core)
  | .hardwareEventFlag die _ _ _ _ => (some die, none, none)
  | .coreTake die core _ => (some die, none, some core)
  | .delayExpiry die _ => (some die, none, none)
  | .flowEnter die core _ _ => (some die, none, some core)
  | .flowDone die core _ _ _ => (some die, none, some core)
  | .flowSkip die core _ _ => (some die, none, some core)
  | .stwt die core _ _ => (some die, none, some core)
  | .coherenceRequest die core _ _ _ => (some die, none, some core)
  | .snoop _ => (none, none, none)
  | .evictClean die core _ => (some die, none, some core)
  | .evictDirty die core _ => (some die, none, some core)
  | .evictPending die core _ => (some die, none, some core)
  | .evictAck die core _ => (some die, none, some core)
  | .wardenMessage _ _ => (none, none, none)
  | .quietExpiry _ _ _ _ => (none, none, none)
  | .wdnHeartbeatMiss _ _ _ => (none, none, none)
  | .wdnCfgCheck _ => (none, none, none)
  | .wdnLock => (none, none, none)
  | .wdnAck _ _ => (none, none, none)
  | .wdnAckAll _ => (none, none, none)
  | .wdnUnlatch _ _ => (none, none, none)
  | .wdnInject _ _ => (none, none, none)
  | .wdnSafeClr => (none, none, none)
  | .safeStateExit => (none, none, none)
  | .blockReset die _ => (some die, none, none)
  | .safeHeartbeat _ => (none, none, none)
  | .recMsg0Read => (none, none, none)
  | .twinLinkFrame _ _ _ _ _ => (none, none, none)
  | .twinIdleTimer => (none, none, none)
  | .twinLinkLost _ => (none, none, none)
  | .twinDownIn _ _ => (none, none, none)
  | .handover => (none, none, none)
  | .twinLeave => (none, none, none)
  | .twinLedgerEntry _ _ => (none, none, none)
  | .twinSeal _ _ => (none, none, none)
  | .twinDigestList _ _ => (none, none, none)
  | .digestLate _ => (none, none, none)
  | .heldFrameExpiry _ => (none, none, none)
  | .arbitrationTimeout => (none, none, none)
  | .twnWitAns _ _ => (none, none, none)
  | .tlRecordEntry _ => (none, none, none)
  | .attachJoinTurn => (none, none, none)
  | .attachStateDigest _ _ => (none, none, none)
  | .dieMessagesResume _ => (none, none, none)
  | .dieBistEnd _ _ _ => (none, none, none)
  | .dieCopyCurrent _ => (none, none, none)
  | .hello _ _ => (none, none, none)
  | .helloTimer => (none, none, none)
  | .assign _ _ => (none, none, none)
  | .assignTimer => (none, none, none)
  | .data _ _ => (none, none, none)
  | .ack _ _ => (none, none, none)
  | .dataResendTimeout _ _ => (none, none, none)
  | .heartbeat _ _ => (none, none, none)
  | .fabricHeartbeatSend => (none, none, none)
  | .leave _ => (none, none, none)
  | .peerLost _ => (none, none, none)
  | .powerOn => (none, none, none)
  | .resetNLow _ => (none, none, none)
  | .packageReset => (none, none, none)
  | .boot _ _ => (none, none, none)
  | .bootReady _ _ => (none, none, none)
  | .bootFailure _ _ _ => (none, none, none)
  | .thermalTrip die _ => (some die, none, none)
  | .tapReset => (none, none, none)
  | .bypass _ _ => (none, none, none)
  | .idcode => (none, none, none)
  | .samplePreload _ _ _ => (none, none, none)
  | .extest _ _ _ => (none, none, none)
  | .clamp => (none, none, none)
  | .highz => (none, none, none)
  | .spiAccess _ _ => (none, none, none)
  | .smbId => (none, none, none)
  | .smbStepping => (none, none, none)
  | .smbStage => (none, none, none)
  | .smbStatus => (none, none, none)
  | .smbDieTemp _ => (none, none, none)
  | .smbHottestTemp => (none, none, none)
  | .smbRailVoltage _ => (none, none, none)
  | .smbInputPower => (none, none, none)
  | .smbSerial => (none, none, none)
  | .smbSafeCnt => (none, none, none)
  | .smbWrite _ _ => (none, none, none)
  | .help => (none, none, none)
  | .ver => (none, none, none)
  | .monStage => (none, none, none)
  | .stat => (none, none, none)
  | .temp => (none, none, none)
  | .rd _ _ => (none, none, none)
  | .monWdn => (none, none, none)
  | .ring _ => (none, none, none)
  | .unlock _ => (none, none, none)
  | .resp _ _ _ => (none, none, none)
  | .lock => (none, none, none)
  | .wr _ _ _ => (none, none, none)
  | .monAck _ _ _ => (none, none, none)
  | .monLongLine => (none, none, none)
  | .monInactivity => (none, none, none)
  | .monLockoutExpiry => (none, none, none)
  | .regPairLowRead _ _ => (none, none, none)
  | .regPairLowWrite _ _ _ => (none, none, none)
  | .regPairHighWrite _ _ _ _ => (none, none, none)
  | .rcRead _ _ => (none, none, none)
  | .w1cWrite _ _ _ => (none, none, none)
  | .counterClear _ _ => (none, none, none)
  | .registerWrite _ _ _ _ => (none, none, none)
  | .loadImageEnd => (none, none, none)
  | .cfgStageEnd => (none, none, none)
  | .snapshotEnd => (none, none, none)
  | .fieldPortLink _ _ => (none, none, none)
  | .fabricPortLink _ _ => (none, none, none)
  | .pcieLinkUp _ _ _ => (none, none, none)
  | .pwrGoodRise => (none, none, none)
  | .twinDownInRelease => (none, none, none)
  | .powerLoss => (none, none, none)

/-- A well-formed command names a die below 8, a core below 16 and a control core below 4. -/
def Placed.Statement (i : Instr) : Prop :=
  wf i = true → (∀ d, (place i).1 = some d → d < 8) ∧ (∀ c, (place i).2.1 = some c → c < 16) ∧ (∀ c, (place i).2.2 = some c → c < 4)

/-- A command that names no place. -/
theorem Placed.of_none {i : Instr} (h : place i = (none, none, none)) : Placed.Statement i := by
  intro _
  rw [h]
  exact ⟨fun _ e => (nomatch e), fun _ e => (nomatch e), fun _ e => (nomatch e)⟩

theorem Placed.nop (c : Cmd) : Placed.Statement (.nop c) := Placed.of_none rfl
theorem Placed.queryStatus (c : Cmd) : Placed.Statement (.queryStatus c) := Placed.of_none rfl
theorem Placed.loadImage (c : Cmd) : Placed.Statement (.loadImage c) := Placed.of_none rfl
theorem Placed.activateImage (c : Cmd) : Placed.Statement (.activateImage c) := Placed.of_none rfl
theorem Placed.modelDefine (c : Cmd) : Placed.Statement (.modelDefine c) := Placed.of_none rfl
theorem Placed.primsetLoad (c : Cmd) : Placed.Statement (.primsetLoad c) := Placed.of_none rfl
theorem Placed.modelFree (c : Cmd) : Placed.Statement (.modelFree c) := Placed.of_none rfl
theorem Placed.primsetFree (c : Cmd) : Placed.Statement (.primsetFree c) := Placed.of_none rfl
theorem Placed.mapCreate (c : Cmd) : Placed.Statement (.mapCreate c) := Placed.of_none rfl
theorem Placed.mapUpdate (c : Cmd) : Placed.Statement (.mapUpdate c) := Placed.of_none rfl
theorem Placed.mapCommit (c : Cmd) : Placed.Statement (.mapCommit c) := Placed.of_none rfl
theorem Placed.mapGrant (c : Cmd) : Placed.Statement (.mapGrant c) := Placed.of_none rfl
theorem Placed.mapGrantRevoke (c : Cmd) : Placed.Statement (.mapGrantRevoke c) := Placed.of_none rfl
theorem Placed.mapDestroy (c : Cmd) : Placed.Statement (.mapDestroy c) := Placed.of_none rfl
theorem Placed.streamOpen (c : Cmd) : Placed.Statement (.streamOpen c) := Placed.of_none rfl
theorem Placed.streamClose (c : Cmd) : Placed.Statement (.streamClose c) := Placed.of_none rfl
theorem Placed.agentBind (c : Cmd) : Placed.Statement (.agentBind c) := Placed.of_none rfl
theorem Placed.agentUnbind (c : Cmd) : Placed.Statement (.agentUnbind c) := Placed.of_none rfl
theorem Placed.plan (c : Cmd) : Placed.Statement (.plan c) := Placed.of_none rfl
theorem Placed.stopVerify (c : Cmd) : Placed.Statement (.stopVerify c) := Placed.of_none rfl
theorem Placed.planCancel (c : Cmd) : Placed.Statement (.planCancel c) := Placed.of_none rfl
theorem Placed.solve (c : Cmd) : Placed.Statement (.solve c) := Placed.of_none rfl
theorem Placed.select (c : Cmd) : Placed.Statement (.select c) := Placed.of_none rfl
theorem Placed.snapshot (c : Cmd) : Placed.Statement (.snapshot c) := Placed.of_none rfl
theorem Placed.replayPrepare (c : Cmd) : Placed.Statement (.replayPrepare c) := Placed.of_none rfl
theorem Placed.replayRun (c : Cmd) : Placed.Statement (.replayRun c) := Placed.of_none rfl
theorem Placed.replayEnd (c : Cmd) : Placed.Statement (.replayEnd c) := Placed.of_none rfl
theorem Placed.calibKin (c : Cmd) : Placed.Statement (.calibKin c) := Placed.of_none rfl
theorem Placed.calibKinAbort (c : Cmd) : Placed.Statement (.calibKinAbort c) := Placed.of_none rfl
theorem Placed.calibTime (c : Cmd) : Placed.Statement (.calibTime c) := Placed.of_none rfl
theorem Placed.calibTimeClear (c : Cmd) : Placed.Statement (.calibTimeClear c) := Placed.of_none rfl
theorem Placed.calibLaneRun (c : Cmd) : Placed.Statement (.calibLaneRun c) := Placed.of_none rfl
theorem Placed.calibLaneStop (c : Cmd) : Placed.Statement (.calibLaneStop c) := Placed.of_none rfl
theorem Placed.calibLaneReport (c : Cmd) : Placed.Statement (.calibLaneReport c) := Placed.of_none rfl
theorem Placed.polderCreate (c : Cmd) : Placed.Statement (.polderCreate c) := Placed.of_none rfl
theorem Placed.polderModify (c : Cmd) : Placed.Statement (.polderModify c) := Placed.of_none rfl
theorem Placed.polderReset (c : Cmd) : Placed.Statement (.polderReset c) := Placed.of_none rfl
theorem Placed.polderDestroy (c : Cmd) : Placed.Statement (.polderDestroy c) := Placed.of_none rfl
theorem Placed.twinAttach (c : Cmd) : Placed.Statement (.twinAttach c) := Placed.of_none rfl
theorem Placed.twinDetach (c : Cmd) : Placed.Statement (.twinDetach c) := Placed.of_none rfl
theorem Placed.twinConfig (c : Cmd) : Placed.Statement (.twinConfig c) := Placed.of_none rfl
theorem Placed.fabricJoin (c : Cmd) : Placed.Statement (.fabricJoin c) := Placed.of_none rfl
theorem Placed.fabricAssign (c : Cmd) : Placed.Statement (.fabricAssign c) := Placed.of_none rfl
theorem Placed.fabricLeave (c : Cmd) : Placed.Statement (.fabricLeave c) := Placed.of_none rfl
theorem Placed.cfgStage (c : Cmd) : Placed.Statement (.cfgStage c) := Placed.of_none rfl
theorem Placed.cfgCommit (c : Cmd) : Placed.Statement (.cfgCommit c) := Placed.of_none rfl
theorem Placed.dieReadmit (c : Cmd) : Placed.Statement (.dieReadmit c) := Placed.of_none rfl
theorem Placed.hifSqTail (p : Nat) (q : Nat) (v : Nat) : Placed.Statement (.hifSqTail p q v) := Placed.of_none rfl
theorem Placed.hifCqHead (p : Nat) (q : Nat) (v : Nat) : Placed.Statement (.hifCqHead p q v) := Placed.of_none rfl
theorem Placed.queuePairEnable (p : Nat) (q : Nat) (v : Nat) : Placed.Statement (.queuePairEnable p q v) := Placed.of_none rfl
theorem Placed.queuePairDisable (p : Nat) (q : Nat) (v : Nat) : Placed.Statement (.queuePairDisable p q v) := Placed.of_none rfl
theorem Placed.queuePairDrained (p : Nat) (q : Nat) : Placed.Statement (.queuePairDrained p q) := Placed.of_none rfl
theorem Placed.commandFetch (p : Nat) (q : Nat) (t : Nat) (packet : Bytes) (block : Bytes) : Placed.Statement (.commandFetch p q t packet block) := Placed.of_none rfl
theorem Placed.statusReplyWrite (p : Nat) (q : Nat) : Placed.Statement (.statusReplyWrite p q) := Placed.of_none rfl
theorem Placed.cqCoalTimeout (p : Nat) (q : Nat) : Placed.Statement (.cqCoalTimeout p q) := Placed.of_none rfl
theorem Placed.msixUnmask (fn : Nat) (vec : Nat) : Placed.Statement (.msixUnmask fn vec) := Placed.of_none rfl
theorem Placed.hifDmaError (p : Nat) (q : Nat) (write : Bool) : Placed.Statement (.hifDmaError p q write) := Placed.of_none rfl
theorem Placed.flrVf (p : Nat) (t : Nat) : Placed.Statement (.flrVf p t) := Placed.of_none rfl
theorem Placed.flrPf : Placed.Statement .flrPf := Placed.of_none rfl
theorem Placed.hostLinkReset : Placed.Statement .hostLinkReset := Placed.of_none rfl
theorem Placed.streamFrameIngress (port : Nat) (src : Nat) (t : Nat) (frame : Bytes) : Placed.Statement (.streamFrameIngress port src t frame) := Placed.of_none rfl
theorem Placed.agentStateIngress (port : Nat) (src : Nat) (t : Nat) (frame : Bytes) : Placed.Statement (.agentStateIngress port src t frame) := Placed.of_none rfl
theorem Placed.requestIngress (port : Nat) (src : Nat) (t : Nat) (frame : Bytes) : Placed.Statement (.requestIngress port src t frame) := Placed.of_none rfl
theorem Placed.ptpFrame (port : Nat) (t : Nat) (announce : Bool) (offset : Option Int) : Placed.Statement (.ptpFrame port t announce offset) := Placed.of_none rfl
theorem Placed.unmatchedFrame (port : Nat) (fcs : Bool) : Placed.Statement (.unmatchedFrame port fcs) := Placed.of_none rfl
theorem Placed.ptpAnnounceTimeout : Placed.Statement .ptpAnnounceTimeout := Placed.of_none rfl
theorem Placed.ppsInEdge (t : Nat) : Placed.Statement (.ppsInEdge t) := Placed.of_none rfl
theorem Placed.holdoverExpiry : Placed.Statement .holdoverExpiry := Placed.of_none rfl
theorem Placed.clockMonitorWindow (cclk : Nat) (ctclkOk : Bool) (tclkOk : Bool) : Placed.Statement (.clockMonitorWindow cclk ctclkOk tclkOk) := Placed.of_none rfl
theorem Placed.trnRun (t : Nat) : Placed.Statement (.trnRun t) := Placed.of_none rfl
theorem Placed.trnTaiSet (v : Nat) : Placed.Statement (.trnTaiSet v) := Placed.of_none rfl
theorem Placed.ledgerCutoff : Placed.Statement .ledgerCutoff := Placed.of_none rfl
theorem Placed.streamTimeout (n : Nat) : Placed.Statement (.streamTimeout n) := Placed.of_none rfl
theorem Placed.tileMapChange : Placed.Statement .tileMapChange := Placed.of_none rfl
theorem Placed.turnBoundary : Placed.Statement .turnBoundary := Placed.of_none rfl
theorem Placed.pinHoldExpiry (map : Nat) : Placed.Statement (.pinHoldExpiry map) := Placed.of_none rfl
theorem Placed.imageActivate : Placed.Statement .imageActivate := Placed.of_none rfl
theorem Placed.configActivate : Placed.Statement .configActivate := Placed.of_none rfl
theorem Placed.releasePhase : Placed.Statement .releasePhase := Placed.of_none rfl
theorem Placed.quietTailCheck (die : Nat) : Placed.Statement (.quietTailCheck die) := fun h => by
  have h : (wfDie die) = true := h
  exact ⟨fun c e => (Option.some.inj (show some die = some c from e)) ▸ (by simp_all [wfDie, wfCore, wfCtl]),
    fun c e => (nomatch (show (none : Option Nat) = some c from e)),
    fun c e => (nomatch (show (none : Option Nat) = some c from e))⟩
theorem Placed.bermOverrun (die : Nat) (unit : Nat) (cyc : Nat) : Placed.Statement (.bermOverrun die unit cyc) := fun h => by
  have h : (wfDie die && decide (unit < 256) && decide (cyc < 2 ^ 18)) = true := h
  exact ⟨fun c e => (Option.some.inj (show some die = some c from e)) ▸ (by simp_all [wfDie, wfCore, wfCtl]),
    fun c e => (nomatch (show (none : Option Nat) = some c from e)),
    fun c e => (nomatch (show (none : Option Nat) = some c from e))⟩
theorem Placed.resultEgress : Placed.Statement .resultEgress := Placed.of_none rfl
theorem Placed.deadlineExpiry (q : Nat) : Placed.Statement (.deadlineExpiry q) := Placed.of_none rfl
theorem Placed.budgetEnd (q : Nat) : Placed.Statement (.budgetEnd q) := Placed.of_none rfl
theorem Placed.predictorPassStart (map : Nat) : Placed.Statement (.predictorPassStart map) := Placed.of_none rfl
theorem Placed.predictorPassEnd (map : Nat) : Placed.Statement (.predictorPassEnd map) := Placed.of_none rfl
theorem Placed.bvhBuildEnd (map : Nat) : Placed.Statement (.bvhBuildEnd map) := Placed.of_none rfl
theorem Placed.setBuildEnd (set : Nat) : Placed.Statement (.setBuildEnd set) := Placed.of_none rfl
theorem Placed.goalSolveEnd (q : Nat) : Placed.Statement (.goalSolveEnd q) := Placed.of_none rfl
theorem Placed.searchStep (q : Nat) : Placed.Statement (.searchStep q) := Placed.of_none rfl
theorem Placed.closingStop (q : Nat) : Placed.Statement (.closingStop q) := Placed.of_none rfl
theorem Placed.stageFinish (q : Nat) : Placed.Statement (.stageFinish q) := Placed.of_none rfl
theorem Placed.footprintCover (q : Nat) : Placed.Statement (.footprintCover q) := Placed.of_none rfl
theorem Placed.calibEstimateEnd (key : Nat) : Placed.Statement (.calibEstimateEnd key) := Placed.of_none rfl
theorem Placed.calibOutcome : Placed.Statement .calibOutcome := Placed.of_none rfl
theorem Placed.calibSpanExpiry (key : Nat) : Placed.Statement (.calibSpanExpiry key) := Placed.of_none rfl
theorem Placed.laneStep (link : Nat) (side : Nat) (width : Nat) (height : Nat) : Placed.Statement (.laneStep link side width height) := Placed.of_none rfl
theorem Placed.replayTurn : Placed.Statement .replayTurn := Placed.of_none rfl
theorem Placed.planSeal (die : Nat) (v : Nat) : Placed.Statement (.planSeal die v) := fun h => by
  have h : (wfDie die && wfWord v) = true := h
  exact ⟨fun c e => (Option.some.inj (show some die = some c from e)) ▸ (by simp_all [wfDie, wfCore, wfCtl]),
    fun c e => (nomatch (show (none : Option Nat) = some c from e)),
    fun c e => (nomatch (show (none : Option Nat) = some c from e))⟩
theorem Placed.bundleIssue (die : Nat) (cyc : Nat) : Placed.Statement (.bundleIssue die cyc) := fun h => by
  have h : (wfDie die && decide (cyc < 2 ^ 18)) = true := h
  exact ⟨fun c e => (Option.some.inj (show some die = some c from e)) ▸ (by simp_all [wfDie, wfCore, wfCtl]),
    fun c e => (nomatch (show (none : Option Nat) = some c from e)),
    fun c e => (nomatch (show (none : Option Nat) = some c from e))⟩
theorem Placed.operationStart (die : Nat) (unit : Nat) (cyc : Nat) (ue : Option Nat) (bankCe : Option Nat) (bankUe : Option Nat) (desc : UnitDesc) : Placed.Statement (.operationStart die unit cyc ue bankCe bankUe desc) := fun h => by
  have h : (wfDie die && decide (unit < 256) && decide (cyc < 2 ^ 18) && wfOpt 16 bankCe && wfOpt (2 ^ 22) bankUe) = true := h
  exact ⟨fun c e => (Option.some.inj (show some die = some c from e)) ▸ (by simp_all [wfDie, wfCore, wfCtl]),
    fun c e => (nomatch (show (none : Option Nat) = some c from e)),
    fun c e => (nomatch (show (none : Option Nat) = some c from e))⟩
theorem Placed.tokenArrival (die : Nat) (unit : Nat) (cyc : Nat) : Placed.Statement (.tokenArrival die unit cyc) := fun h => by
  have h : (wfDie die && decide (unit < 256) && decide (cyc < 2 ^ 18)) = true := h
  exact ⟨fun c e => (Option.some.inj (show some die = some c from e)) ▸ (by simp_all [wfDie, wfCore, wfCtl]),
    fun c e => (nomatch (show (none : Option Nat) = some c from e)),
    fun c e => (nomatch (show (none : Option Nat) = some c from e))⟩
theorem Placed.swpStage (die : Nat) (core : Nat) (operand : Nat) : Placed.Statement (.swpStage die core operand) := fun h => by
  have h : (wfDie die && wfCore core && decide (operand < 2 ^ 48)) = true := h
  exact ⟨fun c e => (Option.some.inj (show some die = some c from e)) ▸ (by simp_all [wfDie, wfCore, wfCtl]),
    fun c e => (Option.some.inj (show some core = some c from e)) ▸ (by simp_all [wfDie, wfCore, wfCtl]),
    fun c e => (nomatch (show (none : Option Nat) = some c from e))⟩
theorem Placed.swpCheck (die : Nat) (core : Nat) (operand : Nat) (ecc : Option Nat) : Placed.Statement (.swpCheck die core operand ecc) := fun h => by
  have h : (wfDie die && wfCore core && decide (operand < 2 ^ 48)) = true := h
  exact ⟨fun c e => (Option.some.inj (show some die = some c from e)) ▸ (by simp_all [wfDie, wfCore, wfCtl]),
    fun c e => (Option.some.inj (show some core = some c from e)) ▸ (by simp_all [wfDie, wfCore, wfCtl]),
    fun c e => (nomatch (show (none : Option Nat) = some c from e))⟩
theorem Placed.swpInval (die : Nat) (core : Nat) (operand : Nat) : Placed.Statement (.swpInval die core operand) := fun h => by
  have h : (wfDie die && wfCore core && decide (operand < 2 ^ 48)) = true := h
  exact ⟨fun c e => (Option.some.inj (show some die = some c from e)) ▸ (by simp_all [wfDie, wfCore, wfCtl]),
    fun c e => (Option.some.inj (show some core = some c from e)) ▸ (by simp_all [wfDie, wfCore, wfCtl]),
    fun c e => (nomatch (show (none : Option Nat) = some c from e))⟩
theorem Placed.tnsLoad (die : Nat) (core : Nat) (operand : Nat) : Placed.Statement (.tnsLoad die core operand) := fun h => by
  have h : (wfDie die && wfCore core && decide (operand < 2 ^ 48)) = true := h
  exact ⟨fun c e => (Option.some.inj (show some die = some c from e)) ▸ (by simp_all [wfDie, wfCore, wfCtl]),
    fun c e => (Option.some.inj (show some core = some c from e)) ▸ (by simp_all [wfDie, wfCore, wfCtl]),
    fun c e => (nomatch (show (none : Option Nat) = some c from e))⟩
theorem Placed.tnsTable (die : Nat) (core : Nat) (operand : Nat) : Placed.Statement (.tnsTable die core operand) := fun h => by
  have h : (wfDie die && wfCore core && decide (operand < 2 ^ 48)) = true := h
  exact ⟨fun c e => (Option.some.inj (show some die = some c from e)) ▸ (by simp_all [wfDie, wfCore, wfCtl]),
    fun c e => (Option.some.inj (show some core = some c from e)) ▸ (by simp_all [wfDie, wfCore, wfCtl]),
    fun c e => (nomatch (show (none : Option Nat) = some c from e))⟩
theorem Placed.tnsLayer (die : Nat) (core : Nat) (operand : Nat) : Placed.Statement (.tnsLayer die core operand) := fun h => by
  have h : (wfDie die && wfCore core && decide (operand < 2 ^ 48)) = true := h
  exact ⟨fun c e => (Option.some.inj (show some die = some c from e)) ▸ (by simp_all [wfDie, wfCore, wfCtl]),
    fun c e => (Option.some.inj (show some core = some c from e)) ▸ (by simp_all [wfDie, wfCore, wfCtl]),
    fun c e => (nomatch (show (none : Option Nat) = some c from e))⟩
theorem Placed.slvBatch (die : Nat) (core : Nat) (operand : Nat) : Placed.Statement (.slvBatch die core operand) := fun h => by
  have h : (wfDie die && wfCore core && decide (operand < 2 ^ 48)) = true := h
  exact ⟨fun c e => (Option.some.inj (show some die = some c from e)) ▸ (by simp_all [wfDie, wfCore, wfCtl]),
    fun c e => (Option.some.inj (show some core = some c from e)) ▸ (by simp_all [wfDie, wfCore, wfCtl]),
    fun c e => (nomatch (show (none : Option Nat) = some c from e))⟩
theorem Placed.slvRows (die : Nat) (core : Nat) (operand : Nat) (desc : UnitDesc) : Placed.Statement (.slvRows die core operand desc) := fun h => by
  have h : (wfDie die && wfCore core && decide (operand < 2 ^ 48)) = true := h
  exact ⟨fun c e => (Option.some.inj (show some die = some c from e)) ▸ (by simp_all [wfDie, wfCore, wfCtl]),
    fun c e => (Option.some.inj (show some core = some c from e)) ▸ (by simp_all [wfDie, wfCore, wfCtl]),
    fun c e => (nomatch (show (none : Option Nat) = some c from e))⟩
theorem Placed.selSort (die : Nat) (core : Nat) (operand : Nat) : Placed.Statement (.selSort die core operand) := fun h => by
  have h : (wfDie die && wfCore core && decide (operand < 2 ^ 48)) = true := h
  exact ⟨fun c e => (Option.some.inj (show some die = some c from e)) ▸ (by simp_all [wfDie, wfCore, wfCtl]),
    fun c e => (Option.some.inj (show some core = some c from e)) ▸ (by simp_all [wfDie, wfCore, wfCtl]),
    fun c e => (nomatch (show (none : Option Nat) = some c from e))⟩
theorem Placed.selTopk (die : Nat) (core : Nat) (operand : Nat) : Placed.Statement (.selTopk die core operand) := fun h => by
  have h : (wfDie die && wfCore core && decide (operand < 2 ^ 48)) = true := h
  exact ⟨fun c e => (Option.some.inj (show some die = some c from e)) ▸ (by simp_all [wfDie, wfCore, wfCtl]),
    fun c e => (Option.some.inj (show some core = some c from e)) ▸ (by simp_all [wfDie, wfCore, wfCtl]),
    fun c e => (nomatch (show (none : Option Nat) = some c from e))⟩
theorem Placed.selUniq (die : Nat) (core : Nat) (operand : Nat) : Placed.Statement (.selUniq die core operand) := fun h => by
  have h : (wfDie die && wfCore core && decide (operand < 2 ^ 48)) = true := h
  exact ⟨fun c e => (Option.some.inj (show some die = some c from e)) ▸ (by simp_all [wfDie, wfCore, wfCtl]),
    fun c e => (Option.some.inj (show some core = some c from e)) ▸ (by simp_all [wfDie, wfCore, wfCtl]),
    fun c e => (nomatch (show (none : Option Nat) = some c from e))⟩
theorem Placed.selMerge (die : Nat) (core : Nat) (operand : Nat) : Placed.Statement (.selMerge die core operand) := fun h => by
  have h : (wfDie die && wfCore core && decide (operand < 2 ^ 48)) = true := h
  exact ⟨fun c e => (Option.some.inj (show some die = some c from e)) ▸ (by simp_all [wfDie, wfCore, wfCtl]),
    fun c e => (Option.some.inj (show some core = some c from e)) ▸ (by simp_all [wfDie, wfCore, wfCtl]),
    fun c e => (nomatch (show (none : Option Nat) = some c from e))⟩
theorem Placed.frnOpen (die : Nat) (core : Nat) (operand : Nat) : Placed.Statement (.frnOpen die core operand) := fun h => by
  have h : (wfDie die && wfCore core && decide (operand < 2 ^ 48)) = true := h
  exact ⟨fun c e => (Option.some.inj (show some die = some c from e)) ▸ (by simp_all [wfDie, wfCore, wfCtl]),
    fun c e => (Option.some.inj (show some core = some c from e)) ▸ (by simp_all [wfDie, wfCore, wfCtl]),
    fun c e => (nomatch (show (none : Option Nat) = some c from e))⟩
theorem Placed.frnPushb (die : Nat) (core : Nat) (operand : Nat) (desc : UnitDesc) : Placed.Statement (.frnPushb die core operand desc) := fun h => by
  have h : (wfDie die && wfCore core && decide (operand < 2 ^ 48)) = true := h
  exact ⟨fun c e => (Option.some.inj (show some die = some c from e)) ▸ (by simp_all [wfDie, wfCore, wfCtl]),
    fun c e => (Option.some.inj (show some core = some c from e)) ▸ (by simp_all [wfDie, wfCore, wfCtl]),
    fun c e => (nomatch (show (none : Option Nat) = some c from e))⟩
theorem Placed.frnPopb (die : Nat) (core : Nat) (operand : Nat) (desc : UnitDesc) : Placed.Statement (.frnPopb die core operand desc) := fun h => by
  have h : (wfDie die && wfCore core && decide (operand < 2 ^ 48)) = true := h
  exact ⟨fun c e => (Option.some.inj (show some die = some c from e)) ▸ (by simp_all [wfDie, wfCore, wfCtl]),
    fun c e => (Option.some.inj (show some core = some c from e)) ▸ (by simp_all [wfDie, wfCore, wfCtl]),
    fun c e => (nomatch (show (none : Option Nat) = some c from e))⟩
theorem Placed.frnClose (die : Nat) (core : Nat) (operand : Nat) : Placed.Statement (.frnClose die core operand) := fun h => by
  have h : (wfDie die && wfCore core && decide (operand < 2 ^ 48)) = true := h
  exact ⟨fun c e => (Option.some.inj (show some die = some c from e)) ▸ (by simp_all [wfDie, wfCore, wfCtl]),
    fun c e => (Option.some.inj (show some core = some c from e)) ▸ (by simp_all [wfDie, wfCore, wfCtl]),
    fun c e => (nomatch (show (none : Option Nat) = some c from e))⟩
theorem Placed.frontierRefill (die : Nat) (core : Nat) (queue : Nat) : Placed.Statement (.frontierRefill die core queue) := fun h => by
  have h : (wfDie die && wfCore core && decide (queue < 1024)) = true := h
  exact ⟨fun c e => (Option.some.inj (show some die = some c from e)) ▸ (by simp_all [wfDie, wfCore, wfCtl]),
    fun c e => (Option.some.inj (show some core = some c from e)) ▸ (by simp_all [wfDie, wfCore, wfCtl]),
    fun c e => (nomatch (show (none : Option Nat) = some c from e))⟩
theorem Placed.dmaIn (die : Nat) (operand : Nat) : Placed.Statement (.dmaIn die operand) := fun h => by
  have h : (wfDie die && decide (operand < 2 ^ 48)) = true := h
  exact ⟨fun c e => (Option.some.inj (show some die = some c from e)) ▸ (by simp_all [wfDie, wfCore, wfCtl]),
    fun c e => (nomatch (show (none : Option Nat) = some c from e)),
    fun c e => (nomatch (show (none : Option Nat) = some c from e))⟩
theorem Placed.dmaOut (die : Nat) (operand : Nat) : Placed.Statement (.dmaOut die operand) := fun h => by
  have h : (wfDie die && decide (operand < 2 ^ 48)) = true := h
  exact ⟨fun c e => (Option.some.inj (show some die = some c from e)) ▸ (by simp_all [wfDie, wfCore, wfCtl]),
    fun c e => (nomatch (show (none : Option Nat) = some c from e)),
    fun c e => (nomatch (show (none : Option Nat) = some c from e))⟩
theorem Placed.dmaCtrl (die : Nat) (operand : Nat) : Placed.Statement (.dmaCtrl die operand) := fun h => by
  have h : (wfDie die && decide (operand < 2 ^ 48)) = true := h
  exact ⟨fun c e => (Option.some.inj (show some die = some c from e)) ▸ (by simp_all [wfDie, wfCore, wfCtl]),
    fun c e => (nomatch (show (none : Option Nat) = some c from e)),
    fun c e => (nomatch (show (none : Option Nat) = some c from e))⟩
theorem Placed.dmaLink (die : Nat) (operand : Nat) : Placed.Statement (.dmaLink die operand) := fun h => by
  have h : (wfDie die && decide (operand < 2 ^ 48)) = true := h
  exact ⟨fun c e => (Option.some.inj (show some die = some c from e)) ▸ (by simp_all [wfDie, wfCore, wfCtl]),
    fun c e => (nomatch (show (none : Option Nat) = some c from e)),
    fun c e => (nomatch (show (none : Option Nat) = some c from e))⟩
theorem Placed.barArm (die : Nat) (operand : Nat) (cyc : Nat) : Placed.Statement (.barArm die operand cyc) := fun h => by
  have h : (wfDie die && decide (operand < 2 ^ 48) && decide (cyc < 2 ^ 18)) = true := h
  exact ⟨fun c e => (Option.some.inj (show some die = some c from e)) ▸ (by simp_all [wfDie, wfCore, wfCtl]),
    fun c e => (nomatch (show (none : Option Nat) = some c from e)),
    fun c e => (nomatch (show (none : Option Nat) = some c from e))⟩
theorem Placed.route (die : Nat) (unit : Nat) (operand : Nat) : Placed.Statement (.route die unit operand) := fun h => by
  have h : (wfDie die && decide (unit < 256) && decide (operand < 2 ^ 48)) = true := h
  exact ⟨fun c e => (Option.some.inj (show some die = some c from e)) ▸ (by simp_all [wfDie, wfCore, wfCtl]),
    fun c e => (nomatch (show (none : Option Nat) = some c from e)),
    fun c e => (nomatch (show (none : Option Nat) = some c from e))⟩
theorem Placed.signal (die : Nat) (unit : Nat) (operand : Nat) (cyc : Nat) : Placed.Statement (.signal die unit operand cyc) := fun h => by
  have h : (wfDie die && decide (unit < 256) && decide (operand < 2 ^ 48) && decide (cyc < 2 ^ 18)) = true := h
  exact ⟨fun c e => (Option.some.inj (show some die = some c from e)) ▸ (by simp_all [wfDie, wfCore, wfCtl]),
    fun c e => (nomatch (show (none : Option Nat) = some c from e)),
    fun c e => (nomatch (show (none : Option Nat) = some c from e))⟩
theorem Placed.grant (die : Nat) (unit : Nat) (operand : Nat) (cyc : Nat) : Placed.Statement (.grant die unit operand cyc) := fun h => by
  have h : (wfDie die && decide (unit < 256) && decide (operand < 2 ^ 48) && decide (cyc < 2 ^ 18)) = true := h
  exact ⟨fun c e => (Option.some.inj (show some die = some c from e)) ▸ (by simp_all [wfDie, wfCore, wfCtl]),
    fun c e => (nomatch (show (none : Option Nat) = some c from e)),
    fun c e => (nomatch (show (none : Option Nat) = some c from e))⟩
theorem Placed.barWait (die : Nat) (unit : Nat) (operand : Nat) (cyc : Nat) : Placed.Statement (.barWait die unit operand cyc) := fun h => by
  have h : (wfDie die && decide (unit < 256) && decide (operand < 2 ^ 48) && decide (cyc < 2 ^ 18)) = true := h
  exact ⟨fun c e => (Option.some.inj (show some die = some c from e)) ▸ (by simp_all [wfDie, wfCore, wfCtl]),
    fun c e => (nomatch (show (none : Option Nat) = some c from e)),
    fun c e => (nomatch (show (none : Option Nat) = some c from e))⟩
theorem Placed.unitNop (die : Nat) (unit : Nat) (operand : Nat) : Placed.Statement (.unitNop die unit operand) := fun h => by
  have h : (wfDie die && decide (unit < 256) && decide (operand < 2 ^ 48)) = true := h
  exact ⟨fun c e => (Option.some.inj (show some die = some c from e)) ▸ (by simp_all [wfDie, wfCore, wfCtl]),
    fun c e => (nomatch (show (none : Option Nat) = some c from e)),
    fun c e => (nomatch (show (none : Option Nat) = some c from e))⟩
theorem Placed.barrierRelease (die : Nat) (ctx : Nat) (cyc : Nat) : Placed.Statement (.barrierRelease die ctx cyc) := fun h => by
  have h : (wfDie die && decide (ctx < 8) && decide (cyc < 2 ^ 18)) = true := h
  exact ⟨fun c e => (Option.some.inj (show some die = some c from e)) ▸ (by simp_all [wfDie, wfCore, wfCtl]),
    fun c e => (nomatch (show (none : Option Nat) = some c from e)),
    fun c e => (nomatch (show (none : Option Nat) = some c from e))⟩
theorem Placed.bankOwnerStage (die : Nat) (bank : Nat) (v : Nat) : Placed.Statement (.bankOwnerStage die bank v) := fun h => by
  have h : (wfDie die && decide (bank < 16) && wfWord v) = true := h
  exact ⟨fun c e => (Option.some.inj (show some die = some c from e)) ▸ (by simp_all [wfDie, wfCore, wfCtl]),
    fun c e => (Option.some.inj (show some bank = some c from e)) ▸ (by simp_all [wfDie, wfCore, wfCtl]),
    fun c e => (nomatch (show (none : Option Nat) = some c from e))⟩
theorem Placed.bankTestRegion (die : Nat) (bank : Nat) (fail : Bool) : Placed.Statement (.bankTestRegion die bank fail) := fun h => by
  have h : (wfDie die && decide (bank < 16)) = true := h
  exact ⟨fun c e => (Option.some.inj (show some die = some c from e)) ▸ (by simp_all [wfDie, wfCore, wfCtl]),
    fun c e => (Option.some.inj (show some bank = some c from e)) ▸ (by simp_all [wfDie, wfCore, wfCtl]),
    fun c e => (nomatch (show (none : Option Nat) = some c from e))⟩
theorem Placed.mcopy (die : Nat) (core : Nat) (gd : Nat) (gs : Nat) (gn : Nat) (stop : Option Nat) (ce : Nat) (ue : Option Nat) : Placed.Statement (.mcopy die core gd gs gn stop ce ue) := fun h => by
  have h : (wfDie die && wfCtl core && decide (gd < 32) && decide (gs < 32) && decide (gn < 32)) = true := h
  exact ⟨fun c e => (Option.some.inj (show some die = some c from e)) ▸ (by simp_all [wfDie, wfCore, wfCtl]),
    fun c e => (nomatch (show (none : Option Nat) = some c from e)),
    fun c e => (Option.some.inj (show some core = some c from e)) ▸ (by simp_all [wfDie, wfCore, wfCtl])⟩
theorem Placed.mfill (die : Nat) (core : Nat) (gd : Nat) (gv : Nat) (gn : Nat) (stop : Option Nat) (ce : Nat) (ue : Option Nat) : Placed.Statement (.mfill die core gd gv gn stop ce ue) := fun h => by
  have h : (wfDie die && wfCtl core && decide (gd < 32) && decide (gv < 32) && decide (gn < 32)) = true := h
  exact ⟨fun c e => (Option.some.inj (show some die = some c from e)) ▸ (by simp_all [wfDie, wfCore, wfCtl]),
    fun c e => (nomatch (show (none : Option Nat) = some c from e)),
    fun c e => (Option.some.inj (show some core = some c from e)) ▸ (by simp_all [wfDie, wfCore, wfCtl])⟩
theorem Placed.qdrain (die : Nat) (core : Nat) (gd : Nat) (gq : Nat) (gn : Nat) (stop : Option Nat) (ce : Nat) (ue : Option Nat) : Placed.Statement (.qdrain die core gd gq gn stop ce ue) := fun h => by
  have h : (wfDie die && wfCtl core && decide (gd < 32) && decide (gq < 32) && decide (gn < 32)) = true := h
  exact ⟨fun c e => (Option.some.inj (show some die = some c from e)) ▸ (by simp_all [wfDie, wfCore, wfCtl]),
    fun c e => (nomatch (show (none : Option Nat) = some c from e)),
    fun c e => (Option.some.inj (show some core = some c from e)) ▸ (by simp_all [wfDie, wfCore, wfCtl])⟩
theorem Placed.crcb32 (die : Nat) (core : Nat) (gc : Nat) (gs : Nat) (gn : Nat) (stop : Option Nat) (ce : Nat) (ue : Option Nat) : Placed.Statement (.crcb32 die core gc gs gn stop ce ue) := fun h => by
  have h : (wfDie die && wfCtl core && decide (gc < 32) && decide (gs < 32) && decide (gn < 32)) = true := h
  exact ⟨fun c e => (Option.some.inj (show some die = some c from e)) ▸ (by simp_all [wfDie, wfCore, wfCtl]),
    fun c e => (nomatch (show (none : Option Nat) = some c from e)),
    fun c e => (Option.some.inj (show some core = some c from e)) ▸ (by simp_all [wfDie, wfCore, wfCtl])⟩
theorem Placed.crcb64 (die : Nat) (core : Nat) (gc : Nat) (gs : Nat) (gn : Nat) (stop : Option Nat) (ce : Nat) (ue : Option Nat) : Placed.Statement (.crcb64 die core gc gs gn stop ce ue) := fun h => by
  have h : (wfDie die && wfCtl core && decide (gc < 31) && decide (gs < 32) && decide (gn < 32)) = true := h
  exact ⟨fun c e => (Option.some.inj (show some die = some c from e)) ▸ (by simp_all [wfDie, wfCore, wfCtl]),
    fun c e => (nomatch (show (none : Option Nat) = some c from e)),
    fun c e => (Option.some.inj (show some core = some c from e)) ▸ (by simp_all [wfDie, wfCore, wfCtl])⟩
theorem Placed.interruptTake (die : Nat) (core : Nat) (nmi : Bool) (latency : Nat) : Placed.Statement (.interruptTake die core nmi latency) := fun h => by
  have h : (wfDie die && wfCtl core && decide (latency ≤ 840)) = true := h
  exact ⟨fun c e => (Option.some.inj (show some die = some c from e)) ▸ (by simp_all [wfDie, wfCore, wfCtl]),
    fun c e => (nomatch (show (none : Option Nat) = some c from e)),
    fun c e => (Option.some.inj (show some core = some c from e)) ▸ (by simp_all [wfDie, wfCore, wfCtl])⟩
theorem Placed.tspawn (die : Nat) (core : Nat) (rd : Nat) (level : Nat) (entry : Nat) (arg : Nat) (t : Nat) : Placed.Statement (.tspawn die core rd level entry arg t) := fun h => by
  have h : (wfDie die && wfCtl core && decide (rd < 32) && decide (level < 32) && decide (entry < 2 ^ 32) && decide (arg < 2 ^ 32) && decide (t < 2 ^ 64)) = true := h
  exact ⟨fun c e => (Option.some.inj (show some die = some c from e)) ▸ (by simp_all [wfDie, wfCore, wfCtl]),
    fun c e => (nomatch (show (none : Option Nat) = some c from e)),
    fun c e => (Option.some.inj (show some core = some c from e)) ▸ (by simp_all [wfDie, wfCore, wfCtl])⟩
theorem Placed.twait (die : Nat) (core : Nat) (rd : Nat) (mask : Nat) (modeAnd : Bool) (expiry : Option Nat) : Placed.Statement (.twait die core rd mask modeAnd expiry) := fun h => by
  have h : (wfDie die && wfCtl core && decide (rd < 32) && decide (mask < 2 ^ 32) && wfOpt (2 ^ 64) expiry) = true := h
  exact ⟨fun c e => (Option.some.inj (show some die = some c from e)) ▸ (by simp_all [wfDie, wfCore, wfCtl]),
    fun c e => (nomatch (show (none : Option Nat) = some c from e)),
    fun c e => (Option.some.inj (show some core = some c from e)) ▸ (by simp_all [wfDie, wfCore, wfCtl])⟩
theorem Placed.tdelay (die : Nat) (core : Nat) (expiry : Nat) : Placed.Statement (.tdelay die core expiry) := fun h => by
  have h : (wfDie die && wfCtl core && decide (expiry < 2 ^ 64)) = true := h
  exact ⟨fun c e => (Option.some.inj (show some die = some c from e)) ▸ (by simp_all [wfDie, wfCore, wfCtl]),
    fun c e => (nomatch (show (none : Option Nat) = some c from e)),
    fun c e => (Option.some.inj (show some core = some c from e)) ▸ (by simp_all [wfDie, wfCore, wfCtl])⟩
theorem Placed.tyield (die : Nat) (core : Nat) (t : Nat) : Placed.Statement (.tyield die core t) := fun h => by
  have h : (wfDie die && wfCtl core && decide (t < 2 ^ 64)) = true := h
  exact ⟨fun c e => (Option.some.inj (show some die = some c from e)) ▸ (by simp_all [wfDie, wfCore, wfCtl]),
    fun c e => (nomatch (show (none : Option Nat) = some c from e)),
    fun c e => (Option.some.inj (show some core = some c from e)) ▸ (by simp_all [wfDie, wfCore, wfCtl])⟩
theorem Placed.texit (die : Nat) (core : Nat) : Placed.Statement (.texit die core) := fun h => by
  have h : (wfDie die && wfCtl core) = true := h
  exact ⟨fun c e => (Option.some.inj (show some die = some c from e)) ▸ (by simp_all [wfDie, wfCore, wfCtl]),
    fun c e => (nomatch (show (none : Option Nat) = some c from e)),
    fun c e => (Option.some.inj (show some core = some c from e)) ▸ (by simp_all [wfDie, wfCore, wfCtl])⟩
theorem Placed.tsignal (die : Nat) (core : Nat) (slot : Nat) (flag : Nat) (t : Nat) : Placed.Statement (.tsignal die core slot flag t) := fun h => by
  have h : (wfDie die && wfCtl core && decide (slot < 256) && decide (flag < 32) && decide (t < 2 ^ 64)) = true := h
  exact ⟨fun c e => (Option.some.inj (show some die = some c from e)) ▸ (by simp_all [wfDie, wfCore, wfCtl]),
    fun c e => (nomatch (show (none : Option Nat) = some c from e)),
    fun c e => (Option.some.inj (show some core = some c from e)) ▸ (by simp_all [wfDie, wfCore, wfCtl])⟩
theorem Placed.hardwareEventFlag (die : Nat) (slot : Nat) (flag : Nat) (t : Nat) (queued : Option (Nat × Bytes)) : Placed.Statement (.hardwareEventFlag die slot flag t queued) := fun h => by
  have h : (wfDie die && decide (slot < 256) && decide (flag < 32) && decide (t < 2 ^ 64) && wfQueued queued) = true := h
  exact ⟨fun c e => (Option.some.inj (show some die = some c from e)) ▸ (by simp_all [wfDie, wfCore, wfCtl]),
    fun c e => (nomatch (show (none : Option Nat) = some c from e)),
    fun c e => (nomatch (show (none : Option Nat) = some c from e))⟩
theorem Placed.coreTake (die : Nat) (core : Nat) (t : Nat) : Placed.Statement (.coreTake die core t) := fun h => by
  have h : (wfDie die && wfCtl core && decide (t < 2 ^ 64)) = true := h
  exact ⟨fun c e => (Option.some.inj (show some die = some c from e)) ▸ (by simp_all [wfDie, wfCore, wfCtl]),
    fun c e => (nomatch (show (none : Option Nat) = some c from e)),
    fun c e => (Option.some.inj (show some core = some c from e)) ▸ (by simp_all [wfDie, wfCore, wfCtl])⟩
theorem Placed.delayExpiry (die : Nat) (tick : Nat) : Placed.Statement (.delayExpiry die tick) := fun h => by
  have h : (wfDie die && decide (tick < 2 ^ 64)) = true := h
  exact ⟨fun c e => (Option.some.inj (show some die = some c from e)) ▸ (by simp_all [wfDie, wfCore, wfCtl]),
    fun c e => (nomatch (show (none : Option Nat) = some c from e)),
    fun c e => (nomatch (show (none : Option Nat) = some c from e))⟩
theorem Placed.flowEnter (die : Nat) (core : Nat) (rd : Nat) (flow : Nat) : Placed.Statement (.flowEnter die core rd flow) := fun h => by
  have h : (wfDie die && wfCtl core && decide (rd < 32) && decide (flow < 16)) = true := h
  exact ⟨fun c e => (Option.some.inj (show some die = some c from e)) ▸ (by simp_all [wfDie, wfCore, wfCtl]),
    fun c e => (nomatch (show (none : Option Nat) = some c from e)),
    fun c e => (Option.some.inj (show some core = some c from e)) ▸ (by simp_all [wfDie, wfCore, wfCtl])⟩
theorem Placed.flowDone (die : Nat) (core : Nat) (flow : Nat) (ticket : Nat) (item : Nat) : Placed.Statement (.flowDone die core flow ticket item) := fun h => by
  have h : (wfDie die && wfCtl core && decide (flow < 16) && decide (ticket < 2 ^ 32) && decide (item < 2 ^ 64)) = true := h
  exact ⟨fun c e => (Option.some.inj (show some die = some c from e)) ▸ (by simp_all [wfDie, wfCore, wfCtl]),
    fun c e => (nomatch (show (none : Option Nat) = some c from e)),
    fun c e => (Option.some.inj (show some core = some c from e)) ▸ (by simp_all [wfDie, wfCore, wfCtl])⟩
theorem Placed.flowSkip (die : Nat) (core : Nat) (flow : Nat) (ticket : Nat) : Placed.Statement (.flowSkip die core flow ticket) := fun h => by
  have h : (wfDie die && wfCtl core && decide (flow < 16) && decide (ticket < 2 ^ 32)) = true := h
  exact ⟨fun c e => (Option.some.inj (show some die = some c from e)) ▸ (by simp_all [wfDie, wfCore, wfCtl]),
    fun c e => (nomatch (show (none : Option Nat) = some c from e)),
    fun c e => (Option.some.inj (show some core = some c from e)) ▸ (by simp_all [wfDie, wfCore, wfCtl])⟩
theorem Placed.stwt (die : Nat) (core : Nat) (addr : Nat) (v : Nat) : Placed.Statement (.stwt die core addr v) := fun h => by
  have h : (wfDie die && wfCtl core && wfWord addr && wfWord v) = true := h
  exact ⟨fun c e => (Option.some.inj (show some die = some c from e)) ▸ (by simp_all [wfDie, wfCore, wfCtl]),
    fun c e => (nomatch (show (none : Option Nat) = some c from e)),
    fun c e => (Option.some.inj (show some core = some c from e)) ▸ (by simp_all [wfDie, wfCore, wfCtl])⟩
theorem Placed.coherenceRequest (die : Nat) (core : Nat) (addr : Nat) (own : Bool) (victim : Option Nat) : Placed.Statement (.coherenceRequest die core addr own victim) := fun h => by
  have h : (wfDie die && wfCtl core && wfWord addr && wfOpt (2 ^ 32) victim) = true := h
  exact ⟨fun c e => (Option.some.inj (show some die = some c from e)) ▸ (by simp_all [wfDie, wfCore, wfCtl]),
    fun c e => (nomatch (show (none : Option Nat) = some c from e)),
    fun c e => (Option.some.inj (show some core = some c from e)) ▸ (by simp_all [wfDie, wfCore, wfCtl])⟩
theorem Placed.snoop (addr : Nat) : Placed.Statement (.snoop addr) := Placed.of_none rfl
theorem Placed.evictClean (die : Nat) (core : Nat) (addr : Nat) : Placed.Statement (.evictClean die core addr) := fun h => by
  have h : (wfDie die && wfCtl core && wfWord addr) = true := h
  exact ⟨fun c e => (Option.some.inj (show some die = some c from e)) ▸ (by simp_all [wfDie, wfCore, wfCtl]),
    fun c e => (nomatch (show (none : Option Nat) = some c from e)),
    fun c e => (Option.some.inj (show some core = some c from e)) ▸ (by simp_all [wfDie, wfCore, wfCtl])⟩
theorem Placed.evictDirty (die : Nat) (core : Nat) (addr : Nat) : Placed.Statement (.evictDirty die core addr) := fun h => by
  have h : (wfDie die && wfCtl core && wfWord addr) = true := h
  exact ⟨fun c e => (Option.some.inj (show some die = some c from e)) ▸ (by simp_all [wfDie, wfCore, wfCtl]),
    fun c e => (nomatch (show (none : Option Nat) = some c from e)),
    fun c e => (Option.some.inj (show some core = some c from e)) ▸ (by simp_all [wfDie, wfCore, wfCtl])⟩
theorem Placed.evictPending (die : Nat) (core : Nat) (addr : Nat) : Placed.Statement (.evictPending die core addr) := fun h => by
  have h : (wfDie die && wfCtl core && wfWord addr) = true := h
  exact ⟨fun c e => (Option.some.inj (show some die = some c from e)) ▸ (by simp_all [wfDie, wfCore, wfCtl]),
    fun c e => (nomatch (show (none : Option Nat) = some c from e)),
    fun c e => (Option.some.inj (show some core = some c from e)) ▸ (by simp_all [wfDie, wfCore, wfCtl])⟩
theorem Placed.evictAck (die : Nat) (core : Nat) (addr : Nat) : Placed.Statement (.evictAck die core addr) := fun h => by
  have h : (wfDie die && wfCtl core && wfWord addr) = true := h
  exact ⟨fun c e => (Option.some.inj (show some die = some c from e)) ▸ (by simp_all [wfDie, wfCore, wfCtl]),
    fun c e => (nomatch (show (none : Option Nat) = some c from e)),
    fun c e => (Option.some.inj (show some core = some c from e)) ▸ (by simp_all [wfDie, wfCore, wfCtl])⟩
theorem Placed.wardenMessage (m : Option WMsg) (t : Nat) : Placed.Statement (.wardenMessage m t) := Placed.of_none rfl
theorem Placed.quietExpiry (source : Nat) (die : Nat) (core : Nat) (t : Nat) : Placed.Statement (.quietExpiry source die core t) := Placed.of_none rfl
theorem Placed.wdnHeartbeatMiss (die : Nat) (from_ : Nat) (t : Nat) : Placed.Statement (.wdnHeartbeatMiss die from_ t) := Placed.of_none rfl
theorem Placed.wdnCfgCheck (t : Nat) : Placed.Statement (.wdnCfgCheck t) := Placed.of_none rfl
theorem Placed.wdnLock : Placed.Statement .wdnLock := Placed.of_none rfl
theorem Placed.wdnAck (v : Nat) (t : Nat) : Placed.Statement (.wdnAck v t) := Placed.of_none rfl
theorem Placed.wdnAckAll (t : Nat) : Placed.Statement (.wdnAckAll t) := Placed.of_none rfl
theorem Placed.wdnUnlatch (source : Nat) (t : Nat) : Placed.Statement (.wdnUnlatch source t) := Placed.of_none rfl
theorem Placed.wdnInject (v : Nat) (t : Nat) : Placed.Statement (.wdnInject v t) := Placed.of_none rfl
theorem Placed.wdnSafeClr : Placed.Statement .wdnSafeClr := Placed.of_none rfl
theorem Placed.safeStateExit : Placed.Statement .safeStateExit := Placed.of_none rfl
theorem Placed.blockReset (die : Nat) (origin : Nat) : Placed.Statement (.blockReset die origin) := fun h => by
  have h : (wfDie die && decide (origin < 256)) = true := h
  exact ⟨fun c e => (Option.some.inj (show some die = some c from e)) ▸ (by simp_all [wfDie, wfCore, wfCtl]),
    fun c e => (nomatch (show (none : Option Nat) = some c from e)),
    fun c e => (nomatch (show (none : Option Nat) = some c from e))⟩
theorem Placed.safeHeartbeat (turn : Nat) : Placed.Statement (.safeHeartbeat turn) := Placed.of_none rfl
theorem Placed.recMsg0Read : Placed.Statement .recMsg0Read := Placed.of_none rfl
theorem Placed.twinLinkFrame (gen : Nat) (seq : Nat) (crcOk : Bool) (msg : TwinMsg) (t : Nat) : Placed.Statement (.twinLinkFrame gen seq crcOk msg t) := Placed.of_none rfl
theorem Placed.twinIdleTimer : Placed.Statement .twinIdleTimer := Placed.of_none rfl
theorem Placed.twinLinkLost (t : Nat) : Placed.Statement (.twinLinkLost t) := Placed.of_none rfl
theorem Placed.twinDownIn (low : Bool) (t : Nat) : Placed.Statement (.twinDownIn low t) := Placed.of_none rfl
theorem Placed.handover : Placed.Statement .handover := Placed.of_none rfl
theorem Placed.twinLeave : Placed.Statement .twinLeave := Placed.of_none rfl
theorem Placed.twinLedgerEntry (turn : Nat) (e : Entry) : Placed.Statement (.twinLedgerEntry turn e) := Placed.of_none rfl
theorem Placed.twinSeal (turn : Nat) (digest : Nat) : Placed.Statement (.twinSeal turn digest) := Placed.of_none rfl
theorem Placed.twinDigestList (turn : Nat) (items : List (Nat × Nat × Nat)) : Placed.Statement (.twinDigestList turn items) := Placed.of_none rfl
theorem Placed.digestLate (turn : Nat) : Placed.Statement (.digestLate turn) := Placed.of_none rfl
theorem Placed.heldFrameExpiry (turn : Nat) : Placed.Statement (.heldFrameExpiry turn) := Placed.of_none rfl
theorem Placed.arbitrationTimeout : Placed.Statement .arbitrationTimeout := Placed.of_none rfl
theorem Placed.twnWitAns (v : Nat) (t : Nat) : Placed.Statement (.twnWitAns v t) := Placed.of_none rfl
theorem Placed.tlRecordEntry (payload : Bytes) : Placed.Statement (.tlRecordEntry payload) := Placed.of_none rfl
theorem Placed.attachJoinTurn : Placed.Statement .attachJoinTurn := Placed.of_none rfl
theorem Placed.attachStateDigest (theirs : Nat) (t : Nat) : Placed.Statement (.attachStateDigest theirs t) := Placed.of_none rfl
theorem Placed.dieMessagesResume (die : Nat) : Placed.Statement (.dieMessagesResume die) := Placed.of_none rfl
theorem Placed.dieBistEnd (die : Nat) (ok : Bool) (coresFail : Nat) : Placed.Statement (.dieBistEnd die ok coresFail) := Placed.of_none rfl
theorem Placed.dieCopyCurrent (die : Nat) : Placed.Statement (.dieCopyCurrent die) := Placed.of_none rfl
theorem Placed.hello (f : FabFrame) (t : Nat) : Placed.Statement (.hello f t) := Placed.of_none rfl
theorem Placed.helloTimer : Placed.Statement .helloTimer := Placed.of_none rfl
theorem Placed.assign (f : FabFrame) (t : Nat) : Placed.Statement (.assign f t) := Placed.of_none rfl
theorem Placed.assignTimer : Placed.Statement .assignTimer := Placed.of_none rfl
theorem Placed.data (f : FabFrame) (t : Nat) : Placed.Statement (.data f t) := Placed.of_none rfl
theorem Placed.ack (f : FabFrame) (t : Nat) : Placed.Statement (.ack f t) := Placed.of_none rfl
theorem Placed.dataResendTimeout (peer : Nat) (chan : Nat) : Placed.Statement (.dataResendTimeout peer chan) := Placed.of_none rfl
theorem Placed.heartbeat (f : FabFrame) (t : Nat) : Placed.Statement (.heartbeat f t) := Placed.of_none rfl
theorem Placed.fabricHeartbeatSend : Placed.Statement .fabricHeartbeatSend := Placed.of_none rfl
theorem Placed.leave (f : FabFrame) : Placed.Statement (.leave f) := Placed.of_none rfl
theorem Placed.peerLost (peer : Nat) : Placed.Statement (.peerLost peer) := Placed.of_none rfl
theorem Placed.powerOn : Placed.Statement .powerOn := Placed.of_none rfl
theorem Placed.resetNLow (us : Nat) : Placed.Statement (.resetNLow us) := Placed.of_none rfl
theorem Placed.packageReset : Placed.Statement .packageReset := Placed.of_none rfl
theorem Placed.boot (cfgOk : Bool) (imgOk : Bool) : Placed.Statement (.boot cfgOk imgOk) := Placed.of_none rfl
theorem Placed.bootReady (failDies : Nat) (failCores : List (Nat × Nat)) : Placed.Statement (.bootReady failDies failCores) := Placed.of_none rfl
theorem Placed.bootFailure (stage : Nat) (dies : Nat) (cores : List (Nat × Nat)) : Placed.Statement (.bootFailure stage dies cores) := Placed.of_none rfl
theorem Placed.thermalTrip (die : Nat) (temp : Int) : Placed.Statement (.thermalTrip die temp) := fun h => by
  have h : (wfDie die) = true := h
  exact ⟨fun c e => (Option.some.inj (show some die = some c from e)) ▸ (by simp_all [wfDie, wfCore, wfCtl]),
    fun c e => (nomatch (show (none : Option Nat) = some c from e)),
    fun c e => (nomatch (show (none : Option Nat) = some c from e))⟩
theorem Placed.tapReset : Placed.Statement .tapReset := Placed.of_none rfl
theorem Placed.bypass (tdi : Nat) (bits : Nat) : Placed.Statement (.bypass tdi bits) := Placed.of_none rfl
theorem Placed.idcode : Placed.Statement .idcode := Placed.of_none rfl
theorem Placed.samplePreload (pins : Nat) (tdi : Nat) (bits : Nat) : Placed.Statement (.samplePreload pins tdi bits) := Placed.of_none rfl
theorem Placed.extest (pins : Nat) (tdi : Nat) (bits : Nat) : Placed.Statement (.extest pins tdi bits) := Placed.of_none rfl
theorem Placed.clamp : Placed.Statement .clamp := Placed.of_none rfl
theorem Placed.highz : Placed.Statement .highz := Placed.of_none rfl
theorem Placed.spiAccess (addr : Nat) (data : Bytes) : Placed.Statement (.spiAccess addr data) := Placed.of_none rfl
theorem Placed.smbId : Placed.Statement .smbId := Placed.of_none rfl
theorem Placed.smbStepping : Placed.Statement .smbStepping := Placed.of_none rfl
theorem Placed.smbStage : Placed.Statement .smbStage := Placed.of_none rfl
theorem Placed.smbStatus : Placed.Statement .smbStatus := Placed.of_none rfl
theorem Placed.smbDieTemp (die : Nat) : Placed.Statement (.smbDieTemp die) := Placed.of_none rfl
theorem Placed.smbHottestTemp : Placed.Statement .smbHottestTemp := Placed.of_none rfl
theorem Placed.smbRailVoltage (rail : Nat) : Placed.Statement (.smbRailVoltage rail) := Placed.of_none rfl
theorem Placed.smbInputPower : Placed.Statement .smbInputPower := Placed.of_none rfl
theorem Placed.smbSerial : Placed.Statement .smbSerial := Placed.of_none rfl
theorem Placed.smbSafeCnt : Placed.Statement .smbSafeCnt := Placed.of_none rfl
theorem Placed.smbWrite (cmd : Nat) (data : Bytes) : Placed.Statement (.smbWrite cmd data) := Placed.of_none rfl
theorem Placed.help : Placed.Statement .help := Placed.of_none rfl
theorem Placed.ver : Placed.Statement .ver := Placed.of_none rfl
theorem Placed.monStage : Placed.Statement .monStage := Placed.of_none rfl
theorem Placed.stat : Placed.Statement .stat := Placed.of_none rfl
theorem Placed.temp : Placed.Statement .temp := Placed.of_none rfl
theorem Placed.rd (addr : Nat) (n : Nat) : Placed.Statement (.rd addr n) := Placed.of_none rfl
theorem Placed.monWdn : Placed.Statement .monWdn := Placed.of_none rfl
theorem Placed.ring (n : Nat) : Placed.Statement (.ring n) := Placed.of_none rfl
theorem Placed.unlock (t : Nat) : Placed.Statement (.unlock t) := Placed.of_none rfl
theorem Placed.resp (idx : Nat) (data : Bytes) (t : Nat) : Placed.Statement (.resp idx data t) := Placed.of_none rfl
theorem Placed.lock : Placed.Statement .lock := Placed.of_none rfl
theorem Placed.wr (addr : Nat) (v : Nat) (t : Nat) : Placed.Statement (.wr addr v t) := Placed.of_none rfl
theorem Placed.monAck (source : Option Nat) (unlatch : Bool) (t : Nat) : Placed.Statement (.monAck source unlatch t) := Placed.of_none rfl
theorem Placed.monLongLine : Placed.Statement .monLongLine := Placed.of_none rfl
theorem Placed.monInactivity : Placed.Statement .monInactivity := Placed.of_none rfl
theorem Placed.monLockoutExpiry : Placed.Statement .monLockoutExpiry := Placed.of_none rfl
theorem Placed.regPairLowRead (who : Who) (addr : Nat) : Placed.Statement (.regPairLowRead who addr) := Placed.of_none rfl
theorem Placed.regPairLowWrite (who : Who) (addr : Nat) (v : Nat) : Placed.Statement (.regPairLowWrite who addr v) := Placed.of_none rfl
theorem Placed.regPairHighWrite (who : Who) (addr : Nat) (v : Nat) (t : Nat) : Placed.Statement (.regPairHighWrite who addr v t) := Placed.of_none rfl
theorem Placed.rcRead (who : Who) (addr : Nat) : Placed.Statement (.rcRead who addr) := Placed.of_none rfl
theorem Placed.w1cWrite (who : Who) (addr : Nat) (v : Nat) : Placed.Statement (.w1cWrite who addr v) := Placed.of_none rfl
theorem Placed.counterClear (who : Who) (addr : Nat) : Placed.Statement (.counterClear who addr) := Placed.of_none rfl
theorem Placed.registerWrite (who : Who) (addr : Nat) (v : Nat) (t : Nat) : Placed.Statement (.registerWrite who addr v t) := Placed.of_none rfl
theorem Placed.loadImageEnd : Placed.Statement .loadImageEnd := Placed.of_none rfl
theorem Placed.cfgStageEnd : Placed.Statement .cfgStageEnd := Placed.of_none rfl
theorem Placed.snapshotEnd : Placed.Statement .snapshotEnd := Placed.of_none rfl
theorem Placed.fieldPortLink (port : Nat) (up : Bool) : Placed.Statement (.fieldPortLink port up) := Placed.of_none rfl
theorem Placed.fabricPortLink (port : Nat) (up : Bool) : Placed.Statement (.fabricPortLink port up) := Placed.of_none rfl
theorem Placed.pcieLinkUp (speed : Nat) (width : Nat) (vfs : Nat) : Placed.Statement (.pcieLinkUp speed width vfs) := Placed.of_none rfl
theorem Placed.pwrGoodRise : Placed.Statement .pwrGoodRise := Placed.of_none rfl
theorem Placed.twinDownInRelease : Placed.Statement .twinDownInRelease := Placed.of_none rfl
theorem Placed.powerLoss : Placed.Statement .powerLoss := Placed.of_none rfl

end Sys2Proof.Laws
end

