-- ==== Sys2Proof/Laws/State.lean ====
section
/-! SUPPORT. One lemma per field and per named update of the state and of the device: a claim about a field never unfolds a record update. -/
namespace Sys2Proof.Machine

@[simp] theorem State.set_fuses_fuses (s : State) (x : Fuses) : ({ s with fuses := x } : State).fuses = x := rfl
@[simp] theorem State.set_fuses_mem (s : State) (x : Fuses) : ({ s with fuses := x } : State).mem = s.mem := rfl
@[simp] theorem State.set_fuses_dev (s : State) (x : Fuses) : ({ s with fuses := x } : State).dev = s.dev := rfl
@[simp] theorem State.set_fuses_pending (s : State) (x : Fuses) : ({ s with fuses := x } : State).pending = s.pending := rfl
@[simp] theorem State.set_mem_fuses (s : State) (x : Mem) : ({ s with mem := x } : State).fuses = s.fuses := rfl
@[simp] theorem State.set_mem_mem (s : State) (x : Mem) : ({ s with mem := x } : State).mem = x := rfl
@[simp] theorem State.set_mem_dev (s : State) (x : Mem) : ({ s with mem := x } : State).dev = s.dev := rfl
@[simp] theorem State.set_mem_pending (s : State) (x : Mem) : ({ s with mem := x } : State).pending = s.pending := rfl
@[simp] theorem State.set_dev_fuses (s : State) (x : Dev) : ({ s with dev := x } : State).fuses = s.fuses := rfl
@[simp] theorem State.set_dev_mem (s : State) (x : Dev) : ({ s with dev := x } : State).mem = s.mem := rfl
@[simp] theorem State.set_dev_dev (s : State) (x : Dev) : ({ s with dev := x } : State).dev = x := rfl
@[simp] theorem State.set_dev_pending (s : State) (x : Dev) : ({ s with dev := x } : State).pending = s.pending := rfl
@[simp] theorem State.set_pending_fuses (s : State) (x : List Instr) : ({ s with pending := x } : State).fuses = s.fuses := rfl
@[simp] theorem State.set_pending_mem (s : State) (x : List Instr) : ({ s with pending := x } : State).mem = s.mem := rfl
@[simp] theorem State.set_pending_dev (s : State) (x : List Instr) : ({ s with pending := x } : State).dev = s.dev := rfl
@[simp] theorem State.set_pending_pending (s : State) (x : List Instr) : ({ s with pending := x } : State).pending = x := rfl

@[simp] theorem rset_latch (d : Dev) (o v : Nat) : (rset d o v).latch = d.latch := rfl
@[simp] theorem rset_staged (d : Dev) (o v : Nat) : (rset d o v).staged = d.staged := rfl
@[simp] theorem rset_time (d : Dev) (o v : Nat) : (rset d o v).time = d.time := rfl
@[simp] theorem rset_pkg (d : Dev) (o v : Nat) : (rset d o v).pkg = d.pkg := rfl
@[simp] theorem rset_ldg (d : Dev) (o v : Nat) : (rset d o v).ldg = d.ldg := rfl
@[simp] theorem rset_host (d : Dev) (o v : Nat) : (rset d o v).host = d.host := rfl
@[simp] theorem rset_pld (d : Dev) (o v : Nat) : (rset d o v).pld = d.pld := rfl
@[simp] theorem rset_world (d : Dev) (o v : Nat) : (rset d o v).world = d.world := rfl
@[simp] theorem rset_q (d : Dev) (o v : Nat) : (rset d o v).q = d.q := rfl
@[simp] theorem rset_eng (d : Dev) (o v : Nat) : (rset d o v).eng = d.eng := rfl
@[simp] theorem rset_ctc (d : Dev) (o v : Nat) : (rset d o v).ctc = d.ctc := rfl
@[simp] theorem rset_cal (d : Dev) (o v : Nat) : (rset d o v).cal = d.cal := rfl
@[simp] theorem rset_wdn (d : Dev) (o v : Nat) : (rset d o v).wdn = d.wdn := rfl
@[simp] theorem rset_twin (d : Dev) (o v : Nat) : (rset d o v).twin = d.twin := rfl
@[simp] theorem rset_fab (d : Dev) (o v : Nat) : (rset d o v).fab = d.fab := rfl
@[simp] theorem rset_pin (d : Dev) (o v : Nat) : (rset d o v).pin = d.pin := rfl
@[simp] theorem rset_mon (d : Dev) (o v : Nat) : (rset d o v).mon = d.mon := rfl
@[simp] theorem rset_img (d : Dev) (o v : Nat) : (rset d o v).img = d.img := rfl
@[simp] theorem rset_free (d : Dev) (o v : Nat) : (rset d o v).free = d.free := rfl
@[simp] theorem rset_out (d : Dev) (o v : Nat) : (rset d o v).out = d.out := rfl
@[simp] theorem rfield_latch (d : Dev) (o hi lo v : Nat) : (rfield d o hi lo v).latch = d.latch := rfl
@[simp] theorem rfield_staged (d : Dev) (o hi lo v : Nat) : (rfield d o hi lo v).staged = d.staged := rfl
@[simp] theorem rfield_time (d : Dev) (o hi lo v : Nat) : (rfield d o hi lo v).time = d.time := rfl
@[simp] theorem rfield_pkg (d : Dev) (o hi lo v : Nat) : (rfield d o hi lo v).pkg = d.pkg := rfl
@[simp] theorem rfield_ldg (d : Dev) (o hi lo v : Nat) : (rfield d o hi lo v).ldg = d.ldg := rfl
@[simp] theorem rfield_host (d : Dev) (o hi lo v : Nat) : (rfield d o hi lo v).host = d.host := rfl
@[simp] theorem rfield_pld (d : Dev) (o hi lo v : Nat) : (rfield d o hi lo v).pld = d.pld := rfl
@[simp] theorem rfield_world (d : Dev) (o hi lo v : Nat) : (rfield d o hi lo v).world = d.world := rfl
@[simp] theorem rfield_q (d : Dev) (o hi lo v : Nat) : (rfield d o hi lo v).q = d.q := rfl
@[simp] theorem rfield_eng (d : Dev) (o hi lo v : Nat) : (rfield d o hi lo v).eng = d.eng := rfl
@[simp] theorem rfield_ctc (d : Dev) (o hi lo v : Nat) : (rfield d o hi lo v).ctc = d.ctc := rfl
@[simp] theorem rfield_cal (d : Dev) (o hi lo v : Nat) : (rfield d o hi lo v).cal = d.cal := rfl
@[simp] theorem rfield_wdn (d : Dev) (o hi lo v : Nat) : (rfield d o hi lo v).wdn = d.wdn := rfl
@[simp] theorem rfield_twin (d : Dev) (o hi lo v : Nat) : (rfield d o hi lo v).twin = d.twin := rfl
@[simp] theorem rfield_fab (d : Dev) (o hi lo v : Nat) : (rfield d o hi lo v).fab = d.fab := rfl
@[simp] theorem rfield_pin (d : Dev) (o hi lo v : Nat) : (rfield d o hi lo v).pin = d.pin := rfl
@[simp] theorem rfield_mon (d : Dev) (o hi lo v : Nat) : (rfield d o hi lo v).mon = d.mon := rfl
@[simp] theorem rfield_img (d : Dev) (o hi lo v : Nat) : (rfield d o hi lo v).img = d.img := rfl
@[simp] theorem rfield_free (d : Dev) (o hi lo v : Nat) : (rfield d o hi lo v).free = d.free := rfl
@[simp] theorem rfield_out (d : Dev) (o hi lo v : Nat) : (rfield d o hi lo v).out = d.out := rfl
@[simp] theorem stick_latch (d : Dev) (o m : Nat) : (stick d o m).latch = d.latch := rfl
@[simp] theorem stick_staged (d : Dev) (o m : Nat) : (stick d o m).staged = d.staged := rfl
@[simp] theorem stick_time (d : Dev) (o m : Nat) : (stick d o m).time = d.time := rfl
@[simp] theorem stick_pkg (d : Dev) (o m : Nat) : (stick d o m).pkg = d.pkg := rfl
@[simp] theorem stick_ldg (d : Dev) (o m : Nat) : (stick d o m).ldg = d.ldg := rfl
@[simp] theorem stick_host (d : Dev) (o m : Nat) : (stick d o m).host = d.host := rfl
@[simp] theorem stick_pld (d : Dev) (o m : Nat) : (stick d o m).pld = d.pld := rfl
@[simp] theorem stick_world (d : Dev) (o m : Nat) : (stick d o m).world = d.world := rfl
@[simp] theorem stick_q (d : Dev) (o m : Nat) : (stick d o m).q = d.q := rfl
@[simp] theorem stick_eng (d : Dev) (o m : Nat) : (stick d o m).eng = d.eng := rfl
@[simp] theorem stick_ctc (d : Dev) (o m : Nat) : (stick d o m).ctc = d.ctc := rfl
@[simp] theorem stick_cal (d : Dev) (o m : Nat) : (stick d o m).cal = d.cal := rfl
@[simp] theorem stick_wdn (d : Dev) (o m : Nat) : (stick d o m).wdn = d.wdn := rfl
@[simp] theorem stick_twin (d : Dev) (o m : Nat) : (stick d o m).twin = d.twin := rfl
@[simp] theorem stick_fab (d : Dev) (o m : Nat) : (stick d o m).fab = d.fab := rfl
@[simp] theorem stick_pin (d : Dev) (o m : Nat) : (stick d o m).pin = d.pin := rfl
@[simp] theorem stick_mon (d : Dev) (o m : Nat) : (stick d o m).mon = d.mon := rfl
@[simp] theorem stick_img (d : Dev) (o m : Nat) : (stick d o m).img = d.img := rfl
@[simp] theorem stick_free (d : Dev) (o m : Nat) : (stick d o m).free = d.free := rfl
@[simp] theorem stick_out (d : Dev) (o m : Nat) : (stick d o m).out = d.out := rfl
@[simp] theorem send_regs (d : Dev) (o : Out) : (send d o).regs = d.regs := rfl
@[simp] theorem send_latch (d : Dev) (o : Out) : (send d o).latch = d.latch := rfl
@[simp] theorem send_staged (d : Dev) (o : Out) : (send d o).staged = d.staged := rfl
@[simp] theorem send_time (d : Dev) (o : Out) : (send d o).time = d.time := rfl
@[simp] theorem send_pkg (d : Dev) (o : Out) : (send d o).pkg = d.pkg := rfl
@[simp] theorem send_ldg (d : Dev) (o : Out) : (send d o).ldg = d.ldg := rfl
@[simp] theorem send_host (d : Dev) (o : Out) : (send d o).host = d.host := rfl
@[simp] theorem send_pld (d : Dev) (o : Out) : (send d o).pld = d.pld := rfl
@[simp] theorem send_world (d : Dev) (o : Out) : (send d o).world = d.world := rfl
@[simp] theorem send_q (d : Dev) (o : Out) : (send d o).q = d.q := rfl
@[simp] theorem send_eng (d : Dev) (o : Out) : (send d o).eng = d.eng := rfl
@[simp] theorem send_ctc (d : Dev) (o : Out) : (send d o).ctc = d.ctc := rfl
@[simp] theorem send_cal (d : Dev) (o : Out) : (send d o).cal = d.cal := rfl
@[simp] theorem send_wdn (d : Dev) (o : Out) : (send d o).wdn = d.wdn := rfl
@[simp] theorem send_twin (d : Dev) (o : Out) : (send d o).twin = d.twin := rfl
@[simp] theorem send_fab (d : Dev) (o : Out) : (send d o).fab = d.fab := rfl
@[simp] theorem send_pin (d : Dev) (o : Out) : (send d o).pin = d.pin := rfl
@[simp] theorem send_mon (d : Dev) (o : Out) : (send d o).mon = d.mon := rfl
@[simp] theorem send_img (d : Dev) (o : Out) : (send d o).img = d.img := rfl
@[simp] theorem send_free (d : Dev) (o : Out) : (send d o).free = d.free := rfl
@[simp] theorem atTime_regs (d : Dev) (t : Nat) : (atTime d t).regs = d.regs := rfl
@[simp] theorem atTime_latch (d : Dev) (t : Nat) : (atTime d t).latch = d.latch := rfl
@[simp] theorem atTime_staged (d : Dev) (t : Nat) : (atTime d t).staged = d.staged := rfl
@[simp] theorem atTime_pkg (d : Dev) (t : Nat) : (atTime d t).pkg = d.pkg := rfl
@[simp] theorem atTime_ldg (d : Dev) (t : Nat) : (atTime d t).ldg = d.ldg := rfl
@[simp] theorem atTime_host (d : Dev) (t : Nat) : (atTime d t).host = d.host := rfl
@[simp] theorem atTime_pld (d : Dev) (t : Nat) : (atTime d t).pld = d.pld := rfl
@[simp] theorem atTime_world (d : Dev) (t : Nat) : (atTime d t).world = d.world := rfl
@[simp] theorem atTime_q (d : Dev) (t : Nat) : (atTime d t).q = d.q := rfl
@[simp] theorem atTime_eng (d : Dev) (t : Nat) : (atTime d t).eng = d.eng := rfl
@[simp] theorem atTime_ctc (d : Dev) (t : Nat) : (atTime d t).ctc = d.ctc := rfl
@[simp] theorem atTime_cal (d : Dev) (t : Nat) : (atTime d t).cal = d.cal := rfl
@[simp] theorem atTime_wdn (d : Dev) (t : Nat) : (atTime d t).wdn = d.wdn := rfl
@[simp] theorem atTime_twin (d : Dev) (t : Nat) : (atTime d t).twin = d.twin := rfl
@[simp] theorem atTime_fab (d : Dev) (t : Nat) : (atTime d t).fab = d.fab := rfl
@[simp] theorem atTime_pin (d : Dev) (t : Nat) : (atTime d t).pin = d.pin := rfl
@[simp] theorem atTime_mon (d : Dev) (t : Nat) : (atTime d t).mon = d.mon := rfl
@[simp] theorem atTime_img (d : Dev) (t : Nat) : (atTime d t).img = d.img := rfl
@[simp] theorem atTime_free (d : Dev) (t : Nat) : (atTime d t).free = d.free := rfl
@[simp] theorem atTime_out (d : Dev) (t : Nat) : (atTime d t).out = d.out := rfl
@[simp] theorem post_regs (d : Dev) (m : WMsg) : (post d m).regs = d.regs := rfl
@[simp] theorem post_latch (d : Dev) (m : WMsg) : (post d m).latch = d.latch := rfl
@[simp] theorem post_staged (d : Dev) (m : WMsg) : (post d m).staged = d.staged := rfl
@[simp] theorem post_time (d : Dev) (m : WMsg) : (post d m).time = d.time := rfl
@[simp] theorem post_pkg (d : Dev) (m : WMsg) : (post d m).pkg = d.pkg := rfl
@[simp] theorem post_ldg (d : Dev) (m : WMsg) : (post d m).ldg = d.ldg := rfl
@[simp] theorem post_host (d : Dev) (m : WMsg) : (post d m).host = d.host := rfl
@[simp] theorem post_pld (d : Dev) (m : WMsg) : (post d m).pld = d.pld := rfl
@[simp] theorem post_world (d : Dev) (m : WMsg) : (post d m).world = d.world := rfl
@[simp] theorem post_q (d : Dev) (m : WMsg) : (post d m).q = d.q := rfl
@[simp] theorem post_eng (d : Dev) (m : WMsg) : (post d m).eng = d.eng := rfl
@[simp] theorem post_ctc (d : Dev) (m : WMsg) : (post d m).ctc = d.ctc := rfl
@[simp] theorem post_cal (d : Dev) (m : WMsg) : (post d m).cal = d.cal := rfl
@[simp] theorem post_twin (d : Dev) (m : WMsg) : (post d m).twin = d.twin := rfl
@[simp] theorem post_fab (d : Dev) (m : WMsg) : (post d m).fab = d.fab := rfl
@[simp] theorem post_pin (d : Dev) (m : WMsg) : (post d m).pin = d.pin := rfl
@[simp] theorem post_mon (d : Dev) (m : WMsg) : (post d m).mon = d.mon := rfl
@[simp] theorem post_img (d : Dev) (m : WMsg) : (post d m).img = d.img := rfl
@[simp] theorem post_free (d : Dev) (m : WMsg) : (post d m).free = d.free := rfl
@[simp] theorem post_out (d : Dev) (m : WMsg) : (post d m).out = d.out := rfl
@[simp] theorem raise_regs (d : Dev) (src die origin detail : Nat) : (raise d src die origin detail).regs = d.regs := rfl
@[simp] theorem raise_latch (d : Dev) (src die origin detail : Nat) : (raise d src die origin detail).latch = d.latch := rfl
@[simp] theorem raise_staged (d : Dev) (src die origin detail : Nat) : (raise d src die origin detail).staged = d.staged := rfl
@[simp] theorem raise_time (d : Dev) (src die origin detail : Nat) : (raise d src die origin detail).time = d.time := rfl
@[simp] theorem raise_pkg (d : Dev) (src die origin detail : Nat) : (raise d src die origin detail).pkg = d.pkg := rfl
@[simp] theorem raise_ldg (d : Dev) (src die origin detail : Nat) : (raise d src die origin detail).ldg = d.ldg := rfl
@[simp] theorem raise_host (d : Dev) (src die origin detail : Nat) : (raise d src die origin detail).host = d.host := rfl
@[simp] theorem raise_pld (d : Dev) (src die origin detail : Nat) : (raise d src die origin detail).pld = d.pld := rfl
@[simp] theorem raise_world (d : Dev) (src die origin detail : Nat) : (raise d src die origin detail).world = d.world := rfl
@[simp] theorem raise_q (d : Dev) (src die origin detail : Nat) : (raise d src die origin detail).q = d.q := rfl
@[simp] theorem raise_eng (d : Dev) (src die origin detail : Nat) : (raise d src die origin detail).eng = d.eng := rfl
@[simp] theorem raise_ctc (d : Dev) (src die origin detail : Nat) : (raise d src die origin detail).ctc = d.ctc := rfl
@[simp] theorem raise_cal (d : Dev) (src die origin detail : Nat) : (raise d src die origin detail).cal = d.cal := rfl
@[simp] theorem raise_twin (d : Dev) (src die origin detail : Nat) : (raise d src die origin detail).twin = d.twin := rfl
@[simp] theorem raise_fab (d : Dev) (src die origin detail : Nat) : (raise d src die origin detail).fab = d.fab := rfl
@[simp] theorem raise_pin (d : Dev) (src die origin detail : Nat) : (raise d src die origin detail).pin = d.pin := rfl
@[simp] theorem raise_mon (d : Dev) (src die origin detail : Nat) : (raise d src die origin detail).mon = d.mon := rfl
@[simp] theorem raise_img (d : Dev) (src die origin detail : Nat) : (raise d src die origin detail).img = d.img := rfl
@[simp] theorem raise_free (d : Dev) (src die origin detail : Nat) : (raise d src die origin detail).free = d.free := rfl
@[simp] theorem raise_out (d : Dev) (src die origin detail : Nat) : (raise d src die origin detail).out = d.out := rfl
@[simp] theorem modPolder_regs (d : Dev) (p : Nat) (f : PolderRec → PolderRec) : (modPolder d p f).regs = d.regs := rfl
@[simp] theorem modPolder_latch (d : Dev) (p : Nat) (f : PolderRec → PolderRec) : (modPolder d p f).latch = d.latch := rfl
@[simp] theorem modPolder_staged (d : Dev) (p : Nat) (f : PolderRec → PolderRec) : (modPolder d p f).staged = d.staged := rfl
@[simp] theorem modPolder_time (d : Dev) (p : Nat) (f : PolderRec → PolderRec) : (modPolder d p f).time = d.time := rfl
@[simp] theorem modPolder_pkg (d : Dev) (p : Nat) (f : PolderRec → PolderRec) : (modPolder d p f).pkg = d.pkg := rfl
@[simp] theorem modPolder_ldg (d : Dev) (p : Nat) (f : PolderRec → PolderRec) : (modPolder d p f).ldg = d.ldg := rfl
@[simp] theorem modPolder_host (d : Dev) (p : Nat) (f : PolderRec → PolderRec) : (modPolder d p f).host = d.host := rfl
@[simp] theorem modPolder_world (d : Dev) (p : Nat) (f : PolderRec → PolderRec) : (modPolder d p f).world = d.world := rfl
@[simp] theorem modPolder_q (d : Dev) (p : Nat) (f : PolderRec → PolderRec) : (modPolder d p f).q = d.q := rfl
@[simp] theorem modPolder_eng (d : Dev) (p : Nat) (f : PolderRec → PolderRec) : (modPolder d p f).eng = d.eng := rfl
@[simp] theorem modPolder_ctc (d : Dev) (p : Nat) (f : PolderRec → PolderRec) : (modPolder d p f).ctc = d.ctc := rfl
@[simp] theorem modPolder_cal (d : Dev) (p : Nat) (f : PolderRec → PolderRec) : (modPolder d p f).cal = d.cal := rfl
@[simp] theorem modPolder_wdn (d : Dev) (p : Nat) (f : PolderRec → PolderRec) : (modPolder d p f).wdn = d.wdn := rfl
@[simp] theorem modPolder_twin (d : Dev) (p : Nat) (f : PolderRec → PolderRec) : (modPolder d p f).twin = d.twin := rfl
@[simp] theorem modPolder_fab (d : Dev) (p : Nat) (f : PolderRec → PolderRec) : (modPolder d p f).fab = d.fab := rfl
@[simp] theorem modPolder_pin (d : Dev) (p : Nat) (f : PolderRec → PolderRec) : (modPolder d p f).pin = d.pin := rfl
@[simp] theorem modPolder_mon (d : Dev) (p : Nat) (f : PolderRec → PolderRec) : (modPolder d p f).mon = d.mon := rfl
@[simp] theorem modPolder_img (d : Dev) (p : Nat) (f : PolderRec → PolderRec) : (modPolder d p f).img = d.img := rfl
@[simp] theorem modPolder_free (d : Dev) (p : Nat) (f : PolderRec → PolderRec) : (modPolder d p f).free = d.free := rfl
@[simp] theorem modPolder_out (d : Dev) (p : Nat) (f : PolderRec → PolderRec) : (modPolder d p f).out = d.out := rfl
@[simp] theorem dike_regs (d : Dev) (p : Nat) : (dike d p).regs = d.regs := rfl
@[simp] theorem dike_latch (d : Dev) (p : Nat) : (dike d p).latch = d.latch := rfl
@[simp] theorem dike_staged (d : Dev) (p : Nat) : (dike d p).staged = d.staged := rfl
@[simp] theorem dike_time (d : Dev) (p : Nat) : (dike d p).time = d.time := rfl
@[simp] theorem dike_pkg (d : Dev) (p : Nat) : (dike d p).pkg = d.pkg := rfl
@[simp] theorem dike_ldg (d : Dev) (p : Nat) : (dike d p).ldg = d.ldg := rfl
@[simp] theorem dike_host (d : Dev) (p : Nat) : (dike d p).host = d.host := rfl
@[simp] theorem dike_world (d : Dev) (p : Nat) : (dike d p).world = d.world := rfl
@[simp] theorem dike_q (d : Dev) (p : Nat) : (dike d p).q = d.q := rfl
@[simp] theorem dike_eng (d : Dev) (p : Nat) : (dike d p).eng = d.eng := rfl
@[simp] theorem dike_ctc (d : Dev) (p : Nat) : (dike d p).ctc = d.ctc := rfl
@[simp] theorem dike_cal (d : Dev) (p : Nat) : (dike d p).cal = d.cal := rfl
@[simp] theorem dike_wdn (d : Dev) (p : Nat) : (dike d p).wdn = d.wdn := rfl
@[simp] theorem dike_twin (d : Dev) (p : Nat) : (dike d p).twin = d.twin := rfl
@[simp] theorem dike_fab (d : Dev) (p : Nat) : (dike d p).fab = d.fab := rfl
@[simp] theorem dike_pin (d : Dev) (p : Nat) : (dike d p).pin = d.pin := rfl
@[simp] theorem dike_mon (d : Dev) (p : Nat) : (dike d p).mon = d.mon := rfl
@[simp] theorem dike_img (d : Dev) (p : Nat) : (dike d p).img = d.img := rfl
@[simp] theorem dike_free (d : Dev) (p : Nat) : (dike d p).free = d.free := rfl
@[simp] theorem dike_out (d : Dev) (p : Nat) : (dike d p).out = d.out := rfl
@[simp] theorem modMap_regs (d : Dev) (h : Nat) (f : MapRec → MapRec) : (modMap d h f).regs = d.regs := rfl
@[simp] theorem modMap_latch (d : Dev) (h : Nat) (f : MapRec → MapRec) : (modMap d h f).latch = d.latch := rfl
@[simp] theorem modMap_staged (d : Dev) (h : Nat) (f : MapRec → MapRec) : (modMap d h f).staged = d.staged := rfl
@[simp] theorem modMap_time (d : Dev) (h : Nat) (f : MapRec → MapRec) : (modMap d h f).time = d.time := rfl
@[simp] theorem modMap_pkg (d : Dev) (h : Nat) (f : MapRec → MapRec) : (modMap d h f).pkg = d.pkg := rfl
@[simp] theorem modMap_ldg (d : Dev) (h : Nat) (f : MapRec → MapRec) : (modMap d h f).ldg = d.ldg := rfl
@[simp] theorem modMap_host (d : Dev) (h : Nat) (f : MapRec → MapRec) : (modMap d h f).host = d.host := rfl
@[simp] theorem modMap_pld (d : Dev) (h : Nat) (f : MapRec → MapRec) : (modMap d h f).pld = d.pld := rfl
@[simp] theorem modMap_q (d : Dev) (h : Nat) (f : MapRec → MapRec) : (modMap d h f).q = d.q := rfl
@[simp] theorem modMap_eng (d : Dev) (h : Nat) (f : MapRec → MapRec) : (modMap d h f).eng = d.eng := rfl
@[simp] theorem modMap_ctc (d : Dev) (h : Nat) (f : MapRec → MapRec) : (modMap d h f).ctc = d.ctc := rfl
@[simp] theorem modMap_cal (d : Dev) (h : Nat) (f : MapRec → MapRec) : (modMap d h f).cal = d.cal := rfl
@[simp] theorem modMap_wdn (d : Dev) (h : Nat) (f : MapRec → MapRec) : (modMap d h f).wdn = d.wdn := rfl
@[simp] theorem modMap_twin (d : Dev) (h : Nat) (f : MapRec → MapRec) : (modMap d h f).twin = d.twin := rfl
@[simp] theorem modMap_fab (d : Dev) (h : Nat) (f : MapRec → MapRec) : (modMap d h f).fab = d.fab := rfl
@[simp] theorem modMap_pin (d : Dev) (h : Nat) (f : MapRec → MapRec) : (modMap d h f).pin = d.pin := rfl
@[simp] theorem modMap_mon (d : Dev) (h : Nat) (f : MapRec → MapRec) : (modMap d h f).mon = d.mon := rfl
@[simp] theorem modMap_img (d : Dev) (h : Nat) (f : MapRec → MapRec) : (modMap d h f).img = d.img := rfl
@[simp] theorem modMap_free (d : Dev) (h : Nat) (f : MapRec → MapRec) : (modMap d h f).free = d.free := rfl
@[simp] theorem modMap_out (d : Dev) (h : Nat) (f : MapRec → MapRec) : (modMap d h f).out = d.out := rfl
@[simp] theorem modStream_regs (d : Dev) (h : Nat) (f : StreamRec → StreamRec) : (modStream d h f).regs = d.regs := rfl
@[simp] theorem modStream_latch (d : Dev) (h : Nat) (f : StreamRec → StreamRec) : (modStream d h f).latch = d.latch := rfl
@[simp] theorem modStream_staged (d : Dev) (h : Nat) (f : StreamRec → StreamRec) : (modStream d h f).staged = d.staged := rfl
@[simp] theorem modStream_time (d : Dev) (h : Nat) (f : StreamRec → StreamRec) : (modStream d h f).time = d.time := rfl
@[simp] theorem modStream_pkg (d : Dev) (h : Nat) (f : StreamRec → StreamRec) : (modStream d h f).pkg = d.pkg := rfl
@[simp] theorem modStream_ldg (d : Dev) (h : Nat) (f : StreamRec → StreamRec) : (modStream d h f).ldg = d.ldg := rfl
@[simp] theorem modStream_host (d : Dev) (h : Nat) (f : StreamRec → StreamRec) : (modStream d h f).host = d.host := rfl
@[simp] theorem modStream_pld (d : Dev) (h : Nat) (f : StreamRec → StreamRec) : (modStream d h f).pld = d.pld := rfl
@[simp] theorem modStream_q (d : Dev) (h : Nat) (f : StreamRec → StreamRec) : (modStream d h f).q = d.q := rfl
@[simp] theorem modStream_eng (d : Dev) (h : Nat) (f : StreamRec → StreamRec) : (modStream d h f).eng = d.eng := rfl
@[simp] theorem modStream_ctc (d : Dev) (h : Nat) (f : StreamRec → StreamRec) : (modStream d h f).ctc = d.ctc := rfl
@[simp] theorem modStream_cal (d : Dev) (h : Nat) (f : StreamRec → StreamRec) : (modStream d h f).cal = d.cal := rfl
@[simp] theorem modStream_wdn (d : Dev) (h : Nat) (f : StreamRec → StreamRec) : (modStream d h f).wdn = d.wdn := rfl
@[simp] theorem modStream_twin (d : Dev) (h : Nat) (f : StreamRec → StreamRec) : (modStream d h f).twin = d.twin := rfl
@[simp] theorem modStream_fab (d : Dev) (h : Nat) (f : StreamRec → StreamRec) : (modStream d h f).fab = d.fab := rfl
@[simp] theorem modStream_pin (d : Dev) (h : Nat) (f : StreamRec → StreamRec) : (modStream d h f).pin = d.pin := rfl
@[simp] theorem modStream_mon (d : Dev) (h : Nat) (f : StreamRec → StreamRec) : (modStream d h f).mon = d.mon := rfl
@[simp] theorem modStream_img (d : Dev) (h : Nat) (f : StreamRec → StreamRec) : (modStream d h f).img = d.img := rfl
@[simp] theorem modStream_free (d : Dev) (h : Nat) (f : StreamRec → StreamRec) : (modStream d h f).free = d.free := rfl
@[simp] theorem modStream_out (d : Dev) (h : Nat) (f : StreamRec → StreamRec) : (modStream d h f).out = d.out := rfl
@[simp] theorem modModel_regs (d : Dev) (h : Nat) (f : ModelRec → ModelRec) : (modModel d h f).regs = d.regs := rfl
@[simp] theorem modModel_latch (d : Dev) (h : Nat) (f : ModelRec → ModelRec) : (modModel d h f).latch = d.latch := rfl
@[simp] theorem modModel_staged (d : Dev) (h : Nat) (f : ModelRec → ModelRec) : (modModel d h f).staged = d.staged := rfl
@[simp] theorem modModel_time (d : Dev) (h : Nat) (f : ModelRec → ModelRec) : (modModel d h f).time = d.time := rfl
@[simp] theorem modModel_pkg (d : Dev) (h : Nat) (f : ModelRec → ModelRec) : (modModel d h f).pkg = d.pkg := rfl
@[simp] theorem modModel_ldg (d : Dev) (h : Nat) (f : ModelRec → ModelRec) : (modModel d h f).ldg = d.ldg := rfl
@[simp] theorem modModel_host (d : Dev) (h : Nat) (f : ModelRec → ModelRec) : (modModel d h f).host = d.host := rfl
@[simp] theorem modModel_pld (d : Dev) (h : Nat) (f : ModelRec → ModelRec) : (modModel d h f).pld = d.pld := rfl
@[simp] theorem modModel_q (d : Dev) (h : Nat) (f : ModelRec → ModelRec) : (modModel d h f).q = d.q := rfl
@[simp] theorem modModel_eng (d : Dev) (h : Nat) (f : ModelRec → ModelRec) : (modModel d h f).eng = d.eng := rfl
@[simp] theorem modModel_ctc (d : Dev) (h : Nat) (f : ModelRec → ModelRec) : (modModel d h f).ctc = d.ctc := rfl
@[simp] theorem modModel_cal (d : Dev) (h : Nat) (f : ModelRec → ModelRec) : (modModel d h f).cal = d.cal := rfl
@[simp] theorem modModel_wdn (d : Dev) (h : Nat) (f : ModelRec → ModelRec) : (modModel d h f).wdn = d.wdn := rfl
@[simp] theorem modModel_twin (d : Dev) (h : Nat) (f : ModelRec → ModelRec) : (modModel d h f).twin = d.twin := rfl
@[simp] theorem modModel_fab (d : Dev) (h : Nat) (f : ModelRec → ModelRec) : (modModel d h f).fab = d.fab := rfl
@[simp] theorem modModel_pin (d : Dev) (h : Nat) (f : ModelRec → ModelRec) : (modModel d h f).pin = d.pin := rfl
@[simp] theorem modModel_mon (d : Dev) (h : Nat) (f : ModelRec → ModelRec) : (modModel d h f).mon = d.mon := rfl
@[simp] theorem modModel_img (d : Dev) (h : Nat) (f : ModelRec → ModelRec) : (modModel d h f).img = d.img := rfl
@[simp] theorem modModel_free (d : Dev) (h : Nat) (f : ModelRec → ModelRec) : (modModel d h f).free = d.free := rfl
@[simp] theorem modModel_out (d : Dev) (h : Nat) (f : ModelRec → ModelRec) : (modModel d h f).out = d.out := rfl
@[simp] theorem modSet_regs (d : Dev) (h : Nat) (f : SetRec → SetRec) : (modSet d h f).regs = d.regs := rfl
@[simp] theorem modSet_latch (d : Dev) (h : Nat) (f : SetRec → SetRec) : (modSet d h f).latch = d.latch := rfl
@[simp] theorem modSet_staged (d : Dev) (h : Nat) (f : SetRec → SetRec) : (modSet d h f).staged = d.staged := rfl
@[simp] theorem modSet_time (d : Dev) (h : Nat) (f : SetRec → SetRec) : (modSet d h f).time = d.time := rfl
@[simp] theorem modSet_pkg (d : Dev) (h : Nat) (f : SetRec → SetRec) : (modSet d h f).pkg = d.pkg := rfl
@[simp] theorem modSet_ldg (d : Dev) (h : Nat) (f : SetRec → SetRec) : (modSet d h f).ldg = d.ldg := rfl
@[simp] theorem modSet_host (d : Dev) (h : Nat) (f : SetRec → SetRec) : (modSet d h f).host = d.host := rfl
@[simp] theorem modSet_pld (d : Dev) (h : Nat) (f : SetRec → SetRec) : (modSet d h f).pld = d.pld := rfl
@[simp] theorem modSet_q (d : Dev) (h : Nat) (f : SetRec → SetRec) : (modSet d h f).q = d.q := rfl
@[simp] theorem modSet_eng (d : Dev) (h : Nat) (f : SetRec → SetRec) : (modSet d h f).eng = d.eng := rfl
@[simp] theorem modSet_ctc (d : Dev) (h : Nat) (f : SetRec → SetRec) : (modSet d h f).ctc = d.ctc := rfl
@[simp] theorem modSet_cal (d : Dev) (h : Nat) (f : SetRec → SetRec) : (modSet d h f).cal = d.cal := rfl
@[simp] theorem modSet_wdn (d : Dev) (h : Nat) (f : SetRec → SetRec) : (modSet d h f).wdn = d.wdn := rfl
@[simp] theorem modSet_twin (d : Dev) (h : Nat) (f : SetRec → SetRec) : (modSet d h f).twin = d.twin := rfl
@[simp] theorem modSet_fab (d : Dev) (h : Nat) (f : SetRec → SetRec) : (modSet d h f).fab = d.fab := rfl
@[simp] theorem modSet_pin (d : Dev) (h : Nat) (f : SetRec → SetRec) : (modSet d h f).pin = d.pin := rfl
@[simp] theorem modSet_mon (d : Dev) (h : Nat) (f : SetRec → SetRec) : (modSet d h f).mon = d.mon := rfl
@[simp] theorem modSet_img (d : Dev) (h : Nat) (f : SetRec → SetRec) : (modSet d h f).img = d.img := rfl
@[simp] theorem modSet_free (d : Dev) (h : Nat) (f : SetRec → SetRec) : (modSet d h f).free = d.free := rfl
@[simp] theorem modSet_out (d : Dev) (h : Nat) (f : SetRec → SetRec) : (modSet d h f).out = d.out := rfl
@[simp] theorem modAgent_regs (d : Dev) (h : Nat) (f : AgentRec → AgentRec) : (modAgent d h f).regs = d.regs := rfl
@[simp] theorem modAgent_latch (d : Dev) (h : Nat) (f : AgentRec → AgentRec) : (modAgent d h f).latch = d.latch := rfl
@[simp] theorem modAgent_staged (d : Dev) (h : Nat) (f : AgentRec → AgentRec) : (modAgent d h f).staged = d.staged := rfl
@[simp] theorem modAgent_time (d : Dev) (h : Nat) (f : AgentRec → AgentRec) : (modAgent d h f).time = d.time := rfl
@[simp] theorem modAgent_pkg (d : Dev) (h : Nat) (f : AgentRec → AgentRec) : (modAgent d h f).pkg = d.pkg := rfl
@[simp] theorem modAgent_ldg (d : Dev) (h : Nat) (f : AgentRec → AgentRec) : (modAgent d h f).ldg = d.ldg := rfl
@[simp] theorem modAgent_host (d : Dev) (h : Nat) (f : AgentRec → AgentRec) : (modAgent d h f).host = d.host := rfl
@[simp] theorem modAgent_pld (d : Dev) (h : Nat) (f : AgentRec → AgentRec) : (modAgent d h f).pld = d.pld := rfl
@[simp] theorem modAgent_q (d : Dev) (h : Nat) (f : AgentRec → AgentRec) : (modAgent d h f).q = d.q := rfl
@[simp] theorem modAgent_eng (d : Dev) (h : Nat) (f : AgentRec → AgentRec) : (modAgent d h f).eng = d.eng := rfl
@[simp] theorem modAgent_ctc (d : Dev) (h : Nat) (f : AgentRec → AgentRec) : (modAgent d h f).ctc = d.ctc := rfl
@[simp] theorem modAgent_cal (d : Dev) (h : Nat) (f : AgentRec → AgentRec) : (modAgent d h f).cal = d.cal := rfl
@[simp] theorem modAgent_wdn (d : Dev) (h : Nat) (f : AgentRec → AgentRec) : (modAgent d h f).wdn = d.wdn := rfl
@[simp] theorem modAgent_twin (d : Dev) (h : Nat) (f : AgentRec → AgentRec) : (modAgent d h f).twin = d.twin := rfl
@[simp] theorem modAgent_fab (d : Dev) (h : Nat) (f : AgentRec → AgentRec) : (modAgent d h f).fab = d.fab := rfl
@[simp] theorem modAgent_pin (d : Dev) (h : Nat) (f : AgentRec → AgentRec) : (modAgent d h f).pin = d.pin := rfl
@[simp] theorem modAgent_mon (d : Dev) (h : Nat) (f : AgentRec → AgentRec) : (modAgent d h f).mon = d.mon := rfl
@[simp] theorem modAgent_img (d : Dev) (h : Nat) (f : AgentRec → AgentRec) : (modAgent d h f).img = d.img := rfl
@[simp] theorem modAgent_free (d : Dev) (h : Nat) (f : AgentRec → AgentRec) : (modAgent d h f).free = d.free := rfl
@[simp] theorem modAgent_out (d : Dev) (h : Nat) (f : AgentRec → AgentRec) : (modAgent d h f).out = d.out := rfl
@[simp] theorem modQ_regs (d : Dev) (h : Nat) (f : QueryRec → QueryRec) : (modQ d h f).regs = d.regs := rfl
@[simp] theorem modQ_latch (d : Dev) (h : Nat) (f : QueryRec → QueryRec) : (modQ d h f).latch = d.latch := rfl
@[simp] theorem modQ_staged (d : Dev) (h : Nat) (f : QueryRec → QueryRec) : (modQ d h f).staged = d.staged := rfl
@[simp] theorem modQ_time (d : Dev) (h : Nat) (f : QueryRec → QueryRec) : (modQ d h f).time = d.time := rfl
@[simp] theorem modQ_pkg (d : Dev) (h : Nat) (f : QueryRec → QueryRec) : (modQ d h f).pkg = d.pkg := rfl
@[simp] theorem modQ_ldg (d : Dev) (h : Nat) (f : QueryRec → QueryRec) : (modQ d h f).ldg = d.ldg := rfl
@[simp] theorem modQ_host (d : Dev) (h : Nat) (f : QueryRec → QueryRec) : (modQ d h f).host = d.host := rfl
@[simp] theorem modQ_pld (d : Dev) (h : Nat) (f : QueryRec → QueryRec) : (modQ d h f).pld = d.pld := rfl
@[simp] theorem modQ_world (d : Dev) (h : Nat) (f : QueryRec → QueryRec) : (modQ d h f).world = d.world := rfl
@[simp] theorem modQ_eng (d : Dev) (h : Nat) (f : QueryRec → QueryRec) : (modQ d h f).eng = d.eng := rfl
@[simp] theorem modQ_ctc (d : Dev) (h : Nat) (f : QueryRec → QueryRec) : (modQ d h f).ctc = d.ctc := rfl
@[simp] theorem modQ_cal (d : Dev) (h : Nat) (f : QueryRec → QueryRec) : (modQ d h f).cal = d.cal := rfl
@[simp] theorem modQ_wdn (d : Dev) (h : Nat) (f : QueryRec → QueryRec) : (modQ d h f).wdn = d.wdn := rfl
@[simp] theorem modQ_twin (d : Dev) (h : Nat) (f : QueryRec → QueryRec) : (modQ d h f).twin = d.twin := rfl
@[simp] theorem modQ_fab (d : Dev) (h : Nat) (f : QueryRec → QueryRec) : (modQ d h f).fab = d.fab := rfl
@[simp] theorem modQ_pin (d : Dev) (h : Nat) (f : QueryRec → QueryRec) : (modQ d h f).pin = d.pin := rfl
@[simp] theorem modQ_mon (d : Dev) (h : Nat) (f : QueryRec → QueryRec) : (modQ d h f).mon = d.mon := rfl
@[simp] theorem modQ_img (d : Dev) (h : Nat) (f : QueryRec → QueryRec) : (modQ d h f).img = d.img := rfl
@[simp] theorem modQ_free (d : Dev) (h : Nat) (f : QueryRec → QueryRec) : (modQ d h f).free = d.free := rfl
@[simp] theorem modQ_out (d : Dev) (h : Nat) (f : QueryRec → QueryRec) : (modQ d h f).out = d.out := rfl
@[simp] theorem modPair_regs (d : Dev) (p q : Nat) (f : PairRec → PairRec) : (modPair d p q f).regs = d.regs := rfl
@[simp] theorem modPair_latch (d : Dev) (p q : Nat) (f : PairRec → PairRec) : (modPair d p q f).latch = d.latch := rfl
@[simp] theorem modPair_staged (d : Dev) (p q : Nat) (f : PairRec → PairRec) : (modPair d p q f).staged = d.staged := rfl
@[simp] theorem modPair_time (d : Dev) (p q : Nat) (f : PairRec → PairRec) : (modPair d p q f).time = d.time := rfl
@[simp] theorem modPair_pkg (d : Dev) (p q : Nat) (f : PairRec → PairRec) : (modPair d p q f).pkg = d.pkg := rfl
@[simp] theorem modPair_ldg (d : Dev) (p q : Nat) (f : PairRec → PairRec) : (modPair d p q f).ldg = d.ldg := rfl
@[simp] theorem modPair_pld (d : Dev) (p q : Nat) (f : PairRec → PairRec) : (modPair d p q f).pld = d.pld := rfl
@[simp] theorem modPair_world (d : Dev) (p q : Nat) (f : PairRec → PairRec) : (modPair d p q f).world = d.world := rfl
@[simp] theorem modPair_q (d : Dev) (p q : Nat) (f : PairRec → PairRec) : (modPair d p q f).q = d.q := rfl
@[simp] theorem modPair_eng (d : Dev) (p q : Nat) (f : PairRec → PairRec) : (modPair d p q f).eng = d.eng := rfl
@[simp] theorem modPair_ctc (d : Dev) (p q : Nat) (f : PairRec → PairRec) : (modPair d p q f).ctc = d.ctc := rfl
@[simp] theorem modPair_cal (d : Dev) (p q : Nat) (f : PairRec → PairRec) : (modPair d p q f).cal = d.cal := rfl
@[simp] theorem modPair_wdn (d : Dev) (p q : Nat) (f : PairRec → PairRec) : (modPair d p q f).wdn = d.wdn := rfl
@[simp] theorem modPair_twin (d : Dev) (p q : Nat) (f : PairRec → PairRec) : (modPair d p q f).twin = d.twin := rfl
@[simp] theorem modPair_fab (d : Dev) (p q : Nat) (f : PairRec → PairRec) : (modPair d p q f).fab = d.fab := rfl
@[simp] theorem modPair_pin (d : Dev) (p q : Nat) (f : PairRec → PairRec) : (modPair d p q f).pin = d.pin := rfl
@[simp] theorem modPair_mon (d : Dev) (p q : Nat) (f : PairRec → PairRec) : (modPair d p q f).mon = d.mon := rfl
@[simp] theorem modPair_img (d : Dev) (p q : Nat) (f : PairRec → PairRec) : (modPair d p q f).img = d.img := rfl
@[simp] theorem modPair_free (d : Dev) (p q : Nat) (f : PairRec → PairRec) : (modPair d p q f).free = d.free := rfl
@[simp] theorem modPair_out (d : Dev) (p q : Nat) (f : PairRec → PairRec) : (modPair d p q f).out = d.out := rfl
@[simp] theorem modCal_regs (d : Dev) (f : CalDev → CalDev) : (modCal d f).regs = d.regs := rfl
@[simp] theorem modCal_latch (d : Dev) (f : CalDev → CalDev) : (modCal d f).latch = d.latch := rfl
@[simp] theorem modCal_staged (d : Dev) (f : CalDev → CalDev) : (modCal d f).staged = d.staged := rfl
@[simp] theorem modCal_time (d : Dev) (f : CalDev → CalDev) : (modCal d f).time = d.time := rfl
@[simp] theorem modCal_pkg (d : Dev) (f : CalDev → CalDev) : (modCal d f).pkg = d.pkg := rfl
@[simp] theorem modCal_ldg (d : Dev) (f : CalDev → CalDev) : (modCal d f).ldg = d.ldg := rfl
@[simp] theorem modCal_host (d : Dev) (f : CalDev → CalDev) : (modCal d f).host = d.host := rfl
@[simp] theorem modCal_pld (d : Dev) (f : CalDev → CalDev) : (modCal d f).pld = d.pld := rfl
@[simp] theorem modCal_world (d : Dev) (f : CalDev → CalDev) : (modCal d f).world = d.world := rfl
@[simp] theorem modCal_q (d : Dev) (f : CalDev → CalDev) : (modCal d f).q = d.q := rfl
@[simp] theorem modCal_eng (d : Dev) (f : CalDev → CalDev) : (modCal d f).eng = d.eng := rfl
@[simp] theorem modCal_ctc (d : Dev) (f : CalDev → CalDev) : (modCal d f).ctc = d.ctc := rfl
@[simp] theorem modCal_wdn (d : Dev) (f : CalDev → CalDev) : (modCal d f).wdn = d.wdn := rfl
@[simp] theorem modCal_twin (d : Dev) (f : CalDev → CalDev) : (modCal d f).twin = d.twin := rfl
@[simp] theorem modCal_fab (d : Dev) (f : CalDev → CalDev) : (modCal d f).fab = d.fab := rfl
@[simp] theorem modCal_pin (d : Dev) (f : CalDev → CalDev) : (modCal d f).pin = d.pin := rfl
@[simp] theorem modCal_mon (d : Dev) (f : CalDev → CalDev) : (modCal d f).mon = d.mon := rfl
@[simp] theorem modCal_img (d : Dev) (f : CalDev → CalDev) : (modCal d f).img = d.img := rfl
@[simp] theorem modCal_free (d : Dev) (f : CalDev → CalDev) : (modCal d f).free = d.free := rfl
@[simp] theorem modCal_out (d : Dev) (f : CalDev → CalDev) : (modCal d f).out = d.out := rfl
@[simp] theorem setEst_regs (d : Dev) (k : Nat) (e : CalRec) : (setEst d k e).regs = d.regs := rfl
@[simp] theorem setEst_latch (d : Dev) (k : Nat) (e : CalRec) : (setEst d k e).latch = d.latch := rfl
@[simp] theorem setEst_staged (d : Dev) (k : Nat) (e : CalRec) : (setEst d k e).staged = d.staged := rfl
@[simp] theorem setEst_time (d : Dev) (k : Nat) (e : CalRec) : (setEst d k e).time = d.time := rfl
@[simp] theorem setEst_pkg (d : Dev) (k : Nat) (e : CalRec) : (setEst d k e).pkg = d.pkg := rfl
@[simp] theorem setEst_ldg (d : Dev) (k : Nat) (e : CalRec) : (setEst d k e).ldg = d.ldg := rfl
@[simp] theorem setEst_host (d : Dev) (k : Nat) (e : CalRec) : (setEst d k e).host = d.host := rfl
@[simp] theorem setEst_pld (d : Dev) (k : Nat) (e : CalRec) : (setEst d k e).pld = d.pld := rfl
@[simp] theorem setEst_world (d : Dev) (k : Nat) (e : CalRec) : (setEst d k e).world = d.world := rfl
@[simp] theorem setEst_q (d : Dev) (k : Nat) (e : CalRec) : (setEst d k e).q = d.q := rfl
@[simp] theorem setEst_eng (d : Dev) (k : Nat) (e : CalRec) : (setEst d k e).eng = d.eng := rfl
@[simp] theorem setEst_ctc (d : Dev) (k : Nat) (e : CalRec) : (setEst d k e).ctc = d.ctc := rfl
@[simp] theorem setEst_wdn (d : Dev) (k : Nat) (e : CalRec) : (setEst d k e).wdn = d.wdn := rfl
@[simp] theorem setEst_twin (d : Dev) (k : Nat) (e : CalRec) : (setEst d k e).twin = d.twin := rfl
@[simp] theorem setEst_fab (d : Dev) (k : Nat) (e : CalRec) : (setEst d k e).fab = d.fab := rfl
@[simp] theorem setEst_pin (d : Dev) (k : Nat) (e : CalRec) : (setEst d k e).pin = d.pin := rfl
@[simp] theorem setEst_mon (d : Dev) (k : Nat) (e : CalRec) : (setEst d k e).mon = d.mon := rfl
@[simp] theorem setEst_img (d : Dev) (k : Nat) (e : CalRec) : (setEst d k e).img = d.img := rfl
@[simp] theorem setEst_free (d : Dev) (k : Nat) (e : CalRec) : (setEst d k e).free = d.free := rfl
@[simp] theorem setEst_out (d : Dev) (k : Nat) (e : CalRec) : (setEst d k e).out = d.out := rfl
@[simp] theorem modTime_regs (d : Dev) (f : TimeRec → TimeRec) : (modTime d f).regs = d.regs := rfl
@[simp] theorem modTime_latch (d : Dev) (f : TimeRec → TimeRec) : (modTime d f).latch = d.latch := rfl
@[simp] theorem modTime_staged (d : Dev) (f : TimeRec → TimeRec) : (modTime d f).staged = d.staged := rfl
@[simp] theorem modTime_pkg (d : Dev) (f : TimeRec → TimeRec) : (modTime d f).pkg = d.pkg := rfl
@[simp] theorem modTime_ldg (d : Dev) (f : TimeRec → TimeRec) : (modTime d f).ldg = d.ldg := rfl
@[simp] theorem modTime_host (d : Dev) (f : TimeRec → TimeRec) : (modTime d f).host = d.host := rfl
@[simp] theorem modTime_pld (d : Dev) (f : TimeRec → TimeRec) : (modTime d f).pld = d.pld := rfl
@[simp] theorem modTime_world (d : Dev) (f : TimeRec → TimeRec) : (modTime d f).world = d.world := rfl
@[simp] theorem modTime_q (d : Dev) (f : TimeRec → TimeRec) : (modTime d f).q = d.q := rfl
@[simp] theorem modTime_eng (d : Dev) (f : TimeRec → TimeRec) : (modTime d f).eng = d.eng := rfl
@[simp] theorem modTime_ctc (d : Dev) (f : TimeRec → TimeRec) : (modTime d f).ctc = d.ctc := rfl
@[simp] theorem modTime_cal (d : Dev) (f : TimeRec → TimeRec) : (modTime d f).cal = d.cal := rfl
@[simp] theorem modTime_wdn (d : Dev) (f : TimeRec → TimeRec) : (modTime d f).wdn = d.wdn := rfl
@[simp] theorem modTime_twin (d : Dev) (f : TimeRec → TimeRec) : (modTime d f).twin = d.twin := rfl
@[simp] theorem modTime_fab (d : Dev) (f : TimeRec → TimeRec) : (modTime d f).fab = d.fab := rfl
@[simp] theorem modTime_pin (d : Dev) (f : TimeRec → TimeRec) : (modTime d f).pin = d.pin := rfl
@[simp] theorem modTime_mon (d : Dev) (f : TimeRec → TimeRec) : (modTime d f).mon = d.mon := rfl
@[simp] theorem modTime_img (d : Dev) (f : TimeRec → TimeRec) : (modTime d f).img = d.img := rfl
@[simp] theorem modTime_free (d : Dev) (f : TimeRec → TimeRec) : (modTime d f).free = d.free := rfl
@[simp] theorem modTime_out (d : Dev) (f : TimeRec → TimeRec) : (modTime d f).out = d.out := rfl
@[simp] theorem modTwin_regs (d : Dev) (f : TwinDev → TwinDev) : (modTwin d f).regs = d.regs := rfl
@[simp] theorem modTwin_latch (d : Dev) (f : TwinDev → TwinDev) : (modTwin d f).latch = d.latch := rfl
@[simp] theorem modTwin_staged (d : Dev) (f : TwinDev → TwinDev) : (modTwin d f).staged = d.staged := rfl
@[simp] theorem modTwin_time (d : Dev) (f : TwinDev → TwinDev) : (modTwin d f).time = d.time := rfl
@[simp] theorem modTwin_pkg (d : Dev) (f : TwinDev → TwinDev) : (modTwin d f).pkg = d.pkg := rfl
@[simp] theorem modTwin_ldg (d : Dev) (f : TwinDev → TwinDev) : (modTwin d f).ldg = d.ldg := rfl
@[simp] theorem modTwin_host (d : Dev) (f : TwinDev → TwinDev) : (modTwin d f).host = d.host := rfl
@[simp] theorem modTwin_pld (d : Dev) (f : TwinDev → TwinDev) : (modTwin d f).pld = d.pld := rfl
@[simp] theorem modTwin_world (d : Dev) (f : TwinDev → TwinDev) : (modTwin d f).world = d.world := rfl
@[simp] theorem modTwin_q (d : Dev) (f : TwinDev → TwinDev) : (modTwin d f).q = d.q := rfl
@[simp] theorem modTwin_eng (d : Dev) (f : TwinDev → TwinDev) : (modTwin d f).eng = d.eng := rfl
@[simp] theorem modTwin_ctc (d : Dev) (f : TwinDev → TwinDev) : (modTwin d f).ctc = d.ctc := rfl
@[simp] theorem modTwin_cal (d : Dev) (f : TwinDev → TwinDev) : (modTwin d f).cal = d.cal := rfl
@[simp] theorem modTwin_wdn (d : Dev) (f : TwinDev → TwinDev) : (modTwin d f).wdn = d.wdn := rfl
@[simp] theorem modTwin_fab (d : Dev) (f : TwinDev → TwinDev) : (modTwin d f).fab = d.fab := rfl
@[simp] theorem modTwin_pin (d : Dev) (f : TwinDev → TwinDev) : (modTwin d f).pin = d.pin := rfl
@[simp] theorem modTwin_mon (d : Dev) (f : TwinDev → TwinDev) : (modTwin d f).mon = d.mon := rfl
@[simp] theorem modTwin_img (d : Dev) (f : TwinDev → TwinDev) : (modTwin d f).img = d.img := rfl
@[simp] theorem modTwin_free (d : Dev) (f : TwinDev → TwinDev) : (modTwin d f).free = d.free := rfl
@[simp] theorem modTwin_out (d : Dev) (f : TwinDev → TwinDev) : (modTwin d f).out = d.out := rfl
@[simp] theorem modFab_regs (d : Dev) (f : FabDev → FabDev) : (modFab d f).regs = d.regs := rfl
@[simp] theorem modFab_latch (d : Dev) (f : FabDev → FabDev) : (modFab d f).latch = d.latch := rfl
@[simp] theorem modFab_staged (d : Dev) (f : FabDev → FabDev) : (modFab d f).staged = d.staged := rfl
@[simp] theorem modFab_time (d : Dev) (f : FabDev → FabDev) : (modFab d f).time = d.time := rfl
@[simp] theorem modFab_pkg (d : Dev) (f : FabDev → FabDev) : (modFab d f).pkg = d.pkg := rfl
@[simp] theorem modFab_ldg (d : Dev) (f : FabDev → FabDev) : (modFab d f).ldg = d.ldg := rfl
@[simp] theorem modFab_host (d : Dev) (f : FabDev → FabDev) : (modFab d f).host = d.host := rfl
@[simp] theorem modFab_pld (d : Dev) (f : FabDev → FabDev) : (modFab d f).pld = d.pld := rfl
@[simp] theorem modFab_world (d : Dev) (f : FabDev → FabDev) : (modFab d f).world = d.world := rfl
@[simp] theorem modFab_q (d : Dev) (f : FabDev → FabDev) : (modFab d f).q = d.q := rfl
@[simp] theorem modFab_eng (d : Dev) (f : FabDev → FabDev) : (modFab d f).eng = d.eng := rfl
@[simp] theorem modFab_ctc (d : Dev) (f : FabDev → FabDev) : (modFab d f).ctc = d.ctc := rfl
@[simp] theorem modFab_cal (d : Dev) (f : FabDev → FabDev) : (modFab d f).cal = d.cal := rfl
@[simp] theorem modFab_wdn (d : Dev) (f : FabDev → FabDev) : (modFab d f).wdn = d.wdn := rfl
@[simp] theorem modFab_twin (d : Dev) (f : FabDev → FabDev) : (modFab d f).twin = d.twin := rfl
@[simp] theorem modFab_pin (d : Dev) (f : FabDev → FabDev) : (modFab d f).pin = d.pin := rfl
@[simp] theorem modFab_mon (d : Dev) (f : FabDev → FabDev) : (modFab d f).mon = d.mon := rfl
@[simp] theorem modFab_img (d : Dev) (f : FabDev → FabDev) : (modFab d f).img = d.img := rfl
@[simp] theorem modFab_free (d : Dev) (f : FabDev → FabDev) : (modFab d f).free = d.free := rfl
@[simp] theorem modFab_out (d : Dev) (f : FabDev → FabDev) : (modFab d f).out = d.out := rfl
@[simp] theorem modPin_regs (d : Dev) (f : PinDev → PinDev) : (modPin d f).regs = d.regs := rfl
@[simp] theorem modPin_latch (d : Dev) (f : PinDev → PinDev) : (modPin d f).latch = d.latch := rfl
@[simp] theorem modPin_staged (d : Dev) (f : PinDev → PinDev) : (modPin d f).staged = d.staged := rfl
@[simp] theorem modPin_time (d : Dev) (f : PinDev → PinDev) : (modPin d f).time = d.time := rfl
@[simp] theorem modPin_pkg (d : Dev) (f : PinDev → PinDev) : (modPin d f).pkg = d.pkg := rfl
@[simp] theorem modPin_ldg (d : Dev) (f : PinDev → PinDev) : (modPin d f).ldg = d.ldg := rfl
@[simp] theorem modPin_host (d : Dev) (f : PinDev → PinDev) : (modPin d f).host = d.host := rfl
@[simp] theorem modPin_pld (d : Dev) (f : PinDev → PinDev) : (modPin d f).pld = d.pld := rfl
@[simp] theorem modPin_world (d : Dev) (f : PinDev → PinDev) : (modPin d f).world = d.world := rfl
@[simp] theorem modPin_q (d : Dev) (f : PinDev → PinDev) : (modPin d f).q = d.q := rfl
@[simp] theorem modPin_eng (d : Dev) (f : PinDev → PinDev) : (modPin d f).eng = d.eng := rfl
@[simp] theorem modPin_ctc (d : Dev) (f : PinDev → PinDev) : (modPin d f).ctc = d.ctc := rfl
@[simp] theorem modPin_cal (d : Dev) (f : PinDev → PinDev) : (modPin d f).cal = d.cal := rfl
@[simp] theorem modPin_wdn (d : Dev) (f : PinDev → PinDev) : (modPin d f).wdn = d.wdn := rfl
@[simp] theorem modPin_twin (d : Dev) (f : PinDev → PinDev) : (modPin d f).twin = d.twin := rfl
@[simp] theorem modPin_fab (d : Dev) (f : PinDev → PinDev) : (modPin d f).fab = d.fab := rfl
@[simp] theorem modPin_mon (d : Dev) (f : PinDev → PinDev) : (modPin d f).mon = d.mon := rfl
@[simp] theorem modPin_img (d : Dev) (f : PinDev → PinDev) : (modPin d f).img = d.img := rfl
@[simp] theorem modPin_free (d : Dev) (f : PinDev → PinDev) : (modPin d f).free = d.free := rfl
@[simp] theorem modPin_out (d : Dev) (f : PinDev → PinDev) : (modPin d f).out = d.out := rfl
@[simp] theorem modMon_regs (d : Dev) (f : MonDev → MonDev) : (modMon d f).regs = d.regs := rfl
@[simp] theorem modMon_latch (d : Dev) (f : MonDev → MonDev) : (modMon d f).latch = d.latch := rfl
@[simp] theorem modMon_staged (d : Dev) (f : MonDev → MonDev) : (modMon d f).staged = d.staged := rfl
@[simp] theorem modMon_time (d : Dev) (f : MonDev → MonDev) : (modMon d f).time = d.time := rfl
@[simp] theorem modMon_pkg (d : Dev) (f : MonDev → MonDev) : (modMon d f).pkg = d.pkg := rfl
@[simp] theorem modMon_ldg (d : Dev) (f : MonDev → MonDev) : (modMon d f).ldg = d.ldg := rfl
@[simp] theorem modMon_host (d : Dev) (f : MonDev → MonDev) : (modMon d f).host = d.host := rfl
@[simp] theorem modMon_pld (d : Dev) (f : MonDev → MonDev) : (modMon d f).pld = d.pld := rfl
@[simp] theorem modMon_world (d : Dev) (f : MonDev → MonDev) : (modMon d f).world = d.world := rfl
@[simp] theorem modMon_q (d : Dev) (f : MonDev → MonDev) : (modMon d f).q = d.q := rfl
@[simp] theorem modMon_eng (d : Dev) (f : MonDev → MonDev) : (modMon d f).eng = d.eng := rfl
@[simp] theorem modMon_ctc (d : Dev) (f : MonDev → MonDev) : (modMon d f).ctc = d.ctc := rfl
@[simp] theorem modMon_cal (d : Dev) (f : MonDev → MonDev) : (modMon d f).cal = d.cal := rfl
@[simp] theorem modMon_wdn (d : Dev) (f : MonDev → MonDev) : (modMon d f).wdn = d.wdn := rfl
@[simp] theorem modMon_twin (d : Dev) (f : MonDev → MonDev) : (modMon d f).twin = d.twin := rfl
@[simp] theorem modMon_fab (d : Dev) (f : MonDev → MonDev) : (modMon d f).fab = d.fab := rfl
@[simp] theorem modMon_pin (d : Dev) (f : MonDev → MonDev) : (modMon d f).pin = d.pin := rfl
@[simp] theorem modMon_img (d : Dev) (f : MonDev → MonDev) : (modMon d f).img = d.img := rfl
@[simp] theorem modMon_free (d : Dev) (f : MonDev → MonDev) : (modMon d f).free = d.free := rfl
@[simp] theorem modMon_out (d : Dev) (f : MonDev → MonDev) : (modMon d f).out = d.out := rfl
@[simp] theorem modImg_regs (d : Dev) (f : ImgDev → ImgDev) : (modImg d f).regs = d.regs := rfl
@[simp] theorem modImg_latch (d : Dev) (f : ImgDev → ImgDev) : (modImg d f).latch = d.latch := rfl
@[simp] theorem modImg_staged (d : Dev) (f : ImgDev → ImgDev) : (modImg d f).staged = d.staged := rfl
@[simp] theorem modImg_time (d : Dev) (f : ImgDev → ImgDev) : (modImg d f).time = d.time := rfl
@[simp] theorem modImg_pkg (d : Dev) (f : ImgDev → ImgDev) : (modImg d f).pkg = d.pkg := rfl
@[simp] theorem modImg_ldg (d : Dev) (f : ImgDev → ImgDev) : (modImg d f).ldg = d.ldg := rfl
@[simp] theorem modImg_host (d : Dev) (f : ImgDev → ImgDev) : (modImg d f).host = d.host := rfl
@[simp] theorem modImg_pld (d : Dev) (f : ImgDev → ImgDev) : (modImg d f).pld = d.pld := rfl
@[simp] theorem modImg_world (d : Dev) (f : ImgDev → ImgDev) : (modImg d f).world = d.world := rfl
@[simp] theorem modImg_q (d : Dev) (f : ImgDev → ImgDev) : (modImg d f).q = d.q := rfl
@[simp] theorem modImg_eng (d : Dev) (f : ImgDev → ImgDev) : (modImg d f).eng = d.eng := rfl
@[simp] theorem modImg_ctc (d : Dev) (f : ImgDev → ImgDev) : (modImg d f).ctc = d.ctc := rfl
@[simp] theorem modImg_cal (d : Dev) (f : ImgDev → ImgDev) : (modImg d f).cal = d.cal := rfl
@[simp] theorem modImg_wdn (d : Dev) (f : ImgDev → ImgDev) : (modImg d f).wdn = d.wdn := rfl
@[simp] theorem modImg_twin (d : Dev) (f : ImgDev → ImgDev) : (modImg d f).twin = d.twin := rfl
@[simp] theorem modImg_fab (d : Dev) (f : ImgDev → ImgDev) : (modImg d f).fab = d.fab := rfl
@[simp] theorem modImg_pin (d : Dev) (f : ImgDev → ImgDev) : (modImg d f).pin = d.pin := rfl
@[simp] theorem modImg_mon (d : Dev) (f : ImgDev → ImgDev) : (modImg d f).mon = d.mon := rfl
@[simp] theorem modImg_free (d : Dev) (f : ImgDev → ImgDev) : (modImg d f).free = d.free := rfl
@[simp] theorem modImg_out (d : Dev) (f : ImgDev → ImgDev) : (modImg d f).out = d.out := rfl
@[simp] theorem modWdn_regs (d : Dev) (f : WdnDev → WdnDev) : (modWdn d f).regs = d.regs := rfl
@[simp] theorem modWdn_latch (d : Dev) (f : WdnDev → WdnDev) : (modWdn d f).latch = d.latch := rfl
@[simp] theorem modWdn_staged (d : Dev) (f : WdnDev → WdnDev) : (modWdn d f).staged = d.staged := rfl
@[simp] theorem modWdn_time (d : Dev) (f : WdnDev → WdnDev) : (modWdn d f).time = d.time := rfl
@[simp] theorem modWdn_pkg (d : Dev) (f : WdnDev → WdnDev) : (modWdn d f).pkg = d.pkg := rfl
@[simp] theorem modWdn_ldg (d : Dev) (f : WdnDev → WdnDev) : (modWdn d f).ldg = d.ldg := rfl
@[simp] theorem modWdn_host (d : Dev) (f : WdnDev → WdnDev) : (modWdn d f).host = d.host := rfl
@[simp] theorem modWdn_pld (d : Dev) (f : WdnDev → WdnDev) : (modWdn d f).pld = d.pld := rfl
@[simp] theorem modWdn_world (d : Dev) (f : WdnDev → WdnDev) : (modWdn d f).world = d.world := rfl
@[simp] theorem modWdn_q (d : Dev) (f : WdnDev → WdnDev) : (modWdn d f).q = d.q := rfl
@[simp] theorem modWdn_eng (d : Dev) (f : WdnDev → WdnDev) : (modWdn d f).eng = d.eng := rfl
@[simp] theorem modWdn_ctc (d : Dev) (f : WdnDev → WdnDev) : (modWdn d f).ctc = d.ctc := rfl
@[simp] theorem modWdn_cal (d : Dev) (f : WdnDev → WdnDev) : (modWdn d f).cal = d.cal := rfl
@[simp] theorem modWdn_twin (d : Dev) (f : WdnDev → WdnDev) : (modWdn d f).twin = d.twin := rfl
@[simp] theorem modWdn_fab (d : Dev) (f : WdnDev → WdnDev) : (modWdn d f).fab = d.fab := rfl
@[simp] theorem modWdn_pin (d : Dev) (f : WdnDev → WdnDev) : (modWdn d f).pin = d.pin := rfl
@[simp] theorem modWdn_mon (d : Dev) (f : WdnDev → WdnDev) : (modWdn d f).mon = d.mon := rfl
@[simp] theorem modWdn_img (d : Dev) (f : WdnDev → WdnDev) : (modWdn d f).img = d.img := rfl
@[simp] theorem modWdn_free (d : Dev) (f : WdnDev → WdnDev) : (modWdn d f).free = d.free := rfl
@[simp] theorem modWdn_out (d : Dev) (f : WdnDev → WdnDev) : (modWdn d f).out = d.out := rfl
@[simp] theorem modRec_regs (d : Dev) (k : Nat) (f : WRec → WRec) : (modRec d k f).regs = d.regs := rfl
@[simp] theorem modRec_latch (d : Dev) (k : Nat) (f : WRec → WRec) : (modRec d k f).latch = d.latch := rfl
@[simp] theorem modRec_staged (d : Dev) (k : Nat) (f : WRec → WRec) : (modRec d k f).staged = d.staged := rfl
@[simp] theorem modRec_time (d : Dev) (k : Nat) (f : WRec → WRec) : (modRec d k f).time = d.time := rfl
@[simp] theorem modRec_pkg (d : Dev) (k : Nat) (f : WRec → WRec) : (modRec d k f).pkg = d.pkg := rfl
@[simp] theorem modRec_ldg (d : Dev) (k : Nat) (f : WRec → WRec) : (modRec d k f).ldg = d.ldg := rfl
@[simp] theorem modRec_host (d : Dev) (k : Nat) (f : WRec → WRec) : (modRec d k f).host = d.host := rfl
@[simp] theorem modRec_pld (d : Dev) (k : Nat) (f : WRec → WRec) : (modRec d k f).pld = d.pld := rfl
@[simp] theorem modRec_world (d : Dev) (k : Nat) (f : WRec → WRec) : (modRec d k f).world = d.world := rfl
@[simp] theorem modRec_q (d : Dev) (k : Nat) (f : WRec → WRec) : (modRec d k f).q = d.q := rfl
@[simp] theorem modRec_eng (d : Dev) (k : Nat) (f : WRec → WRec) : (modRec d k f).eng = d.eng := rfl
@[simp] theorem modRec_ctc (d : Dev) (k : Nat) (f : WRec → WRec) : (modRec d k f).ctc = d.ctc := rfl
@[simp] theorem modRec_cal (d : Dev) (k : Nat) (f : WRec → WRec) : (modRec d k f).cal = d.cal := rfl
@[simp] theorem modRec_twin (d : Dev) (k : Nat) (f : WRec → WRec) : (modRec d k f).twin = d.twin := rfl
@[simp] theorem modRec_fab (d : Dev) (k : Nat) (f : WRec → WRec) : (modRec d k f).fab = d.fab := rfl
@[simp] theorem modRec_pin (d : Dev) (k : Nat) (f : WRec → WRec) : (modRec d k f).pin = d.pin := rfl
@[simp] theorem modRec_mon (d : Dev) (k : Nat) (f : WRec → WRec) : (modRec d k f).mon = d.mon := rfl
@[simp] theorem modRec_img (d : Dev) (k : Nat) (f : WRec → WRec) : (modRec d k f).img = d.img := rfl
@[simp] theorem modRec_free (d : Dev) (k : Nat) (f : WRec → WRec) : (modRec d k f).free = d.free := rfl
@[simp] theorem modRec_out (d : Dev) (k : Nat) (f : WRec → WRec) : (modRec d k f).out = d.out := rfl
@[simp] theorem modLdg_regs (d : Dev) (f : LdgRec → LdgRec) : (modLdg d f).regs = d.regs := rfl
@[simp] theorem modLdg_latch (d : Dev) (f : LdgRec → LdgRec) : (modLdg d f).latch = d.latch := rfl
@[simp] theorem modLdg_staged (d : Dev) (f : LdgRec → LdgRec) : (modLdg d f).staged = d.staged := rfl
@[simp] theorem modLdg_time (d : Dev) (f : LdgRec → LdgRec) : (modLdg d f).time = d.time := rfl
@[simp] theorem modLdg_pkg (d : Dev) (f : LdgRec → LdgRec) : (modLdg d f).pkg = d.pkg := rfl
@[simp] theorem modLdg_host (d : Dev) (f : LdgRec → LdgRec) : (modLdg d f).host = d.host := rfl
@[simp] theorem modLdg_pld (d : Dev) (f : LdgRec → LdgRec) : (modLdg d f).pld = d.pld := rfl
@[simp] theorem modLdg_world (d : Dev) (f : LdgRec → LdgRec) : (modLdg d f).world = d.world := rfl
@[simp] theorem modLdg_q (d : Dev) (f : LdgRec → LdgRec) : (modLdg d f).q = d.q := rfl
@[simp] theorem modLdg_eng (d : Dev) (f : LdgRec → LdgRec) : (modLdg d f).eng = d.eng := rfl
@[simp] theorem modLdg_ctc (d : Dev) (f : LdgRec → LdgRec) : (modLdg d f).ctc = d.ctc := rfl
@[simp] theorem modLdg_cal (d : Dev) (f : LdgRec → LdgRec) : (modLdg d f).cal = d.cal := rfl
@[simp] theorem modLdg_wdn (d : Dev) (f : LdgRec → LdgRec) : (modLdg d f).wdn = d.wdn := rfl
@[simp] theorem modLdg_twin (d : Dev) (f : LdgRec → LdgRec) : (modLdg d f).twin = d.twin := rfl
@[simp] theorem modLdg_fab (d : Dev) (f : LdgRec → LdgRec) : (modLdg d f).fab = d.fab := rfl
@[simp] theorem modLdg_pin (d : Dev) (f : LdgRec → LdgRec) : (modLdg d f).pin = d.pin := rfl
@[simp] theorem modLdg_mon (d : Dev) (f : LdgRec → LdgRec) : (modLdg d f).mon = d.mon := rfl
@[simp] theorem modLdg_img (d : Dev) (f : LdgRec → LdgRec) : (modLdg d f).img = d.img := rfl
@[simp] theorem modLdg_free (d : Dev) (f : LdgRec → LdgRec) : (modLdg d f).free = d.free := rfl
@[simp] theorem modLdg_out (d : Dev) (f : LdgRec → LdgRec) : (modLdg d f).out = d.out := rfl
@[simp] theorem modLathe_regs (d : Dev) (die : Nat) (f : LatheRec → LatheRec) : (modLathe d die f).regs = d.regs := rfl
@[simp] theorem modLathe_latch (d : Dev) (die : Nat) (f : LatheRec → LatheRec) : (modLathe d die f).latch = d.latch := rfl
@[simp] theorem modLathe_staged (d : Dev) (die : Nat) (f : LatheRec → LatheRec) : (modLathe d die f).staged = d.staged := rfl
@[simp] theorem modLathe_time (d : Dev) (die : Nat) (f : LatheRec → LatheRec) : (modLathe d die f).time = d.time := rfl
@[simp] theorem modLathe_pkg (d : Dev) (die : Nat) (f : LatheRec → LatheRec) : (modLathe d die f).pkg = d.pkg := rfl
@[simp] theorem modLathe_ldg (d : Dev) (die : Nat) (f : LatheRec → LatheRec) : (modLathe d die f).ldg = d.ldg := rfl
@[simp] theorem modLathe_host (d : Dev) (die : Nat) (f : LatheRec → LatheRec) : (modLathe d die f).host = d.host := rfl
@[simp] theorem modLathe_pld (d : Dev) (die : Nat) (f : LatheRec → LatheRec) : (modLathe d die f).pld = d.pld := rfl
@[simp] theorem modLathe_world (d : Dev) (die : Nat) (f : LatheRec → LatheRec) : (modLathe d die f).world = d.world := rfl
@[simp] theorem modLathe_q (d : Dev) (die : Nat) (f : LatheRec → LatheRec) : (modLathe d die f).q = d.q := rfl
@[simp] theorem modLathe_ctc (d : Dev) (die : Nat) (f : LatheRec → LatheRec) : (modLathe d die f).ctc = d.ctc := rfl
@[simp] theorem modLathe_cal (d : Dev) (die : Nat) (f : LatheRec → LatheRec) : (modLathe d die f).cal = d.cal := rfl
@[simp] theorem modLathe_wdn (d : Dev) (die : Nat) (f : LatheRec → LatheRec) : (modLathe d die f).wdn = d.wdn := rfl
@[simp] theorem modLathe_twin (d : Dev) (die : Nat) (f : LatheRec → LatheRec) : (modLathe d die f).twin = d.twin := rfl
@[simp] theorem modLathe_fab (d : Dev) (die : Nat) (f : LatheRec → LatheRec) : (modLathe d die f).fab = d.fab := rfl
@[simp] theorem modLathe_pin (d : Dev) (die : Nat) (f : LatheRec → LatheRec) : (modLathe d die f).pin = d.pin := rfl
@[simp] theorem modLathe_mon (d : Dev) (die : Nat) (f : LatheRec → LatheRec) : (modLathe d die f).mon = d.mon := rfl
@[simp] theorem modLathe_img (d : Dev) (die : Nat) (f : LatheRec → LatheRec) : (modLathe d die f).img = d.img := rfl
@[simp] theorem modLathe_free (d : Dev) (die : Nat) (f : LatheRec → LatheRec) : (modLathe d die f).free = d.free := rfl
@[simp] theorem modLathe_out (d : Dev) (die : Nat) (f : LatheRec → LatheRec) : (modLathe d die f).out = d.out := rfl
@[simp] theorem modUnit_regs (d : Dev) (die unit : Nat) (f : UnitQ → UnitQ) : (modUnit d die unit f).regs = d.regs := rfl
@[simp] theorem modUnit_latch (d : Dev) (die unit : Nat) (f : UnitQ → UnitQ) : (modUnit d die unit f).latch = d.latch := rfl
@[simp] theorem modUnit_staged (d : Dev) (die unit : Nat) (f : UnitQ → UnitQ) : (modUnit d die unit f).staged = d.staged := rfl
@[simp] theorem modUnit_time (d : Dev) (die unit : Nat) (f : UnitQ → UnitQ) : (modUnit d die unit f).time = d.time := rfl
@[simp] theorem modUnit_pkg (d : Dev) (die unit : Nat) (f : UnitQ → UnitQ) : (modUnit d die unit f).pkg = d.pkg := rfl
@[simp] theorem modUnit_ldg (d : Dev) (die unit : Nat) (f : UnitQ → UnitQ) : (modUnit d die unit f).ldg = d.ldg := rfl
@[simp] theorem modUnit_host (d : Dev) (die unit : Nat) (f : UnitQ → UnitQ) : (modUnit d die unit f).host = d.host := rfl
@[simp] theorem modUnit_pld (d : Dev) (die unit : Nat) (f : UnitQ → UnitQ) : (modUnit d die unit f).pld = d.pld := rfl
@[simp] theorem modUnit_world (d : Dev) (die unit : Nat) (f : UnitQ → UnitQ) : (modUnit d die unit f).world = d.world := rfl
@[simp] theorem modUnit_q (d : Dev) (die unit : Nat) (f : UnitQ → UnitQ) : (modUnit d die unit f).q = d.q := rfl
@[simp] theorem modUnit_ctc (d : Dev) (die unit : Nat) (f : UnitQ → UnitQ) : (modUnit d die unit f).ctc = d.ctc := rfl
@[simp] theorem modUnit_cal (d : Dev) (die unit : Nat) (f : UnitQ → UnitQ) : (modUnit d die unit f).cal = d.cal := rfl
@[simp] theorem modUnit_wdn (d : Dev) (die unit : Nat) (f : UnitQ → UnitQ) : (modUnit d die unit f).wdn = d.wdn := rfl
@[simp] theorem modUnit_twin (d : Dev) (die unit : Nat) (f : UnitQ → UnitQ) : (modUnit d die unit f).twin = d.twin := rfl
@[simp] theorem modUnit_fab (d : Dev) (die unit : Nat) (f : UnitQ → UnitQ) : (modUnit d die unit f).fab = d.fab := rfl
@[simp] theorem modUnit_pin (d : Dev) (die unit : Nat) (f : UnitQ → UnitQ) : (modUnit d die unit f).pin = d.pin := rfl
@[simp] theorem modUnit_mon (d : Dev) (die unit : Nat) (f : UnitQ → UnitQ) : (modUnit d die unit f).mon = d.mon := rfl
@[simp] theorem modUnit_img (d : Dev) (die unit : Nat) (f : UnitQ → UnitQ) : (modUnit d die unit f).img = d.img := rfl
@[simp] theorem modUnit_free (d : Dev) (die unit : Nat) (f : UnitQ → UnitQ) : (modUnit d die unit f).free = d.free := rfl
@[simp] theorem modUnit_out (d : Dev) (die unit : Nat) (f : UnitQ → UnitQ) : (modUnit d die unit f).out = d.out := rfl
@[simp] theorem modCore_regs (d : Dev) (die core : Nat) (f : CoreRec → CoreRec) : (modCore d die core f).regs = d.regs := rfl
@[simp] theorem modCore_latch (d : Dev) (die core : Nat) (f : CoreRec → CoreRec) : (modCore d die core f).latch = d.latch := rfl
@[simp] theorem modCore_staged (d : Dev) (die core : Nat) (f : CoreRec → CoreRec) : (modCore d die core f).staged = d.staged := rfl
@[simp] theorem modCore_time (d : Dev) (die core : Nat) (f : CoreRec → CoreRec) : (modCore d die core f).time = d.time := rfl
@[simp] theorem modCore_pkg (d : Dev) (die core : Nat) (f : CoreRec → CoreRec) : (modCore d die core f).pkg = d.pkg := rfl
@[simp] theorem modCore_ldg (d : Dev) (die core : Nat) (f : CoreRec → CoreRec) : (modCore d die core f).ldg = d.ldg := rfl
@[simp] theorem modCore_host (d : Dev) (die core : Nat) (f : CoreRec → CoreRec) : (modCore d die core f).host = d.host := rfl
@[simp] theorem modCore_pld (d : Dev) (die core : Nat) (f : CoreRec → CoreRec) : (modCore d die core f).pld = d.pld := rfl
@[simp] theorem modCore_world (d : Dev) (die core : Nat) (f : CoreRec → CoreRec) : (modCore d die core f).world = d.world := rfl
@[simp] theorem modCore_q (d : Dev) (die core : Nat) (f : CoreRec → CoreRec) : (modCore d die core f).q = d.q := rfl
@[simp] theorem modCore_eng (d : Dev) (die core : Nat) (f : CoreRec → CoreRec) : (modCore d die core f).eng = d.eng := rfl
@[simp] theorem modCore_cal (d : Dev) (die core : Nat) (f : CoreRec → CoreRec) : (modCore d die core f).cal = d.cal := rfl
@[simp] theorem modCore_wdn (d : Dev) (die core : Nat) (f : CoreRec → CoreRec) : (modCore d die core f).wdn = d.wdn := rfl
@[simp] theorem modCore_twin (d : Dev) (die core : Nat) (f : CoreRec → CoreRec) : (modCore d die core f).twin = d.twin := rfl
@[simp] theorem modCore_fab (d : Dev) (die core : Nat) (f : CoreRec → CoreRec) : (modCore d die core f).fab = d.fab := rfl
@[simp] theorem modCore_pin (d : Dev) (die core : Nat) (f : CoreRec → CoreRec) : (modCore d die core f).pin = d.pin := rfl
@[simp] theorem modCore_mon (d : Dev) (die core : Nat) (f : CoreRec → CoreRec) : (modCore d die core f).mon = d.mon := rfl
@[simp] theorem modCore_img (d : Dev) (die core : Nat) (f : CoreRec → CoreRec) : (modCore d die core f).img = d.img := rfl
@[simp] theorem modCore_free (d : Dev) (die core : Nat) (f : CoreRec → CoreRec) : (modCore d die core f).free = d.free := rfl
@[simp] theorem modCore_out (d : Dev) (die core : Nat) (f : CoreRec → CoreRec) : (modCore d die core f).out = d.out := rfl
@[simp] theorem modSched_regs (d : Dev) (die : Nat) (f : SchedRec → SchedRec) : (modSched d die f).regs = d.regs := rfl
@[simp] theorem modSched_latch (d : Dev) (die : Nat) (f : SchedRec → SchedRec) : (modSched d die f).latch = d.latch := rfl
@[simp] theorem modSched_staged (d : Dev) (die : Nat) (f : SchedRec → SchedRec) : (modSched d die f).staged = d.staged := rfl
@[simp] theorem modSched_time (d : Dev) (die : Nat) (f : SchedRec → SchedRec) : (modSched d die f).time = d.time := rfl
@[simp] theorem modSched_pkg (d : Dev) (die : Nat) (f : SchedRec → SchedRec) : (modSched d die f).pkg = d.pkg := rfl
@[simp] theorem modSched_ldg (d : Dev) (die : Nat) (f : SchedRec → SchedRec) : (modSched d die f).ldg = d.ldg := rfl
@[simp] theorem modSched_host (d : Dev) (die : Nat) (f : SchedRec → SchedRec) : (modSched d die f).host = d.host := rfl
@[simp] theorem modSched_pld (d : Dev) (die : Nat) (f : SchedRec → SchedRec) : (modSched d die f).pld = d.pld := rfl
@[simp] theorem modSched_world (d : Dev) (die : Nat) (f : SchedRec → SchedRec) : (modSched d die f).world = d.world := rfl
@[simp] theorem modSched_q (d : Dev) (die : Nat) (f : SchedRec → SchedRec) : (modSched d die f).q = d.q := rfl
@[simp] theorem modSched_eng (d : Dev) (die : Nat) (f : SchedRec → SchedRec) : (modSched d die f).eng = d.eng := rfl
@[simp] theorem modSched_cal (d : Dev) (die : Nat) (f : SchedRec → SchedRec) : (modSched d die f).cal = d.cal := rfl
@[simp] theorem modSched_wdn (d : Dev) (die : Nat) (f : SchedRec → SchedRec) : (modSched d die f).wdn = d.wdn := rfl
@[simp] theorem modSched_twin (d : Dev) (die : Nat) (f : SchedRec → SchedRec) : (modSched d die f).twin = d.twin := rfl
@[simp] theorem modSched_fab (d : Dev) (die : Nat) (f : SchedRec → SchedRec) : (modSched d die f).fab = d.fab := rfl
@[simp] theorem modSched_pin (d : Dev) (die : Nat) (f : SchedRec → SchedRec) : (modSched d die f).pin = d.pin := rfl
@[simp] theorem modSched_mon (d : Dev) (die : Nat) (f : SchedRec → SchedRec) : (modSched d die f).mon = d.mon := rfl
@[simp] theorem modSched_img (d : Dev) (die : Nat) (f : SchedRec → SchedRec) : (modSched d die f).img = d.img := rfl
@[simp] theorem modSched_free (d : Dev) (die : Nat) (f : SchedRec → SchedRec) : (modSched d die f).free = d.free := rfl
@[simp] theorem modSched_out (d : Dev) (die : Nat) (f : SchedRec → SchedRec) : (modSched d die f).out = d.out := rfl
@[simp] theorem cnt_latch (d : Dev) (o n : Nat) : (cnt d o n).latch = d.latch := by unfold cnt; split <;> rfl
@[simp] theorem cnt_staged (d : Dev) (o n : Nat) : (cnt d o n).staged = d.staged := by unfold cnt; split <;> rfl
@[simp] theorem cnt_time (d : Dev) (o n : Nat) : (cnt d o n).time = d.time := by unfold cnt; split <;> rfl
@[simp] theorem cnt_pkg (d : Dev) (o n : Nat) : (cnt d o n).pkg = d.pkg := by unfold cnt; split <;> rfl
@[simp] theorem cnt_ldg (d : Dev) (o n : Nat) : (cnt d o n).ldg = d.ldg := by unfold cnt; split <;> rfl
@[simp] theorem cnt_host (d : Dev) (o n : Nat) : (cnt d o n).host = d.host := by unfold cnt; split <;> rfl
@[simp] theorem cnt_pld (d : Dev) (o n : Nat) : (cnt d o n).pld = d.pld := by unfold cnt; split <;> rfl
@[simp] theorem cnt_world (d : Dev) (o n : Nat) : (cnt d o n).world = d.world := by unfold cnt; split <;> rfl
@[simp] theorem cnt_q (d : Dev) (o n : Nat) : (cnt d o n).q = d.q := by unfold cnt; split <;> rfl
@[simp] theorem cnt_eng (d : Dev) (o n : Nat) : (cnt d o n).eng = d.eng := by unfold cnt; split <;> rfl
@[simp] theorem cnt_ctc (d : Dev) (o n : Nat) : (cnt d o n).ctc = d.ctc := by unfold cnt; split <;> rfl
@[simp] theorem cnt_cal (d : Dev) (o n : Nat) : (cnt d o n).cal = d.cal := by unfold cnt; split <;> rfl
@[simp] theorem cnt_wdn (d : Dev) (o n : Nat) : (cnt d o n).wdn = d.wdn := by unfold cnt; split <;> rfl
@[simp] theorem cnt_twin (d : Dev) (o n : Nat) : (cnt d o n).twin = d.twin := by unfold cnt; split <;> rfl
@[simp] theorem cnt_fab (d : Dev) (o n : Nat) : (cnt d o n).fab = d.fab := by unfold cnt; split <;> rfl
@[simp] theorem cnt_pin (d : Dev) (o n : Nat) : (cnt d o n).pin = d.pin := by unfold cnt; split <;> rfl
@[simp] theorem cnt_mon (d : Dev) (o n : Nat) : (cnt d o n).mon = d.mon := by unfold cnt; split <;> rfl
@[simp] theorem cnt_img (d : Dev) (o n : Nat) : (cnt d o n).img = d.img := by unfold cnt; split <;> rfl
@[simp] theorem cnt_free (d : Dev) (o n : Nat) : (cnt d o n).free = d.free := by unfold cnt; split <;> rfl
@[simp] theorem cnt_out (d : Dev) (o n : Nat) : (cnt d o n).out = d.out := by unfold cnt; split <;> rfl
@[simp] theorem cntWrap_latch (d : Dev) (o n : Nat) : (cntWrap d o n).latch = d.latch := by unfold cntWrap; split <;> rfl
@[simp] theorem cntWrap_staged (d : Dev) (o n : Nat) : (cntWrap d o n).staged = d.staged := by unfold cntWrap; split <;> rfl
@[simp] theorem cntWrap_time (d : Dev) (o n : Nat) : (cntWrap d o n).time = d.time := by unfold cntWrap; split <;> rfl
@[simp] theorem cntWrap_pkg (d : Dev) (o n : Nat) : (cntWrap d o n).pkg = d.pkg := by unfold cntWrap; split <;> rfl
@[simp] theorem cntWrap_ldg (d : Dev) (o n : Nat) : (cntWrap d o n).ldg = d.ldg := by unfold cntWrap; split <;> rfl
@[simp] theorem cntWrap_host (d : Dev) (o n : Nat) : (cntWrap d o n).host = d.host := by unfold cntWrap; split <;> rfl
@[simp] theorem cntWrap_pld (d : Dev) (o n : Nat) : (cntWrap d o n).pld = d.pld := by unfold cntWrap; split <;> rfl
@[simp] theorem cntWrap_world (d : Dev) (o n : Nat) : (cntWrap d o n).world = d.world := by unfold cntWrap; split <;> rfl
@[simp] theorem cntWrap_q (d : Dev) (o n : Nat) : (cntWrap d o n).q = d.q := by unfold cntWrap; split <;> rfl
@[simp] theorem cntWrap_eng (d : Dev) (o n : Nat) : (cntWrap d o n).eng = d.eng := by unfold cntWrap; split <;> rfl
@[simp] theorem cntWrap_ctc (d : Dev) (o n : Nat) : (cntWrap d o n).ctc = d.ctc := by unfold cntWrap; split <;> rfl
@[simp] theorem cntWrap_cal (d : Dev) (o n : Nat) : (cntWrap d o n).cal = d.cal := by unfold cntWrap; split <;> rfl
@[simp] theorem cntWrap_wdn (d : Dev) (o n : Nat) : (cntWrap d o n).wdn = d.wdn := by unfold cntWrap; split <;> rfl
@[simp] theorem cntWrap_twin (d : Dev) (o n : Nat) : (cntWrap d o n).twin = d.twin := by unfold cntWrap; split <;> rfl
@[simp] theorem cntWrap_fab (d : Dev) (o n : Nat) : (cntWrap d o n).fab = d.fab := by unfold cntWrap; split <;> rfl
@[simp] theorem cntWrap_pin (d : Dev) (o n : Nat) : (cntWrap d o n).pin = d.pin := by unfold cntWrap; split <;> rfl
@[simp] theorem cntWrap_mon (d : Dev) (o n : Nat) : (cntWrap d o n).mon = d.mon := by unfold cntWrap; split <;> rfl
@[simp] theorem cntWrap_img (d : Dev) (o n : Nat) : (cntWrap d o n).img = d.img := by unfold cntWrap; split <;> rfl
@[simp] theorem cntWrap_free (d : Dev) (o n : Nat) : (cntWrap d o n).free = d.free := by unfold cntWrap; split <;> rfl
@[simp] theorem cntWrap_out (d : Dev) (o n : Nat) : (cntWrap d o n).out = d.out := by unfold cntWrap; split <;> rfl
@[simp] theorem cnt64_latch (d : Dev) (o n : Nat) : (cnt64 d o n).latch = d.latch := by unfold cnt64; split <;> rfl
@[simp] theorem cnt64_staged (d : Dev) (o n : Nat) : (cnt64 d o n).staged = d.staged := by unfold cnt64; split <;> rfl
@[simp] theorem cnt64_time (d : Dev) (o n : Nat) : (cnt64 d o n).time = d.time := by unfold cnt64; split <;> rfl
@[simp] theorem cnt64_pkg (d : Dev) (o n : Nat) : (cnt64 d o n).pkg = d.pkg := by unfold cnt64; split <;> rfl
@[simp] theorem cnt64_ldg (d : Dev) (o n : Nat) : (cnt64 d o n).ldg = d.ldg := by unfold cnt64; split <;> rfl
@[simp] theorem cnt64_host (d : Dev) (o n : Nat) : (cnt64 d o n).host = d.host := by unfold cnt64; split <;> rfl
@[simp] theorem cnt64_pld (d : Dev) (o n : Nat) : (cnt64 d o n).pld = d.pld := by unfold cnt64; split <;> rfl
@[simp] theorem cnt64_world (d : Dev) (o n : Nat) : (cnt64 d o n).world = d.world := by unfold cnt64; split <;> rfl
@[simp] theorem cnt64_q (d : Dev) (o n : Nat) : (cnt64 d o n).q = d.q := by unfold cnt64; split <;> rfl
@[simp] theorem cnt64_eng (d : Dev) (o n : Nat) : (cnt64 d o n).eng = d.eng := by unfold cnt64; split <;> rfl
@[simp] theorem cnt64_ctc (d : Dev) (o n : Nat) : (cnt64 d o n).ctc = d.ctc := by unfold cnt64; split <;> rfl
@[simp] theorem cnt64_cal (d : Dev) (o n : Nat) : (cnt64 d o n).cal = d.cal := by unfold cnt64; split <;> rfl
@[simp] theorem cnt64_wdn (d : Dev) (o n : Nat) : (cnt64 d o n).wdn = d.wdn := by unfold cnt64; split <;> rfl
@[simp] theorem cnt64_twin (d : Dev) (o n : Nat) : (cnt64 d o n).twin = d.twin := by unfold cnt64; split <;> rfl
@[simp] theorem cnt64_fab (d : Dev) (o n : Nat) : (cnt64 d o n).fab = d.fab := by unfold cnt64; split <;> rfl
@[simp] theorem cnt64_pin (d : Dev) (o n : Nat) : (cnt64 d o n).pin = d.pin := by unfold cnt64; split <;> rfl
@[simp] theorem cnt64_mon (d : Dev) (o n : Nat) : (cnt64 d o n).mon = d.mon := by unfold cnt64; split <;> rfl
@[simp] theorem cnt64_img (d : Dev) (o n : Nat) : (cnt64 d o n).img = d.img := by unfold cnt64; split <;> rfl
@[simp] theorem cnt64_free (d : Dev) (o n : Nat) : (cnt64 d o n).free = d.free := by unfold cnt64; split <;> rfl
@[simp] theorem cnt64_out (d : Dev) (o n : Nat) : (cnt64 d o n).out = d.out := by unfold cnt64; split <;> rfl

end Sys2Proof.Machine
end

