-- ==== Sys2Proof/Tests/Slice0.lean ====
section
/-! SUPPORT. The model's own tests: ill-formed commands that WellFormed refuses, states that meet the hypotheses of the obligations, and single steps on
small states. -/
namespace Sys2Proof.Tests
open Sys2Proof.Machine
set_option Elab.async false

/-! ### Small states -/

/-- The machine with another device. -/
def onReset (f : Dev → Dev) : State := State.reset.withDev (f Dev.reset)
/-- A command of polder `p` with a parameter block. -/
def cmdOfBlock (p : Nat) (b : Bytes) : Cmd := { (default : Cmd) with polder := p, origin := .host p 0, block := b }
/-- A 16-bit number. -/
def w2 (n : Nat) : Bytes := leBytes 2 n
/-- A kinematic model with no joint and one sphere. -/
def kinTest : Bytes := [1, 0, 1, 1, 0, 0, 0, 0] ++ zeros 12 ++ ([0, 0x40] ++ zeros 6) ++ zeros 36 ++ (zeros 16 ++ leBytes 4 100 ++ zeros 4)
/-- A model that polder 0 owns, with one version. -/
def modelTest : ModelRec := { (default : ModelRec) with kind := 1, vers := [{ ver := 0, raw := kinTest }] }
/-- A map that polder 0 owns: 2^20 units wide on every axis. -/
def mapTest : MapRec := { (default : MapRec) with boxMax := ⟨1048576, 1048576, 1048576⟩, k := 12, sliceMs := 50, model := none, pinHoldMax := 25, born := true }
/-- A stream of agent states. -/
def streamTest : StreamRec := { (default : StreamRec) with kind := 3, rate := 1000, timeoutMs := 100, bucket := 16000000000 }
/-- A package with polder 1 beside polder 0, and one object of every kind of polder 0. -/
def objects (d : Dev) : Dev :=
  { d with regs := d.regs ++ [(0x100808, 2700)], pld := [(0, { polder0 with quotaStore := 1000 }), (1, { polder0 with quotaStore := 1000 })],
           world := { d.world with models := [(0, modelTest)], maps := [(0, mapTest)], sets := [(0, { (default : SetRec) with kind := 1 })], streams := [(0, streamTest)] } }
/-- A package whose monitor and registers can be reached. -/
def awake (d : Dev) : Dev := { d with pin := { d.pin with stage := 8, ready := true } }
/-- A lattice set over model 0, with one primitive of one step. -/
def setTest : Bytes :=
  [1, 1, 0, 0] ++ leBytes 4 1 ++ w2 0 ++ [8, 8, 0] ++ zeros 51 ++ (zeros 4 ++ [1] ++ zeros 7 ++ leBytes 4 1000000 ++ zeros 16 ++ zeros 12)

/-! ### Hypotheses that hold: models, maps, streams, agents -/

/-- The device with one object of every kind. -/
def dObj : Dev := objects Dev.reset
/-- A pair of queues of polder 1 that is enabled. -/
def dPair : Dev := { dObj with host := { dObj.host with pairs := [(pairKey 1 0, { (default : PairRec) with enabled := true })] } }

/-- NopAnswersOk. -/
theorem witness_NopAnswersOk :
    (cmdOfBlock 1 []).origin = .host 1 0 ∧ tget dPair.host.pairs (pairKey 1 0) = some { (default : PairRec) with enabled := true } ∧
      ({ (default : PairRec) with enabled := true } : PairRec).enabled = true := by decide +kernel
/-- A joint-space set of model 0 with one primitive over one joint step. -/
def setBlock (h : Nat) : Bytes := w2 h ++ zeros 6 ++ setTest
/-- The hypotheses of ModelCommandsRun: a new model at handle 0xFFFF, a new definition of model 0. -/
theorem witness_ModelCommandsRun_define :
    (let c := cmdOfBlock 0 (w2 0xffff ++ zeros 6 ++ kinTest); firstFail (modelDefineTests dObj c) = none ∧ fld c.block 0 2 = 0xffff) ∧
    (let c := cmdOfBlock 0 (w2 0 ++ zeros 6 ++ kinTest); firstFail (modelDefineTests dObj c) = none ∧ fld c.block 0 2 ≠ 0xffff) := by decide +kernel
/-- ModelCommandsRun: a set is loaded, under a new handle and over an old one. -/
theorem witness_ModelCommandsRun_load :
    firstFail (primsetLoadTests dObj (cmdOfBlock 0 (setBlock 0xffff))) = none ∧ firstFail (primsetLoadTests dObj (cmdOfBlock 0 (setBlock 0))) = none := by decide +kernel
/-- ModelCommandsRun: a model and a set that nothing holds; a build with its model version. -/
theorem witness_ModelCommandsRun_free :
    (let c := cmdOfBlock 0 (w2 0 ++ zeros 2); let d := { dObj with world := { dObj.world with sets := [] } };
      c.block.length = 4 ∧ allZero (slice c.block 2 2) = true ∧ tget d.world.models (fld c.block 0 2) = some modelTest ∧
      modelTest.owner = c.polder ∧ modelHeld d (fld c.block 0 2) modelTest = false) ∧
    (let c := cmdOfBlock 0 (w2 0 ++ zeros 2); let p := { (default : SetRec) with kind := 1 };
      c.block.length = 4 ∧ allZero (slice c.block 2 2) = true ∧ tget dObj.world.sets (fld c.block 0 2) = some p ∧ p.owner = c.polder ∧
      setHeld dObj (fld c.block 0 2) p = false) ∧
    (let b := { (default : SetBuild) with modelVer := some (0, kinTest) }; let p := { (default : SetRec) with build := some b };
      tget [(7, p)] 7 = some p ∧ p.build = some b ∧ b.modelVer = some (0, kinTest)) := by decide +kernel

/-- The parameter block of MAP_CREATE for the box of `mapTest`, of `owner`. -/
def mapBlock (owner : Nat) : Bytes :=
  leBytes 1 owner ++ zeros 3 ++ w2 0xffff ++ zeros 6 ++ zeros 12 ++ leBytes 4 1048576 ++ leBytes 4 1048576 ++ leBytes 4 1048576
/-- An update block with one body-less record: clear the hard plane. -/
def updClear : Bytes := w2 0 ++ zeros 6 ++ ([6, 0] ++ zeros 6)
/-- An update block that adds a sphere of radius 100 as object 5. -/
def updSphere : Bytes :=
  w2 0 ++ zeros 6 ++ ([1, 0] ++ zeros 2 ++ leBytes 4 64 ++ ([1, 0, 0, 0] ++ leBytes 4 5 ++ leBytes 4 4096 ++ leBytes 4 4096 ++ leBytes 4 4096 ++ leBytes 4 100 ++ zeros 40))
/-- The staged set after an update block, on `mapTest`. -/
def stagedAfter (b : Bytes) : Option Staged :=
  (updRecs ((b.drop 8).length + 1) (b.drop 8)).bind fun rs => (stageAll mapTest (stagedOf mapTest) rs).toOption
/-- The hypotheses of MapCommandsRun on MAP_UPDATE, of a block. -/
def updMeets (b : Bytes) (n : Nat) (statics : Bool) : Bool :=
  (match updRecs ((b.drop 8).length + 1) (b.drop 8) with
    | none => false
    | some rs => rs.length == n && (match stageAll mapTest (stagedOf mapTest) rs with
      | .error _ => false
      | .ok st => decide (st.objs.length ≤ 1048576 ∧ total (st.objs.map fun o => o.2.tris.length) ≤ 16777216 ∧ st.bytes ≤ 67108864 ∧
          storeFull dObj (st.bytes - mapTest.staged.bytes) = false ∧ quotaFull dObj mapTest.owner (st.bytes - mapTest.staged.bytes) = false ∧ st.statics = statics))) &&
    decide (8 ≤ b.length ∧ allZero (slice b 3 5) = true ∧ tget dObj.world.maps (fld b 0 2) = some mapTest ∧ mapTest.removed = false ∧
    isMirrorLocal dObj (fld b 0 2) = false ∧ mapTest.owner = 0)
/-- MapCommandsRun: MAP_CREATE for polder 0 and polder 1. -/
theorem witness_MapCommandsRun_create :
    firstFail (mapCreateTests dObj (cmdOfBlock 0 (mapBlock 0))) = none ∧ firstFail (mapCreateTests dObj (cmdOfBlock 0 (mapBlock 1))) = none := by decide +kernel
/-- MapCommandsRun: MAP_UPDATE with no record, a record on voxels, and one on static geometry. -/
theorem witness_MapCommandsRun_update : updMeets (zeros 8) 0 false = true ∧ updMeets updClear 1 false = true ∧ updMeets updSphere 1 true = true := by
  decide +kernel
/-- MapCommandsRun: MAP_COMMIT of a set without and with static changes; MAP_GRANT at the highest polder; MAP_DESTROY. -/
theorem witness_MapCommandsRun_rest :
    (let c := cmdOfBlock 0 (zeros 4);
      c.block.length = 4 ∧ allZero (slice c.block 2 2) = true ∧ tget dObj.world.maps (fld c.block 0 2) = some mapTest ∧ mapTest.removed = false ∧
      isMirrorLocal dObj (fld c.block 0 2) = false ∧ mapTest.owner = c.polder ∧ mapTest.staged.statics = false ∧ mapHeld dObj (fld c.block 0 2) mapTest = false) ∧
    (let m := { mapTest with staged := { mapTest.staged with statics := true }, build := .ready [] [] }; let d := { dObj with world := { dObj.world with maps := [(0, m)] } };
      tget d.world.maps 0 = some m ∧ m.removed = false ∧ isMirrorLocal d 0 = false ∧ m.staged.statics = true ∧ m.build = .ready [] []) ∧
    (let c := cmdOfBlock 0 [0, 16, 0, 0];
      c.block.length = 4 ∧ fld c.block 0 1 ≤ 63 ∧ fld c.block 1 1 ≤ 16 ∧ fld c.block 2 1 ≤ 1 ∧ fld c.block 3 1 = 0 ∧
      tget dObj.world.maps (fld c.block 0 1) = some mapTest ∧ (mapTest.owner = c.polder ∨ c.polder = 0) ∧ fld c.block 2 1 = 0) := by decide +kernel

/-- The parameter block of STREAM_OPEN of an agent-state stream. -/
def streamBlock : Bytes := [3, 0, 0, 0] ++ leBytes 6 0x020000000001 ++ zeros 38
/-- The parameter block of AGENT_BIND of agent `a` with model 0, home map 0, stream 0 and set 0, and one rung. -/
def bindBlock (a : Nat) : Bytes :=
  w2 a ++ [0, 1] ++ w2 0 ++ [0, 0] ++ (w2 0 ++ w2 0xffff ++ w2 0xffff ++ w2 0xffff) ++ [0, 0] ++ leBytes 6 0x020000000002 ++ w2 7 ++ zeros 6 ++
    (leBytes 4 1 ++ zeros 12) ++ (w2 1 ++ zeros 6) ++ zeros 8
/-- An agent of polder 0. -/
def agentTest : AgentRec := { (default : AgentRec) with bind := bindOf (bindBlock 0), state := 1 }
/-- The device with an agent on stream 0. -/
def dAgent : Dev := { dObj with world := { dObj.world with agents := [(0, agentTest)] } }
/-- StreamAndAgentCommandsRun: a stream opens, one closes. -/
theorem witness_StreamAndAgentCommandsRun_stream :
    firstFail (streamOpenTests dObj (cmdOfBlock 0 streamBlock)) = none ∧
    (let c := cmdOfBlock 0 (zeros 4); c.block.length = 4 ∧ allZero (slice c.block 2 2) = true ∧ fld c.block 0 2 ≤ 127 ∧
      tget dObj.world.streams (fld c.block 0 2) = some streamTest ∧ streamTest.polder = c.polder ∧ streamTest.closeTurn = none ∧ streamHeld dObj (fld c.block 0 2) = false) := by
  decide +kernel
/-- StreamAndAgentCommandsRun: a new agent, a bound one, and one that is unbound. -/
theorem witness_StreamAndAgentCommandsRun_agent :
    (let c := cmdOfBlock 0 (bindBlock 0xffff); fld c.block 2 1 = 0 ∧ firstFail (agentBindTests dObj c) = none ∧ fld c.block 0 2 = 0xffff) ∧
    (let c := cmdOfBlock 0 (bindBlock 0); fld c.block 2 1 = 0 ∧ firstFail (agentBindTests dAgent c) = none ∧ fld c.block 0 2 ≠ 0xffff) ∧
    (let c := cmdOfBlock 0 ([0, 0, 1] ++ zeros 61); c.block.length = 64 ∧ fld c.block 0 2 ≤ 4095 ∧ fld c.block 2 1 = 1 ∧
      tget dAgent.world.agents (fld c.block 0 2) = some agentTest ∧ agentTest.polder = c.polder ∧ agentTest.leaving = false) := by decide +kernel

/-! ### Hypotheses that hold: queries, records, calibration, polders -/

/-- The parameter block of a PLAN of agent 0 on one tile. -/
def planBlock : Bytes := zeros 4 ++ w2 0xffff ++ [0, 1] ++ zeros 4 ++ leBytes 4 1024 ++ zeros 80
/-- A query's command of polder 0 in class `cls`. -/
def queryCmd (cls : Nat) (b : Bytes) : Cmd := { cmdOfBlock 0 b with cls := cls, budget := 100, deadline := 200000, tag := 9 }
/-- The parameter block of a SOLVE of forward kinematics over model 0. -/
def solveBlock : Bytes := [1, 0, 0, 0, 0, 0, 0, 1] ++ w2 1 ++ zeros 18 ++ leBytes 4 1 ++ leBytes 4 1 ++ zeros 12 ++ leBytes 4 16 ++ zeros 12 ++ zeros 16
/-- The parameter block of a SELECT that sorts one element. -/
def selectBlock : Bytes := [1, 0, 1, 0] ++ leBytes 4 1 ++ zeros 4 ++ [0, 1] ++ zeros 50 ++ zeros 8
/-- QueryCommandsRun: a PLAN. -/
theorem witness_QueryCommandsRun_plan :
    let c := queryCmd 1 planBlock
    planRangeOk c (some (kinN (curModelRaw dAgent agentTest.bind.model))) = true ∧ qHeadOk c = true ∧ tagTaken dAgent c.polder c.tag = false ∧
      tget dAgent.world.agents (planOf c).agent = some agentTest ∧ agentTest.polder = c.polder ∧ agentTest.leaving = false ∧
      (planSlots (planOf c) agentTest.bind).isSome = true ∧ ((agentTest.bind.homeMap :: (planOf c).maps).all fun h => mapUsable dAgent c.polder h) = true ∧
      heurOk dAgent c.polder (planOf c).heur = true ∧ sameSlices dAgent (agentTest.bind.homeMap :: (planOf c).maps) = true := by decide +kernel
/-- QueryCommandsRun: a STOP_VERIFY, a SOLVE without and with the agent's state, a SELECT, a PLAN_CANCEL. -/
theorem witness_QueryCommandsRun_rest :
    (let c := queryCmd 0 (zeros 4); c.block.length = 4 ∧ fld c.block 0 2 ≤ 4095 ∧ fld c.block 2 1 ≤ 1 ∧ fld c.block 3 1 = 0 ∧ c.cls = 0 ∧ qHeadOk c = true ∧
      c.origin = .host 0 0 ∧ tagTaken dAgent c.polder c.tag = false ∧ tget dAgent.world.agents (fld c.block 0 2) = some agentTest ∧ agentTest.state ≠ 0) ∧
    (let c := queryCmd 1 solveBlock; solveBlockOk c = true ∧ qHeadOk c = true ∧ solveModelOk (modelDef modelTest) c = true ∧ tagTaken dObj c.polder c.tag = false ∧
      tget dObj.world.models (fld c.block 2 2) = some modelTest ∧ modelTest.owner = c.polder ∧ modelTest.kind = 1 ∧ modelTest.removed = false ∧ modelTest.vers ≠ [] ∧
      bitAt (fld c.block 1 1) 0 = false) ∧
    (let c := queryCmd 1 selectBlock; selBlkOk c.block (c.cls == 0) = true ∧ qHeadOk c = true ∧ tagTaken dObj c.polder c.tag = false) ∧
    (queryCmd 0 selectBlock).cls = 0 ∧ selBlkOk (queryCmd 0 selectBlock).block true = true := by decide +kernel
/-- A query of class 1 in a stage. -/
def queryTest (k : QKind) (g : QStage) : QueryRec := { (default : QueryRec) with kind := k, cmd := queryCmd 1 planBlock, stage := g, expansions := 100 }
/-- The device in turn 50 with one query. -/
def dQuery (q : QueryRec) : Dev := { dAgent with time := { dAgent.time with turn := 50 }, q := { dAgent.q with recs := [(3, q)], next := 4 } }
/-- QueryEndsRun: a search that has used its budget, a computation, a search and queries that wait, each past its deadline turn; tiles on live dies. -/
theorem witness_QueryEndsRun :
    (let q := queryTest .plan .search; tget (dQuery q).q.recs 3 = some q ∧ q.stage = .search ∧ q.cmd.budget ≤ q.expansions ∧
      deadlineTurn (dQuery q) q.cmd ≤ (dQuery q).time.turn ∧ waitsSlot q = false) ∧
    (queryTest .solve .compute).stage = .compute ∧ (queryTest .solve .compute).kind = .solve ∧ (queryTest .select .compute).kind = .select ∧
    (∀ k ∈ [QKind.plan, .select], let q := queryTest k .spilled; deadlineTurn (dQuery q) q.cmd ≤ (dQuery q).time.turn ∧ waitsSlot q = true ∧ q.foreign = false) ∧
    (∀ k ∈ [QKind.plan, .solve, .select], ∀ g ∈ [QStage.search, .compute], stuck (dQuery (queryTest k g)) (queryTest k g) = false) := by decide +kernel

/-- The parameter block of LEDGER_CTL for turn `t`: operation, no buffer length but that of two records. -/
def ctlBlock (op t : Nat) : Bytes := leBytes 8 op ++ leBytes 6 t ++ zeros 2 ++ zeros 8 ++ leBytes 4 96 ++ zeros 4
/-- The device with a ledger record. -/
def dLdg (f : LdgRec → LdgRec) : Dev := { dObj with ldg := f dObj.ldg }
/-- RecordCommandsRun: a SNAPSHOT of the nearest and of the last turn that may be named, its end, the three commands of replay. -/
theorem witness_RecordCommandsRun :
    (let c := cmdOfBlock 0 (ctlBlock 1 2); c.polder = 0 ∧ ctlOk c 1 = true ∧ dObj.time.turn + 2 ≤ ctlTurn c ∧ ctlTurn c ≤ dObj.time.turn + 10000 ∧
      dObj.ldg.replay = false ∧ dObj.ldg.snapshot = none) ∧
    ctlTurn (cmdOfBlock 0 (ctlBlock 1 10000)) = dObj.time.turn + 10000 ∧
    (let c := cmdOfBlock 0 (ctlBlock 1 2); let d := { dLdg (fun l => { l with snapshot := some (2, 0, c) }) with host := { dObj.host with taken := some (takeSnap dObj) } };
      d.ldg.snapshot = some (2, 0, c) ∧ d.host.taken = some (takeSnap dObj)) ∧
    (ctlOk (cmdOfBlock 0 (ctlBlock 2 2)) 2 = true ∧ attached dObj = false ∧ dObj.ldg.preparing = none) ∧
    (let d := dLdg fun l => { l with replay := true }; ctlOk (cmdOfBlock 0 (ctlBlock 3 2)) 3 = true ∧ ctlOk (cmdOfBlock 0 (ctlBlock 4 2)) 4 = true ∧
      d.ldg.replay = true ∧ d.ldg.replayRun = none) := by decide +kernel

/-- The device with one agent and an estimate at a key. -/
def dEst (key : Nat) (e : CalRec) : Dev := { dAgent with cal := { dAgent.cal with est := [(key, e)] }, time := { dAgent.time with turn := 2000000 } }
/-- CalibCommandsRun: CALIB_KIN at the least and the greatest number of samples, CALIB_TIME, CALIB_LANE. -/
theorem witness_CalibCommandsRun :
    (∀ n ∈ [8, 1024], let c := cmdOfBlock 0 (w2 0 ++ w2 0 ++ w2 n ++ [1, 0]);
      c.block.length = 8 ∧ fld c.block 0 2 ≤ 1023 ∧ fld c.block 2 2 ≤ 4095 ∧ fld c.block 7 1 = 0 ∧ tget dAgent.world.models (fld c.block 0 2) = some modelTest ∧
      modelTest.owner = c.polder ∧ modelTest.kind = 1 ∧ tget dAgent.world.agents (fld c.block 2 2) = some agentTest ∧ agentTest.polder = c.polder ∧
      agentTest.bind.model = fld c.block 0 2 ∧ agentTest.leaving = false ∧ fld c.block 6 1 ≤ 1 ∧ 8 ≤ fld c.block 4 2 ∧ fld c.block 4 2 ≤ 1024 ∧ kinRunning dAgent < 16 ∧
      (estOf dAgent (fld c.block 0 2) 1 (fld c.block 0 2)).state = 0) ∧
    (let c := cmdOfBlock 0 [0, 1, 0, 0]; c.block.length = 4 ∧ fld c.block 0 1 ≤ 127 ∧ allZero (slice c.block 2 2) = true ∧
      tget dAgent.world.streams (fld c.block 0 1) = some streamTest ∧ streamTest.polder = c.polder ∧ fld c.block 1 1 ≤ 1 ∧
      (estOf dAgent (1024 + fld c.block 0 1) 2 (fld c.block 0 1)).state = 0) ∧
    (let c := cmdOfBlock 0 (w2 0x3ff ++ [1, 0] ++ leBytes 4 16777216); c.polder = 0 ∧ c.block.length = 8 ∧ fld c.block 0 2 ≤ 0x3ff ∧ fld c.block 3 1 = 0 ∧
      1 ≤ fld c.block 4 4 ∧ fld c.block 4 4 ≤ 2 ^ 24) := by decide +kernel
/-- CalibEventsRun: a fit, a span that is over, an outcome that is due, a good measurement of the last link's higher side. -/
theorem witness_CalibEventsRun :
    (let e := { idleEst 1 0 with state := 2, raw := kinTest }; tget (dEst 0 e).cal.est 0 = some e ∧ e.state = 2 ∧ e.kind = 1) ∧
    (let e := { idleEst 2 0 with state := 1 }; tget (dEst 1024 e).cal.est 1024 = some e ∧ e.state = 1 ∧ e.start + rget (dEst 1024 e) (calBase 0 + 0xC) ≤ (dEst 1024 e).time.turn) ∧
    (let d := { dAgent with cal := { dAgent.cal with outcomes := [(0, idleEst 1 0)] } }; d.cal.outcomes = (0, idleEst 1 0) :: [] ∧ 0 ≤ d.time.turn) ∧
    (let d := { dAgent with cal := { dAgent.cal with lanes := [(19, { (default : LaneRec) with running := true })] } };
      (laneOf d 9 1).running = true ∧ (laneOf d 9 1).stopping = false ∧ (laneOf d 9 1).lane < 64 ∧ running d = false ∧
      (let die := (linkDies 9).2; bits (rget d (calBase die + 0x10)) 7 0 ≤ 255 ∧ bits (rget d (calBase die + 0x10)) 15 8 ≤ 255)) := by decide +kernel

/-- The value block of polder `p` with a slice of `n` cycles. -/
def polderBlock (p n : Nat) : Bytes := [BitVec.ofNat 8 p, 0] ++ w2 1 ++ leBytes 4 1000 ++ w2 n ++ w2 8 ++ [4, 4] ++ w2 8 ++ leBytes 4 0
/-- The device with one polder in state 1 beside polder 0, which owns nothing, and no slice of polder 0. -/
def dPld : Dev := { Dev.reset with pld := [(0, polder0), (1, { polder0 with slice := 0 })] }
/-- PolderCommandsRun: polder 16 is made with all that is free of the berm; polder 1 is changed, reset and destroyed. -/
theorem witness_PolderCommandsRun :
    (let c := cmdOfBlock 0 (polderBlock 16 0); polderRange c.block = true ∧ 1 ≤ fld c.block 0 1 ∧ fld c.block 0 1 ≤ 16 ∧ (polder dPld (fld c.block 0 1)).state = 0 ∧
      (polder dPld (fld c.block 0 1)).creating = false ∧ cfgPolder dPld (fld c.block 0 1) = false ∧ slicesDue dPld 99 + fld c.block 8 2 ≤ bermLen dPld) ∧
    slicesDue dPld 99 + bermFree dPld ≤ bermLen dPld ∧
    (let c := cmdOfBlock 0 (polderBlock 1 100); let p := fld c.block 0 1; polderRange c.block = true ∧ 1 ≤ p ∧ p ≤ 16 ∧ (polder dPld p).state = 1 ∧ cfgPolder dPld p = false ∧
      useQ dPld p ≤ fld c.block 10 2 ∧ mapsOf dPld p ≤ fld c.block 12 1 ∧ streamsOf dPld p ≤ fld c.block 13 1 ∧ agentsOf dPld p ≤ fld c.block 14 2 ∧
      (fld c.block 16 4 = 0 ∨ polderStore dPld p ≤ fld c.block 16 4 * 1048576) ∧ slicesDue dPld p + fld c.block 8 2 ≤ bermLen dPld ∧ sliceHolds dPld p (fld c.block 8 2) = true) ∧
    (let c := cmdOfBlock 0 [1, 0, 0, 0]; let p := fld c.block 0 1; c.block.length = 4 ∧ 1 ≤ p ∧ p ≤ 16 ∧ allZero (slice c.block 1 3) = true ∧ (polder dPld p).state = 1 ∧
      cfgPolder dPld p = false ∧ foreignPin dPld p = false) := by decide +kernel

/-! ### Hypotheses that hold: images, bundles, twins, fabric -/

/-- A program image of one segment of one bundle. -/
def imgTest : Bytes := w2 1 ++ w2 1 ++ leBytes 4 1 ++ zeros 28 ++ w2 1 ++ zeros 26 ++ leBytes 8 (2 ^ 30) ++ zeros 64 ++ zeros 96
/-- The device with an image unit. -/
def dImg (x : ImgDev) : Dev := { dObj with img := x }
/-- ImageCommandsRun. -/
theorem witness_ImageCommandsRun :
    (let c := cmdOfBlock 0 imgTest; c.polder = 0 ∧ imgFormatOk c.block = true ∧ imgRangeOk c.block = true ∧ predsFit dObj c.block = true ∧ dObj.img.at_ = none ∧ dObj.img.loading = none) ∧
    (let c := cmdOfBlock 0 imgTest; (dImg { (default : ImgDev) with loading := some (c, 0) }).img.loading = some (c, 0)) ∧
    (let c := cmdOfBlock 0 (leBytes 6 2 ++ zeros 2); let d := dImg { (default : ImgDev) with standby := true, slots := [(1, { raw := imgTest, ready := true })] };
      c.block.length = 8 ∧ fld c.block 6 2 = 0 ∧ d.img.standby = true ∧ d.time.turn + 1 < fld c.block 0 6 ∧ slotsHold d (imgRaw d (1 - d.img.active)) = true ∧ fabricMember d = false) ∧
    (let d := dImg { (default : ImgDev) with at_ := some 0 }; d.img.at_ = some 0 ∧ 0 ≤ d.time.turn) := by decide +kernel

/-- A bundle body of one empty section of settings. -/
def secTest : Bytes := [6, 0] ++ zeros 14
/-- A bundle of generation 1. -/
def bundleTest : Bytes := leBytes 4 1 ++ w2 1 ++ w2 0 ++ sha256 secTest ++ zeros 24 ++ secTest
/-- The record of a bundle whose settings table is `body`. -/
def bundleRec (body : Bytes) : BundleRec := { gen := 1, digest := zeros 32, secs := [(6, 0, 0, body)] }
/-- The device with a fabric unit. -/
def dFab (f : FabDev → FabDev) : Dev := { dObj with fab := f dObj.fab }
/-- BundleCommandsRun: CFG_STAGE, for generation 1. -/
theorem witness_BundleCommandsRun_stage :
    let c := cmdOfBlock 0 (zeros 8 ++ bundleTest); let raw := c.block.drop 8; let l : List (Nat × Nat × Nat × Bytes) := [(6, 0, 0, [])]
    72 ≤ c.block.length ∧ fld c.block 0 2 = 0 ∧ allZero (slice c.block 3 5) = true ∧ fld raw 6 2 = 0 ∧ allZero (slice raw 40 24) = true ∧ 1 ≤ fld raw 4 2 ∧ fld raw 4 2 ≤ 2048 ∧
      fld raw 0 4 = ((dObj.fab.cfg.map (·.gen)).getD 0 + 1) % 2 ^ 32 ∧ sha256 (raw.drop 64) = slice raw 8 32 ∧ bundleSecs (fld raw 4 2) (raw.drop 64) = some l ∧
      (∀ k ∈ [1, 4, 5, 6], (l.filter fun s => s.1 == k).length ≤ 1) ∧ l.findSome? (secFail dObj l) = none ∧ dObj.fab.commitTurn = none ∧ dObj.ldg.replay = false ∧
      storeFull dObj (bundleStore dObj l) = false ∧ dObj.fab.staging = none := by decide +kernel
/-- BundleCommandsRun: CFG_STAGE_END, CFG_COMMIT at the nearest turn, and a commit turn that has come, of a bundle that fits and of one that does not. -/
theorem witness_BundleCommandsRun_rest :
    (let d := dFab fun f => { f with staging := some (bundleRec [], cmdOfBlock 0 [], 0) }; d.fab.staging = some (bundleRec [], cmdOfBlock 0 [], 0)) ∧
    (let c := cmdOfBlock 0 (leBytes 4 1 ++ leBytes 6 4 ++ zeros 2); let d := dFab fun f => { f with staged := some (bundleRec []) };
      c.block.length = 12 ∧ fld c.block 10 2 = 0 ∧ d.fab.staged = some (bundleRec []) ∧ (bundleRec []).gen = fld c.block 0 4 ∧ d.time.turn + 4 ≤ fld c.block 4 6 ∧
      d.fab.commitTurn = none ∧ d.ldg.replay = false) ∧
    (let d := dFab fun f => { f with staged := some (bundleRec []), commitTurn := some 0 }; d.fab.commitTurn = some 0 ∧ d.fab.staged = some (bundleRec []) ∧ 0 ≤ d.time.turn ∧
      commitFits d (bundleRec []) = true) ∧
    commitFits (dFab id) (bundleRec (leBytes 4 0x100800 ++ leBytes 4 1)) = false := by decide +kernel

/-- A package of a pair, in a role, with its link. -/
def dTwin (r : Role) (f : TwinDev → TwinDev) : Dev :=
  { dAgent with pkg := { dAgent.pkg with twin := true }, twin := f { dAgent.twin with role := r, linkUp := true }, time := { dAgent.time with turn := 100 } }
/-- TwinCommandsRun: the commands of the pair. -/
theorem witness_TwinCommandsRun_pair :
    (let d := dTwin .detached id; d.pkg.twin = true ∧ d.twin.attachCmd = none ∧ d.twin.role = .detached ∧ d.twin.linkUp = true ∧ d.twin.downIn = false) ∧
    (∀ w ∈ [1, 255], ∀ n ∈ [1, 1000000], let c := cmdOfBlock 0 ([1, 63, 1, 0] ++ w2 w ++ w2 0 ++ leBytes 4 n);
      c.polder = 0 ∧ c.block.length = 12 ∧ fld c.block 0 1 ≤ 1 ∧ fld c.block 1 1 ≤ 63 ∧ fld c.block 2 1 ≤ 1 ∧ fld c.block 3 1 = 0 ∧ 1 ≤ fld c.block 4 2 ∧ fld c.block 4 2 ≤ 255 ∧
      fld c.block 6 2 = 0 ∧ 1 ≤ fld c.block 8 4 ∧ fld c.block 8 4 ≤ 1000000) := by decide +kernel
/-- TwinCommandsRun: each state of a fenced die, and the readmission of die 7. -/
theorem witness_TwinCommandsRun_die :
    (∀ n ∈ [1, 2, 3, 4], dieSt (dTwin .solo fun x => { x with dieState := [(7, n)] }) 7 = n) ∧
    (let c := cmdOfBlock 0 [7, 0, 0, 0]; c.block.length = 4 ∧ fld c.block 0 1 = 7 ∧ allZero (slice c.block 1 3) = true) ∧
    (dTwin .solo id).twin.role ≠ .lead ∧ (dTwin .solo id).twin.role ≠ .follow := by decide +kernel
/-- TwinEventsRun. -/
theorem witness_TwinEventsRun :
    (∀ r ∈ [Role.follow, .lead], let d := dTwin r id; d.pkg.twin = true ∧ d.twin.role = r ∧ r ≠ .attaching ∧ r ≠ .detached ∧ d.twin.linkUp = true ∧ 0 = d.twin.rxSeq ∧ 1 ≠ d.twin.rxSeq ∧
      d.twin.downIn = false ∧ d.twin.attach = 0 ∧ attachMsg .idle = false ∧ 65535 ≠ d.twin.gen ∧ newerGen 65535 d.twin.gen = false) ∧
    (let d := dTwin .arbitrating fun x => { x with witGen := some (bits 0x80000001 15 0, 1), arbFrom := some 98 };
      d.twin.role = .arbitrating ∧ d.twin.witGen = some (bits 0x80000001 15 0, 1) ∧ d.twin.witGen = some (bits 1 15 0, 1) ∧ bitAt 0x80000001 31 = true ∧ bitAt 1 31 = false ∧ d.twin.arbFrom = some 98 ∧ 98 + 2 ≤ d.time.turn) := by decide +kernel
/-- A result frame of turn `t` that waits for the twin. -/
def frameTest (t : Nat) : EgFrame := { (default : EgFrame) with turn := t, waits := true }
/-- TwinTurnsRun: entries, a seal of turn 101, digest lists on time and late, frames held, the join. -/
theorem witness_TwinTurnsRun :
    (let d := dTwin .follow id; d.twin.role = .follow ∧ d.time.turn ≤ 100 ∧
      ledgerDigest d 101 false false ((tget d.twin.seals (101 - 1)).getD d.ldg.digest) (orderEntries (tgetD d.twin.tail 101 [])) < 2 ^ 64) ∧
    (let d := { dTwin .follow id with host := { dObj.host with egress := [frameTest 99] } }; ownItems d 99 ≠ [] ∧ tget d.twin.peerLists 99 = none ∧ 99 < d.time.turn) ∧
    97 + 3 ≤ (dTwin .follow id).time.turn ∧
    (let d := dTwin .attaching fun x => { x with attach := 4, attachTurn := 100 }; d.twin.attach = 4 ∧ d.twin.attachTurn ≤ d.time.turn ∧ d.twin.role = .attaching) := by decide +kernel
/-- TwinTurnsRun: the state digests agree. -/
theorem witness_TwinTurnsRun_digest :
    let d := dTwin .attaching fun x => { x with attach := 5, joinDigest := some 7 }
    4 ≤ d.twin.attach ∧ d.twin.joinDigest = some 7 ∧ d.twin.role = .attaching := by decide +kernel
/-- TwinTurnsRun: a TIME_LIMITED record of a plan that waits for it. -/
theorem witness_TwinTurnsRun_record :
    let q := { queryTest .plan .ready with cmd := { queryCmd 1 (zeros 2 ++ [0x80, 1] ++ planBlock.drop 4) with budget := 100 }, timeLimited := true }
    let d := { dTwin .solo id with q := { dAgent.q with recs := [(3, q)] } }
    let payload := leBytes 4 9 ++ zeros 92
    ((liveQueries d).find? fun q => q.2.kind == .plan && q.2.cmd.tag == fld payload 0 4 && (planOf q.2.cmd).agent == fld payload 4 2 && needsTl d q.2) = some (3, q) ∧
      q.tlPlaced = false ∧ q.stage = .ready ∧ d.twin.role ≠ .follow := by decide +kernel

/-- A package of id 5 in the fabric, with port 3 active and peer 6 heard from MAC 9. -/
def dJoined (s : FState) : Dev :=
  { dFab (fun f => { f with state := s, id := 5, up := 8, peers := [(6, { (default : PeerRec) with alive := true, mac := 9, serial := 77 })] }) with
    regs := [(0x400008, BitVec.ofNat 32 (2 ^ 24))] }
/-- FabricCommandsRun: the commands. -/
theorem witness_FabricCommandsRun_commands :
    (let c := cmdOfBlock 0 [1, 0, 0, 0]; c.block.length = 4 ∧ fld c.block 0 1 ≤ 1 ∧ allZero (slice c.block 1 3) = true ∧ dObj.fab.state = .unjoined ∧ dObj.ldg.replay = false) ∧
    (let c := cmdOfBlock 0 (leBytes 8 0 ++ [63, 0, 0, 0]); let d := dFab fun f => { f with state := .seeking, coord := true };
      c.block.length = 12 ∧ fld c.block 0 8 = State.reset.fuses.serial ∧ fld c.block 8 1 ≤ 63 ∧ allZero (slice c.block 9 3) = true ∧ d.fab.coord = true ∧ d.fab.state = .seeking ∧
      d.fab.otherCoord = [] ∧ d.fab.seen = [] ∧ d.fab.assigning = [] ∧ idHeard d (fld c.block 8 1) State.reset.fuses.serial = false) ∧
    (dJoined .assigned).fab.state ≠ .unjoined := by decide +kernel
/-- FabricCommandsRun: the timers, with frames to be sent again, in a turn for a heartbeat, with a peer silent for 3,000 turns. -/
theorem witness_FabricCommandsRun_timers :
    ((dJoined .assigned).fab.state = .assigned ∨ (dJoined .assigned).fab.state = .seeking) ∧
    (let d := { dJoined .assigned with fab := { (dJoined .assigned).fab with chans := [(chanKey 6 1, { (default : ChanRec) with unacked := [(0, [], 7)] })] } };
      (chanOf d 6 1).unacked ≠ []) ∧
    (let d := { dJoined .assigned with time := { dObj.time with turn := 3000, started := true } }; d.fab.state = .assigned ∧ d.time.turn % 1000 = 0 ∧ running d = true ∧
      (∃ p, tget d.fab.peers 6 = some p ∧ p.alive = true ∧ p.heard + 3000 ≤ d.time.turn) ∧ d.fab.mirrors = []) := by
  refine ⟨by decide +kernel, by decide +kernel, by decide +kernel, by decide +kernel, by decide +kernel, ⟨_, rfl, by decide +kernel, by decide +kernel⟩, by decide +kernel⟩
/-- A frame from peer 6: type, channel, destination, sequence number, payload. -/
def frameFrom (ty ch dst seq : Nat) (payload : Bytes) : FabFrame :=
  { port := 3, mac := 9, body := fabFrame { dJoined .assigned with fab := { (dJoined .assigned).fab with id := 6 } } ty ch dst seq 0 false payload }
/-- The HELLO payload of the package of serial 77 and id 6. -/
def helloTest : Bytes := leBytes 8 77 ++ zeros 3 ++ [2, 6] ++ zeros 51
/-- FabricFramesRun: HELLO, ASSIGN, ACK and HEARTBEAT. -/
theorem witness_FabricFramesRun :
    (let f := frameFrom 1 0 0xff 0 helloTest; fabOpen (dJoined .assigned) f = true ∧ fabBad (dJoined .assigned) f = false) ∧
    (let f := frameFrom 2 0 0xff 0 (leBytes 8 0 ++ [63] ++ zeros 7); let d := dJoined .seeking; fabOpen d f = true ∧ fabBad d f = false ∧
      fld (fabPayload f) 0 8 = State.reset.fuses.serial ∧ d.fab.state = .seeking ∧ fld (fabPayload f) 8 1 ≤ 63 ∧
      idHeard (heardFrom (atTime d 0) (fabFrom f)) (fld (fabPayload f) 8 1) State.reset.fuses.serial = false) ∧
    (let f := frameFrom 4 1 5 0 []; fabOpen (dJoined .assigned) f = true ∧ fabBad (dJoined .assigned) f = false ∧ fld f.body 3 1 = (dJoined .assigned).fab.id) ∧
    (let f := frameFrom 5 0 0xff 0 (helloTest ++ zeros 16); let d := dJoined .assigned; fabBad d f = false ∧ fld (fabPayload f) 12 1 = 6 ∧
      (tget (meet State.reset.fuses (heardFrom (atTime d 0) (fabFrom f)) f.mac (fabPayload f)).fab.peers 6).isSome = true ∧ fld (fabPayload f) 0 8 ≠ State.reset.fuses.serial) := by
  decide +kernel
/-- FabricFramesRun: DATA in sequence, and a frame from another source than the peer's. -/
theorem witness_FabricFramesRun_data :
    (let f := frameFrom 3 1 5 0 [1, 2]; let d := dJoined .assigned; fabOpen d f = true ∧ fabBad d f = false ∧ fld f.body 3 1 = d.fab.id ∧ bits (fld f.body 1 1) 2 0 = 1 ∧ fabFrom f ≤ 63 ∧
      bitAt (fld f.body 14 1) 0 = false ∧ (chanOf (takeAck (heardFrom (atTime d 0) (fabFrom f)) (fabFrom f) 1 (fld f.body 8 4)) (fabFrom f) 1).expect = fld f.body 4 4) ∧
    (let f := { frameFrom 3 1 5 0 [1, 2] with mac := 8 }; fabOpen (dJoined .assigned) f = true ∧ fabBad (dJoined .assigned) f = true) := by decide +kernel

/-! ### Hypotheses that hold: the host interface, field ports, time -/

/-- The device with one pair of polder 1, of 64 entries each way, and its registers. -/
def dHost (x : PairRec) : Dev :=
  { dObj with pin := { dObj.pin with ready := true }, host := { dObj.host with pairs := [(pairKey 1 0, x)] },
              regs := tput (tput (tput dObj.regs (pageReg 1 0 0) (BitVec.ofNat 32 (6 * 2 + 6 * 32))) (pageReg 1 0 0x20) 1) 0x700000 3,
              pld := [(0, polder0), (1, { polder0 with bucket := 16000000000, rate := 1000 })] }
/-- QueuePairsRun: a tail at the last entry and one past it, a head that releases all entries, enable, disable, and a pair that has drained. -/
theorem witness_QueuePairsRun :
    63 % 4096 < sqSize (dHost default) 1 0 ∧ sqSize (dHost default) 1 0 ≤ 64 % 4096 ∧
    (let d := dHost { (default : PairRec) with cqNext := 63 }; 63 % 4096 < cqSize d 1 0 ∧ 63 < cqSize d 1 0 ∧ 63 ≤ (pairOf d 1 0).cqNext - (pairOf d 1 0).cqHost ∧
      63 % 4096 = ((pairOf d 1 0).cqHost + 63) % cqSize d 1 0) ∧
    (bitAt 1 0 = true ∧ (pairOf (dHost default) 1 0).enabled = false ∧ (pairOf (dHost default) 1 0).busy = false) ∧
    (bitAt 0 0 = false ∧ (pairOf (dHost { (default : PairRec) with enabled := true }) 1 0).enabled = true) ∧
    (let d := dHost { (default : PairRec) with busy := true }; (pairOf d 1 0).busy = true ∧ (pairOf d 1 0).outstanding = 0 ∧ (pairOf d 1 0).chunk = none) := by decide +kernel
/-- StatusReplyWritten. -/
theorem witness_StatusReplyWritten :
    let r := { (default : Reply) with noIrq := true }; let d := dHost { (default : PairRec) with enabled := true, outstanding := 1, waiting := [r] }
    (pairOf d 1 0).waiting = r :: [] ∧ replyDue d r = true ∧ cqFull d 1 0 = false ∧ r.result = none ∧ r.noIrq = true := by decide +kernel
/-- A packet without a block: opcode, tag. -/
def packetTest (op : Nat) : Bytes := let b := w2 op ++ zeros 2 ++ leBytes 4 9 ++ zeros 52; b ++ leBytes 4 (crc32c b)
/-- CommandFetchRuns: a NOP that is placed, and a packet with a wrong check. -/
theorem witness_CommandFetchRuns :
    let s := { State.reset with dev := dHost { (default : PairRec) with enabled := true, sqTail := 1 } }
    mayFetch s.dev 1 0 = true ∧ (pairOf (atTime s.dev 0) 1 0).chunk = none ∧
    (let d := atTime s.dev 0; let turn := entryTurn d 0; let packet := packetTest 0; let c := fetched d 1 0 packet [];
      let r := fetchCheck d turn 0 c packet (some (ringSize d 1 0));
      r.1 = none ∧ s.dev.ldg.replay = false ∧ r.2.ldg.replay = false ∧ isIndirect packet = false ∧ ¬(isQuery c.op = true ∧ c.cls = 0) ∧ 96 ≤ hostOpen s.fuses r.2 turn) ∧
    (let d := atTime s.dev 0; let packet := zeros 64; (fetchCheck d (entryTurn d 0) 0 (fetched d 1 0 packet []) packet (some (ringSize d 1 0))).1 =
      some (stBadCheck, 0, 1)) := by decide +kernel
/-- HostEventsRun: a coalescing timer that runs, a vector pending and one not, a pair, the last polder, the greatest link values. -/
theorem witness_HostEventsRun :
    (pairOf (dHost { (default : PairRec) with timer := true }) 1 0).timer = true ∧
    (let d := { dObj with host := { dObj.host with pba := [63] } }; d.host.pba.contains (0 * 64 + 63) = true ∧ d.host.pba.contains (0 * 64 + 62) = false) ∧
    (tget (dHost default).host.pairs (pairKey 1 0)).isSome = true ∧ (1 ≤ 16 ∧ (polder { dObj with pld := [(16, polder0)] } 16).state ≠ 0) ∧ 15 < 16 ∧ 31 < 32 := by decide +kernel

/-- A field frame: type, number, length and count, payload. -/
def fieldFrame (ty n count : Nat) (payload : Bytes) : Bytes :=
  let b := [1, BitVec.ofNat 8 ty] ++ w2 n ++ leBytes 4 1 ++ zeros 8 ++ w2 payload.length ++ w2 count ++ zeros 4 ++ payload
  b ++ leBytes 4 (crc32c b)
/-- The device with port 7 enabled, an agent controlled through it, and the streams given. -/
def dField (x : StreamRec) : Dev :=
  { dAgent with regs := [(0x4011E0, 1), (0x700000, 3)], fab := { dAgent.fab with fieldUp := 255 }, time := { dAgent.time with running := true, first := 1 },
                world := { dAgent.world with streams := [(0, { x with port := 7 })],
                                             agents := [(0, { agentTest with bind := { agentTest.bind with ctrlPort := 7, ctrlMac := 9 } })] } }
/-- FieldFramesRun: a grid frame without records, an agent's state. -/
theorem witness_FieldFramesRun_stream :
    (let d := dField { streamTest with kind := 1 }; let f := fieldFrame 1 0 0 []; let x := { streamTest with kind := 1, port := 7 }
      portEn d 7 = true ∧ d.ldg.replay = false ∧ f.length ≤ 1500 ∧ bits (fld f 0 1) 3 0 = 1 ∧ fld f 1 1 = x.kind ∧ frameCrcOk f = true ∧ fld f 16 2 = fld f 18 2 * 40 ∧ tget d.world.streams (fld f 2 1 % 128) = some x ∧
      x.openTurn < entryTurn (fldCnt (atTime d 0) 7 0) 0 ∧ x.closeTurn = none ∧ x.srcMac = 0) ∧
    (let d := dField streamTest; let f := fieldFrame 3 0 1 (zeros 32); let x := { streamTest with port := 7 }; let a := { agentTest with bind := { agentTest.bind with ctrlPort := 7, ctrlMac := 9 } }
      portEn d 7 = true ∧ d.ldg.replay = false ∧ f.length ≤ 1500 ∧ bits (fld f 0 1) 3 0 = 1 ∧ fld f 1 1 = 3 ∧ frameCrcOk f = true ∧ fld f 18 2 = 1 ∧ tget d.world.streams (fld f 2 1 % 128) = some x ∧ x.kind = 3 ∧
      x.openTurn < entryTurn (fldCnt (atTime d 0) 7 0) 0 ∧ x.closeTurn = none ∧ x.port = 7 ∧ x.srcMac = 0 ∧
      (d.world.agents.find? fun a => a.2.bind.stream == fld f 2 1 % 128) = some (0, a) ∧ fld f 16 2 = 32 + 8 * kinN (curModelRaw d a.bind.model)) := by decide +kernel
/-- A packet of STOP_VERIFY for agent 0. -/
def stopPacket : Bytes := let b := w2 0x501 ++ zeros 2 ++ leBytes 4 9 ++ zeros 8 ++ leBytes 4 100 ++ zeros 36 ++ leBytes 4 4; b ++ leBytes 4 (crc32c b)
/-- The device with the capacity that a class-0 request from the field needs. -/
def dRequest : Dev := { dField streamTest with regs := [(0x100808, 2700), (0x4011E0, 1), (0x700000, 3)], pld := [(0, { polder0 with bucket := 16000000000 })] }
/-- FieldFramesRun: a request that passes its checks. -/
theorem witness_FieldFramesRun_request :
    let d0 := dRequest; let f := fieldFrame 0x10 0 0 stopPacket; let n := fld f 2 2 % 4096; let packet := slice f 24 64; let blk := slice packet 20 (min 36 (blockLen packet))
    let a := { agentTest with bind := { agentTest.bind with ctrlPort := 7, ctrlMac := 9 } }
    portEn d0 7 = true ∧ d0.ldg.replay = false ∧ f.length ≤ 1500 ∧ bits (fld f 0 1) 3 0 = 1 ∧ fld f 1 1 = 0x10 ∧ tget d0.world.agents n = some a ∧ frameCrcOk f = true ∧ isIndirect packet = false ∧ fld f 16 2 = 64 ∧
      bitAt (rget (fldCnt (atTime d0 0) 7 0) 0x700000) 1 = true ∧ a.bind.ctrlPort = 7 ∧ a.bind.ctrlMac = 9 ∧ fld packet 0 2 = 0x501 ∧ ctrOk a.reqCtr (fld f 4 4) = true ∧
      timeOk (fld f 8 8) 0 = true ∧ crc32c (packet.take 60) = fld packet 60 4 ∧
      (let d := modAgent (fldCnt (atTime d0 0) 7 0) n fun a => { a with reqCtr := some (fld f 4 4) }; let c := cmdOf (.field 7 n) a.polder packet blk
        c.op = 0x501 ∧ fld blk 0 2 = n ∧ c.cls = 0 ∧ (fetchCheck d (entryTurn d 0) 0 c packet none).1 = none ∧
        shareOf { (default : Entry) with kind := kindOf c.op, source := srcField 7 a.bind.stream, ctr := fld f 4 4, ts := 0 / 4 * 4, polder := a.polder, cls := 0, payload := packet } ≠ 2) := by
  decide +kernel
/-- StreamFrameAccepted: exactly one token in the bucket, and just less than one. -/
theorem witness_StreamFrameAccepted :
    (let d := dField { streamTest with kind := 1 }; let x := { streamTest with kind := 1, port := 7, bucket := 1000000000 }; let f := fieldFrame 1 0 0 []
      d.twin.role ≠ .follow ∧ d.twin.role ≠ .attaching ∧ 1000000000 ≤ min 16000000000 (x.bucket + (0 - x.bucketAt) * x.rate) ∧ x.lastCtr = none ∧ timeOk (fld f 8 8 + offsFor d (entryTurn d 0) 0 x) 0 = true ∧ rangeOk d x none f = true ∧
      entryBytes { (default : Entry) with kind := 1, source := srcField x.port 0, ctr := fld f 4 4, ts := 0 / 4 * 4, polder := x.polder, payload := f } ≤
        fieldOpen State.reset.fuses d (entryTurn d 0)) ∧
    (let x := { streamTest with bucket := 999999999 }; min 16000000000 (x.bucket + (0 - x.bucketAt) * x.rate) < 1000000000) := by decide +kernel
/-- A device with two registers. -/
def dRegs (a b va vb : Nat) : Dev := { dObj with regs := if a < b then [(a, BitVec.ofNat 32 va), (b, BitVec.ofNat 32 vb)] else [(b, BitVec.ofNat 32 vb), (a, BitVec.ofNat 32 va)] }
/-- TimeCommandsRun: PTP on port 0, PPS, the loss of an Announce with and without a backup port, holdover, run with and without discipline. -/
theorem witness_TimeCommandsRun :
    (let d := fldCnt (atTime (dRegs 0x401004 0x401100 1 1) 0) 0 0; portEn (dRegs 0x401004 0x401100 1 1) 0 = true ∧ 0 = ptpPort d ∧ bitAt (rget d 0x401004) 0 = true ∧ bitAt (rget d 0x600000) 8 = false) ∧
    bitAt (rget (dRegs 0x600000 0x600004 0x101 0) 0x600000) 8 = true ∧
    (∀ v ∈ [0x8001, 1], let d := dRegs 0x401004 0x401008 v 0; bitAt (rget d 0x600000) 8 = false ∧ bitAt (rget d 0x401004) 0 = true ∧
      bitAt (rget (rfield d 0x401008 0 0 0) 0x401008) 2 = false ∧ bitAt (rget (rfield d 0x401008 0 0 0) 0x401004) 15 = decide (v = 0x8001)) ∧
    (let d := { dRegs 0x600028 0x600004 5 0 with time := { dObj.time with holdover := some 0 } }; d.time.holdover.isSome = true ∧ bits (rget d 0x600028) 15 0 ≠ 0) ∧
    bitAt (rget dObj 0x600004) 0 = false ∧
    (∀ b ∈ [true, false], let d := lockWdn (rfield (atTime (if b then dRegs 0x18 0x600004 15 0 else dTwin .detached id) 0) 0x600004 0 0 1); disciplined d = b ∧ (b = false → simplex d = false)) := by
  decide +kernel

/-! ### Hypotheses that hold: turns -/

/-- The device with turns running, in turn `n`, with ledgers sealed to `m`. -/
def dTurn (n m : Nat) : Dev :=
  { dObj with time := { dObj.time with turn := n, running := true, started := true, first := 1, sealedTo := m }, pkg := { dObj.pkg with m := 1, map := [0] } }
/-- CutoffRuns: an open ledger, a stream that has timed out, a tile map that is due, a map whose deferral is over. -/
theorem witness_CutoffRuns :
    (let d := dTurn 10000 10000; let x := { streamTest with lastArr := 0 }; cutoffDue d = true ∧ builds d = true ∧ tget d.world.streams 0 = some x ∧ timeoutDue d (d.time.sealedTo + 1) x = true) ∧
    (let d := { dTurn 1 1 with pkg := { dObj.pkg with dirty := true } }; (dueMap State.reset.fuses d 2).pkg.due.isSome = true) := by decide +kernel
/-- Four versions of a map that queries pin. -/
def mapPinned4 : MapRec :=
  { mapTest with vers := [0, 1, 2, 3].map fun v => { (default : MapVer) with ver := v }, pend := [default], deferTurns := 24, born := true }
/-- CutoffRuns: a map with no room for a version in its last turn of deferral. -/
theorem witness_CutoffRuns_hold :
    let d := { dTurn 1 1 with world := { dObj.world with maps := [(0, mapPinned4)] },
                              q := { dObj.q with recs := [0, 1, 2, 3].map fun v => (v, { queryTest .plan .search with pinMaps := [(0, v)] }) } }
    tget d.world.maps 0 = some mapPinned4 ∧ mapPinned4.pend ≠ [] ∧ mapPinned4.removed = false ∧ mapPinned4.pinHoldMax ≤ mapPinned4.deferTurns + 1 ∧ roomFor d 0 mapPinned4 = false := by
  decide +kernel
/-- A ledger without entries. -/
def ledgerTest (n : Nat) : Ledger := { (default : Ledger) with turn := n }
/-- BoundaryRuns: the first turn, a later turn, and a stopped safe state. -/
theorem witness_BoundaryRuns :
    (let d := { dTurn 0 1 with time := { (dTurn 0 1).time with started := false } }; d.time.running = true ∧ d.pin.trip = false ∧ d.ldg.replay = false ∧ d.time.turn + 1 ≤ d.time.sealedTo ∧
      d.wdn.safe.stopped = false ∧ d.twin.tailNext = none ∧ d.time.started = false ∧ (d.wdn.safe.on && d.wdn.safe.latched) = false) ∧
    (let d := { dTurn 5 6 with ldg := { dObj.ldg with ready := some (ledgerTest 6) } }; d.time.running = true ∧ d.pin.trip = false ∧ d.ldg.replay = false ∧ d.time.turn + 1 ≤ d.time.sealedTo ∧
      d.wdn.safe.stopped = false ∧ d.twin.tailNext = none ∧ (endTurn State.reset.fuses (atTime d (turnStart d 6))).ldg.replay = false ∧
      ((endTurn State.reset.fuses (atTime d (turnStart d 6))).wdn.safe.on && (endTurn State.reset.fuses (atTime d (turnStart d 6))).wdn.safe.latched) = false) ∧
    (let d := { dTurn 5 6 with wdn := { dObj.wdn with safe := { dObj.wdn.safe with on := true, latched := true, stopped := true } } }; d.time.turn + 1 ≤ d.time.sealedTo ∧ d.wdn.safe.stopped = true) := by
  decide +kernel
/-- BoundaryRuns: a virtual turn whose ledger agrees, with a mirror block whose digest does or does not agree, and one whose digest does not. -/
theorem witness_BoundaryRuns_replay :
    ∀ own ∈ [0, 1], let l := ledgerTest 7; let c := cmdOfBlock 0 []; let d := dLdg fun x => { x with replay := true, prepared := some 7, replayRun := some (c, (l, own) :: []) };
    d.ldg.replay = true ∧ d.ldg.prepared = some 7 ∧ d.ldg.replayRun = some (c, (l, own) :: []) ∧ l.turn = 7 ∧ l.gap = false ∧ blocksGood l = true ∧ d.ldg.current = none ∧ (own = l.digest ↔ own = 0) ∧
      blocksGood { l with blocks := [[]] } = false := by decide +kernel
/-- TurnEventsRun: a release phase to come, a result that may leave, a lathe with work left over, a class-0 operation past the berm. -/
theorem witness_TurnEventsRun :
    (let d := dTurn 5 5; running d = true ∧ d.q.relTurn ≠ d.time.turn ∧ lags d = false) ∧
    (let f := { (default : EgFrame) with turn := 4, port := 7, body := [1] }
      let d := { dTurn 5 5 with host := { dObj.host with egress := [f] }, regs := [(0x4011E0, 1)], fab := { dObj.fab with fieldUp := 128 } }
      sortBy egressLe (d.host.egress.filter (mayLeave d)) = f :: [] ∧ f.body ≠ [] ∧
      (let e := { d with host := { d.host with egress := d.host.egress.filter fun x => x.id != f.id } }; portEn e f.port = true ∧ bitAt e.fab.fieldUp f.port = true)) ∧
    (let u : UnitQ := { emptyUnit with runs := [{ code := 0, operand := 0, window := 1, ends := 100000 }] }
      let d := { dTurn 5 5 with eng := { dObj.eng with lathes := [(3, { (default : LatheRec) with units := [(0x80, u)] })] } }
      3 < 8 ∧ 3 < variantDies State.reset.fuses.variant ∧ latheOn d 3 = true ∧ leftover d 3 = true ∧
      ((stillRuns (unitOf d 3 0x80) (bermLen d)).any fun r => r.window == 1) = true) := by decide +kernel
/-- A map with a pass record and a model. -/
def mapPass (p : PredPass) : MapRec := { mapTest with model := some 0, predPeriod := 1, pass := some p }
/-- MapWorkRuns: a pass that is due, one still in flight, one that ends in time and one that does not, a build. -/
theorem witness_MapWorkRuns :
    (∀ e ∈ [0, 9], let m := mapPass { (default : PredPass) with ends := e }; let d := { dTurn 5 5 with world := { dObj.world with maps := [(0, m)] } };
      tget d.world.maps 0 = some m ∧ m.pass = some { (default : PredPass) with ends := e } ∧ m.model = some 0 ∧ running d = true ∧ passDue d m = true ∧
      ({ (default : PredPass) with ends := e } : PredPass).start ≠ d.time.turn) ∧
    (let p := { (default : PredPass) with ends := 5, boxes := [(V3.of 0, V3.of 4096)] }; p.ends ≠ 0 ∧ p.ends ≤ (dTurn 5 5).time.turn ∧ p.fault = false ∧ passLate (dTurn 5 5) p = false ∧ p.sat = false ∧ p.boxes ≠ []) ∧
    (let p := { (default : PredPass) with ends := 5, left := [(0, 1)] }; p.ends ≠ 0 ∧ p.ends ≤ (dTurn 5 5).time.turn ∧ p.fault = false ∧ passLate (dTurn 5 5) p = true) ∧
    (let m := { mapTest with build := .start 5 }; m.build = .start 5 ∧ 5 ≤ (dTurn 5 5).time.turn) := by decide +kernel
/-- PlanStagesRun: a query in each stage, with an empty frontier and with one node in it. -/
theorem witness_PlanStagesRun :
    (∀ g ∈ [QStage.goal, .search, .closing, .finish, .cover], let q := queryTest .plan g;
      tget (dQuery q).q.recs 3 = some q ∧ q.kind = .plan ∧ q.stage = g ∧ (searchEnv (dQuery q) q).p.eeGoal = false ∧ planMotion (dQuery q) q = none ∧ needsTl (dQuery q) q = false ∧
      (let e := searchEnv (dQuery q) q; (popNodes (total (q.tiles.map fun t => t.2.queue.length) + 1) (min e.p.popB (q.cmd.budget - q.expansions)) q.tiles).1 = [])) ∧
    (let q := { queryTest .plan .search with expansions := 0, tiles := [(0, { nodes := [default], queue := [(0, 0, 0)], visited := [] })] };
      tget (dQuery q).q.recs 3 = some q ∧ q.stage = .search ∧
      (let e := searchEnv (dQuery q) q; (popNodes (total (q.tiles.map fun t => t.2.queue.length) + 1) (min e.p.popB (q.cmd.budget - q.expansions)) q.tiles).1 ≠ [])) := by decide +kernel

/-! ### Hypotheses that hold: engines, DMA, lathes, banks -/

/-- The location of row `r` of bank 15. -/
def locTest (r : Nat) : Nat := 15 * 2 ^ 18 + r
/-- The machine with bytes at row 0 of bank 15 of die 3, which core 15 owns. -/
def sBank (d : Dev) (bs : Bytes) : State := { State.reset.withDev d with mem := mputs [] (rowField 3 (locTest 0)) bs }
/-- The last core of the last die of the package is in service. -/
theorem witness_coreUp : 3 < 8 ∧ 15 < 16 ∧ 3 < variantDies State.reset.fuses.variant ∧ coreLive State.reset.fuses Dev.reset 3 15 = true := by decide +kernel
/-- A stage descriptor of one map and one cell. -/
def stageTest : Bytes := [1, 12] ++ w2 50 ++ zeros 12 ++ [1, 1, 1] ++ zeros 45 ++ zeros 256
/-- SweepOperationsRun: a descriptor in range, and one of no map. -/
theorem witness_SweepOperationsRun :
    (let s := sBank Dev.reset stageTest; coreLive s.fuses s.dev 3 15 = true ∧ bitAt (rget s.dev (engReg 3 0 15 0)) 1 = false ∧
      (stageBulk (bankView s.dev 15 s.mem) s.dev 3 (mgets (bankView s.dev 15 s.mem) (rowField 3 (opLoc (locTest 0))) 320)).isSome = true) ∧
    (let s := sBank Dev.reset []; stageBulk (bankView s.dev 15 s.mem) s.dev 3 (mgets (bankView s.dev 15 s.mem) (rowField 3 (opLoc (locTest 0))) 320) = none) := by
  decide +kernel
/-- A layer descriptor: an element-wise addition of one element, with an activation table or none. -/
def layerTest (act : Nat) : Bytes :=
  [6, 0, 0, 0] ++ w2 1 ++ w2 1 ++ w2 1 ++ w2 1 ++ w2 1 ++ [1, 1, 1, 1, 0, BitVec.ofNat 8 act] ++ leBytes 4 (locTest 1) ++ leBytes 4 0 ++ leBytes 4 0 ++ leBytes 4 (locTest 2) ++
    leBytes 4 (locTest 3) ++ zeros 8 ++ leBytes 4 (locTest 4) ++ zeros 12
/-- TensorOperationsRun: a load of the least length into the last row, a table, layers with and without an activation table, one of an unknown operation. -/
theorem witness_TensorOperationsRun :
    (let s := sBank dObj (leBytes 8 64 ++ leBytes 4 64 ++ leBytes 4 131071); let v := bankView s.dev 15 s.mem; let at_ := rowField 3 (opLoc (locTest 0));
      fld (mgets v at_ 16) 0 8 = 64 ∧ fld (mgets v at_ 16) 8 4 = 64 ∧ fld (mgets v at_ 16) 12 4 = 131071 ∧ 64 % 64 = 0 ∧ 64 ≤ 8388608 ∧ 131071 + 64 / 64 ≤ 131072 ∧ bulkOk 3 64 64 = true ∧ bitAt (rget s.dev (engReg 3 1 15 0)) 1 = false) ∧
    (locOk (opLoc (locTest 0)) 16 = true ∧ ownedBy dObj 3 15 (bits (opLoc (locTest 0)) 21 18) = true) ∧
    (∀ act ∈ [0xff, 3], let s := sBank { dObj with eng := { dObj.eng with tables := [((3 * 16 + 15) * 8 + 3, [])] } } (layerTest act);
      let l := parseLayer (mgets (bankView s.dev 15 s.mem) (rowField 3 (opLoc (locTest 0))) 64);
      layerFault (ownedBy s.dev 3 15) (bankView s.dev 15 s.mem) 3 15 l = 0 ∧ (l.act = 0xff ∨ tget s.dev.eng.tables ((3 * 16 + 15) * 8 + l.act) = some []) ∧
      ownedBy s.dev 3 15 (bits l.stLoc 21 18) = true ∧ locOk l.stLoc 1 = true ∧ l.act = act) ∧
    (let s := sBank dObj ([10] ++ (layerTest 0xff).drop 1); let l := parseLayer (mgets (bankView s.dev 15 s.mem) (rowField 3 (opLoc (locTest 0))) 64);
      layerFault (ownedBy s.dev 3 15) (bankView s.dev 15 s.mem) 3 15 l ≠ 0 ∧ ownedBy s.dev 3 15 (bits l.outLoc 21 18) = true ∧ ownedBy s.dev 3 15 (bits l.stLoc 21 18) = true ∧
      locOk l.stLoc 1 = true) := by decide +kernel
/-- A batch descriptor of one problem, with its model in row 2, its record in row 1, its result at a location. -/
def batchTest (result : Nat) : Bytes :=
  [1, 0, 0, 0, 0, 0, 0, 1] ++ w2 1 ++ zeros 18 ++ leBytes 4 1 ++ leBytes 4 1 ++ zeros 12 ++ leBytes 4 (locTest 1) ++ leBytes 4 result ++ zeros 4 ++ leBytes 4 (locTest 2)
/-- A descriptor of rows for one candidate, at row 1, followed by the candidate's staged record. -/
def rowsTest : Bytes := w2 1 ++ zeros 2 ++ leBytes 4 (locTest 2) ++ zeros 56 ++ ([1] ++ zeros 63) ++ (zeros 23 ++ [15] ++ leBytes 4 3 ++ zeros 4)
/-- SolverOperationsRun: a batch in order, one whose result lies in another core's bank, one of an empty descriptor, rows in order and out of order. -/
theorem witness_SolverOperationsRun :
    (let s := sBank dObj (batchTest (locTest 5) ++ zeros 64 ++ kinTest); let j := batchJob (ownedBy s.dev 3 15) (bankView s.dev 15 s.mem) s.dev.world.agents 3 (locTest 0);
      j.badLoc = false ∧ j.badDesc = false) ∧
    (let s := sBank dObj (batchTest 0 ++ zeros 64 ++ kinTest); let j := batchJob (ownedBy s.dev 3 15) (bankView s.dev 15 s.mem) s.dev.world.agents 3 (locTest 0);
      j.badLoc = true) ∧
    (let s := sBank dObj (zeros 64); (batchJob (ownedBy s.dev 3 15) (bankView s.dev 15 s.mem) s.dev.world.agents 3 (locTest 0)).badDesc = true) ∧
    (let s := sBank dObj rowsTest; let u := { (default : UnitDesc) with model := kinTest, nodes := [([], 0, 0, 0)] };
      let r := rowsJob (ownedBy s.dev 3 15) (bankView s.dev 15 s.mem) 3 (locTest 0) u; r.badLoc = false ∧ r.badDesc = false) ∧
    (let s := sBank dObj []; (rowsJob (ownedBy s.dev 3 15) (bankView s.dev 15 s.mem) 3 (locTest 0) default).badDesc = true) := by decide +kernel
/-- SelectOperationsRun: a sort with its operand in order and an empty descriptor, one at a bank of another core, one with a reserved operand bit set. -/
theorem witness_SelectOperationsRun :
    (Instr.selSort 3 15 (locTest 0), 1) ∈ [(Instr.selSort 3 15 (locTest 0), 1), (.selTopk 3 15 (locTest 0), 2), (.selUniq 3 15 (locTest 0), 3), (.selMerge 3 15 (locTest 0), 4)] ∧
    ownedBy dObj 3 15 (bits (opLoc (locTest 0)) 21 18) = true ∧ bits (locTest 0) 47 22 = 0 ∧ bitAt (rget dObj (engReg 3 3 15 0)) 1 = false ∧
    (selUnit [] (ownedBy dObj 3 15) 3 1 (rowField 3 (opLoc (locTest 0))) 0).2.2.2.1 = true ∧
    ownedBy dObj 3 15 (bits (opLoc 0) 21 18) = false ∧ bits (2 ^ 47) 47 22 ≠ 0 := by decide +kernel
/-- The device with a frontier queue 1023 of core 15 of die 3. -/
def dFrn (x : FrnQueue) : Dev := { dObj with eng := { dObj.eng with frn := [(frnKey 3 15 1023, x)] } }
/-- FrontierOperationsRun: a push, a pop of all entries, a close, a queue that is not open, a row outside the bank, a refill. -/
theorem witness_FrontierOperationsRun :
    bits (1023 * 2 ^ 22) 31 22 = 1023 ∧ locOk (opLoc (1023 * 2 ^ 22 + 163839)) 1 = true ∧ locOk (opLoc (1023 * 2 ^ 22 + 163840)) 1 = false ∧
    (let x : FrnQueue := { inUnit := [(1, 2, 3)], inStore := [] }; tget (dFrn x).eng.frn (frnKey 3 15 1023) = some x ∧ x.inStore = [] ∧ frnHeld (dFrn x) 3 15 < 65536 ∧ 1 ≤ x.inUnit.length ∧
      thas (dFrn x).eng.frn (frnKey 3 15 1023) = true) ∧
    thas dObj.eng.frn (frnKey 3 15 1023) = false ∧
    (let x : FrnQueue := { inUnit := [], inStore := [(1, 2, 3)] }; tget (dFrn x).eng.frn (frnKey 3 15 1023) = some x ∧ x.inUnit.length < 64 ∧ x.inStore ≠ []) := by decide +kernel
/-- A transfer descriptor: source, destination, length, identity, die. -/
def dmaTest (src dst n dest : Nat) : Bytes := leBytes 8 src ++ leBytes 8 dst ++ leBytes 4 n ++ [0x1f, BitVec.ofNat 8 dest] ++ zeros 10
/-- The conditions on a descriptor's fields. -/
def dmaMeets (src dst n dest : Nat) : Bool :=
  let bs := mgets (sBank dObj (dmaTest src dst n dest)).mem (rowField 3 (opLoc (locTest 0))) 32
  decide (fld bs 0 8 = src ∧ fld bs 8 8 = dst ∧ fld bs 16 4 = n ∧ bits (fld bs 21 1) 2 0 = dest ∧ n % 64 = 0 ∧ 64 ≤ n ∧ n ≤ 67108864 ∧
    bits (fld bs 20 1) 7 5 = 0 ∧ bits (fld bs 21 1) 7 3 = 0 ∧ allZero (slice bs 22 10) = true ∧ dmaWho dObj 3 (bits (fld bs 20 1) 4 0) = some 0x10)
/-- TransfersRun: DMA_IN from the last bytes below the host scratch, DMA_OUT, DMA_CTRL from the end of control memory, DMA_LINK to die 0, a length of 0, one that is too
great, and a reserved byte set. -/
theorem witness_TransfersRun :
    dieLive dObj 3 = true ∧
    dmaMeets (scratchFirst - 64) 0 64 0 = true ∧ bulkOk 3 (scratchFirst - 64) 64 = true ∧ 0 % 64 = 0 ∧ (dmaBank 3 0 64).isSome = true ∧
    dmaMeets 0 (scratchFirst - 64) 64 0 = true ∧
    dmaMeets (4194304 - 64) 0 64 0 = true ∧ 4194304 - 64 + 64 ≤ 4194304 ∧
    dmaMeets 0 64 64 0 = true ∧ (dmaBank 0 64 64).isSome = true ∧ 0 ≠ 3 ∧ 0 < popDies State.reset.fuses ∧ 64 % 64 = 0 ∧
    (∀ n ∈ [0, 67108928], let bs := mgets (sBank dObj (dmaTest 0 0 n 0)).mem (rowField 3 (opLoc (locTest 0))) 32; fld bs 16 4 = n ∧ (n % 64 ≠ 0 ∨ n < 64 ∨ 67108864 < n)) ∧
    (let bs := mgets (sBank dObj (dmaTest 0 0 64 8)).mem (rowField 3 (opLoc (locTest 0))) 32; bits (fld bs 21 1) 7 3 ≠ 0) := by decide +kernel
/-- The device with turns running under the image of `imgTest`, whose one bundle is given, and a lathe of die 3. -/
def dLathe (l : LatheRec) (bundle : Bytes) : Dev :=
  { dTurn 5 5 with img := { dObj.img with slots := [(0, { raw := imgTest.take 72 ++ bundle ++ zeros 96, ready := true })], active := 0 }, eng := { dObj.eng with lathes := [(3, l)] } }
/-- A bundle of one operation for the DMA agent. -/
def bundleOne : Bytes := leBytes 8 (2 ^ 18) ++ leBytes 8 (0x80 * 2 ^ 56 + 0xff * 2 ^ 48) ++ zeros 48
/-- What BundlesRun reads of a device in which die 3 is to issue: S, the operations, the first cycle. -/
def issueOf (d : Dev) (l : LatheRec) (cyc : Nat) : List (Nat × OpEnt) × Nat :=
  let e := 2 ^ 10; let seg := segOf d e; let raw := actImg d; let bs := slice raw (imgBundles raw + 64 * (seg.1 + l.bundle)) 64; let after := (l.lastIssue.map (· + 1)).getD 0
  let S := if l.bundle = 0 then (if l.rep = 0 then max (bits e 39 22) after else after) else l.repStart
  (bundleOps bs S cyc (l.rep * bits e 55 40) seg.2.2, max (max S after) (S + bits (fld bs 0 8) 17 0 - 2))
/-- BundlesRun: a plan sealed; a plan of one entry whose segment's bundle names one unit, before its first cycle, at it, and with that unit's queue full. -/
theorem witness_BundlesRun :
    bitAt 1 0 = true ∧
    (let l := { (default : LatheRec) with plan := [2 ^ 10], lastIssue := some 99 }; let d := dLathe l bundleOne; latheOn d 3 = true ∧ (latheOf d 3).overrun = false ∧
      planAt d (latheOf d 3) = some (2 ^ 10, l) ∧ (issueOf d l 100).2 = 100 ∧ (issueOf d l 99).2 = 100 ∧
      (∀ o ∈ (issueOf d l 100).1, (unitPlace d 3 o.1).isSome = true ∧ queuedAt (unitOf d 3 o.1) 100 + ((issueOf d l 100).1.filter fun p => p.1 == o.1).length ≤ 16) ∧
      (issueOf d l 100).1.length = 1) ∧
    (let l := { (default : LatheRec) with plan := [2 ^ 10], lastIssue := some 99, units := [(0x80, { emptyUnit with ops := List.replicate 16 default })] }; let d := dLathe l bundleOne;
      planAt d (latheOf d 3) = some (2 ^ 10, l) ∧ (issueOf d l 100).2 ≤ 100 ∧
      ∃ o ∈ (issueOf d l 100).1, (unitPlace d 3 o.1).isSome = true ∧ 16 < (unitOf d 3 o.1).ops.length + ((issueOf d l 100).1.filter fun p => p.1 == o.1).length) := by decide +kernel
/-- A lathe whose DMA agent has one operation waiting, of code `c`. -/
def latheOp (c : Nat) : LatheRec :=
  { (default : LatheRec) with units := [(0x80, { emptyUnit with ops := [{ code := c, operand := 0, data := 0, credit := 0, notBefore := 0, issued := 0, window := 0 }] })] }
/-- OperationStartRuns: the operation of each kind starts, at the first cycle of the general window. -/
theorem witness_OperationStartRuns :
    ∀ c ∈ [0, 0xf0, 0xf1, 0xf2, 0xf3, 0xf4, 0xfe, 0xff], let d := dLathe (latheOp c) bundleOne; startsNow [] d 3 0x80 (bermLen d) = true ∧
      (unitOf d 3 0x80).ops = { code := c, operand := 0, data := 0, credit := 0, notBefore := 0, issued := 0, window := 0 } :: [] ∧
      (c < 0xf0 ∨ c = 0xf0 ∨ c = 0xf1 ∨ c = 0xf2 ∨ c = 0xf3 ∨ c = 0xff ∨ (0xf4 ≤ c ∧ c ≠ 0xff)) := by
  decide +kernel
/-- TokensMove: a data token and a credit that are due on their die, from another die on time and late, and at a full queue; a unit at rest, the greatest grant,
barriers armed and not. -/
theorem witness_TokensMove :
    (∀ b ∈ [true, false], ∀ p ∈ [(3, 7), (0, 7), (0, 5)], ∀ n ∈ [31, 32],
      let t : Transit := { due := p.2, toDie := 3, toUnit := 0x80, isData := b, tok := { die := p.1, unit := 0, cb := false }, order := 0 };
      let toks := List.replicate n { die := 0, unit := 0, cb := false };
      let d := { dObj with eng := { dObj.eng with transit := [t], lathes := [(3, { (default : LatheRec) with units := [(0x80, { emptyUnit with data := toks, credit := toks })] })] } };
      (d.eng.transit.filter fun t => t.toDie == 3 && t.toUnit == 0x80 && decide (t.due ≤ 7)) = [t] ∧ t.held = none ∧
      ((if t.isData then (unitOf d 3 0x80).data else (unitOf d 3 0x80).credit).length = n) ∧ (p = (0, 5) → t.tok.die ≠ 3 ∧ t.due < 7) ∧ (p ≠ (0, 5) → t.tok.die = 3 ∨ t.due = 7)) ∧
    (stillRuns (unitOf dObj 3 0x80) 7).isEmpty = true ∧ (barOf dObj 3 7).armed = false ∧ (barOf dObj 3 7).held = [] ∧ (barOf dObj 3 7).mismatch = false ∧
    (bits (32 * 2 ^ 12 + 0x80) 7 0 ≠ 0xff ∧ bits (32 * 2 ^ 12 + 0x80) 19 12 ≤ 32) ∧
    (let d := { dObj with eng := { dObj.eng with lathes := [(3, { (default : LatheRec) with bars := [(7, { (default : BarCtx) with armed := true })] })] } };
      bits 7 2 0 = 7 ∧ (barOf d 3 7).armed = true) := by decide +kernel
/-- BarrierReleases: a barrier of one die at which the one participant has arrived. -/
theorem witness_BarrierReleases :
    let d := { dObj with eng := { dObj.eng with lathes := [(3, { (default : LatheRec) with bars := [(0, { (default : BarCtx) with armed := true, dieMask := 8, slotMask := 1, engMask := 1, arrivals := [(0, 50)] })] })] } }
    3 < variantDies State.reset.fuses.variant ∧ releaseCyc d 3 0 = some 52 ∧ 52 ≤ workEnd d - 2000 := by decide +kernel
/-- BanksRun: a bank in service, one removed, a test about to test its last region but one for the first time, one whose period is just over at the last region. -/
theorem witness_BanksRun :
    bankRemoved dObj 3 15 = false ∧
    (let d := { dObj with pkg := { dObj.pkg with svc := [(3, 0x8000)] }, eng := { dObj.eng with owner := [(3 * 16 + 15, (0x1f, 15, false))] } };
      bankRemoved d 3 15 = true) ∧
    (let d := { dObj with regs := [(dieWin 3 + 0x11000, 4)], eng := { dObj.eng with tests := [(3 * 16 + 15, { region := 2558, started := none })] } };
      bitAt (rget d (dieWin 3 + 0x11000)) 2 = true ∧ (tgetD d.eng.tests (3 * 16 + 15) default).started = none) ∧
    (let d := { dObj with regs := [(dieWin 3 + 0x11000, 4)], time := { dObj.time with turn := 0x2DB4 }, eng := { dObj.eng with tests := [(3 * 16 + 15, { region := 2559, started := some 0 })] } };
      bitAt (rget d (dieWin 3 + 0x11000)) 2 = true ∧ (tgetD d.eng.tests (3 * 16 + 15) default).started = some 0 ∧ 0 + bits (rget d (dieWin 3 + 0x11004)) 15 0 ≤ d.time.turn) := by decide +kernel

/-! ### Hypotheses that hold: control cores, threads, coherence -/

/-- The device with a core 3 of die 3. -/
def dCore (c : CoreRec) : Dev := { dObj with ctc := { dObj.ctc with cores := [(15, c)] } }
/-- A core with three operand registers: 1, 2 and 3. -/
def coreTest (a b c : Nat) : CoreRec := { (default : CoreRec) with regs := [(1, BitVec.ofNat 32 a), (2, BitVec.ofNat 32 b), (3, BitVec.ofNat 32 c)] }
/-- The hypotheses of ctlUp. -/
theorem witness_ctlUp : 3 < 8 ∧ 3 < 4 ∧ 3 < variantDies State.reset.fuses.variant ∧ dieLive (dCore default) 3 = true ∧ (coreOf (dCore default) 3 3).halted = false := by decide +kernel
/-- CopyAndFillRun: blocks that touch the ends of the window, source above and below the destination. -/
theorem witness_CopyAndFillRun :
    (Memory.wf State.reset.mem = true) ∧ (1 < 32 ∧ 2 < 32 ∧ 3 < 32 ∧ 1 ≠ 2 ∧ 1 ≠ 3 ∧ 2 ≠ 3) ∧
    (∀ p ∈ [(0x80000000, 0xFFFFFFF0), (0xFFFFFFF0, 0x80000000)], let d := dCore (coreTest p.1 p.2 16); let dst := greg d 3 3 1; let src := greg d 3 3 2; let n := greg d 3 3 3;
      (0x80000000 ≤ dst ∧ dst + n ≤ 0x100000000) ∧ (0x80000000 ≤ src ∧ src + n ≤ 0x100000000) ∧ (dst + n ≤ src ∨ src + n ≤ dst)) := by decide +kernel
/-- QueueDrainRuns: a limit above and below the number of entries. -/
theorem witness_QueueDrainRuns :
    ∀ n ∈ [1, 3], let d := { dCore (coreTest 0xFFFFFF80 5 n) with ctc := { (dCore (coreTest 0xFFFFFF80 5 n)).ctc with scheds := [(3, { (default : SchedRec) with hwq := [(5, [zeros 64, zeros 64])] })] } };
      let dst := greg d 3 3 1; let l := tgetD (schedOf d 3).hwq (greg d 3 3 2) []; l.length = 2 ∧ 0x80000000 ≤ dst ∧ dst + 64 * min (greg d 3 3 3) l.length ≤ 0x100000000 := by decide +kernel
/-- BlockCrcRuns: the last bytes of the window, with the state in registers 30 and 31. -/
theorem witness_BlockCrcRuns :
    (let d := dCore (coreTest 0 0xFFFFFFFF 1); 0x80000000 ≤ greg d 3 3 2 ∧ greg d 3 3 2 + greg d 3 3 3 ≤ 0x100000000) ∧
    (30 < 32 ∧ 2 < 32 ∧ 3 < 32 ∧ 30 ≠ 2 ∧ 30 ≠ 3 ∧ 2 ≠ 3) ∧ 30 + 1 < 32 ∧ 30 + 1 ≠ 2 ∧ 30 + 1 ≠ 3 := by decide +kernel
/-- InterruptsRun: an interrupt at the bound, an NMI that waits, a count that is not 0. -/
theorem witness_InterruptsRun :
    (false = true → (coreOf (dCore default) 3 3).nmi = true) ∧ 840 ≤ 840 ∧ (coreOf (dCore { (default : CoreRec) with nmi := true }) 3 3).nmi = true ∧
      greg (dCore (coreTest 0 0 1)) 3 3 3 ≠ 0 := by decide +kernel
/-- A device whose core 3 of die 3 runs thread `n`, with the threads given. -/
def dThread (run : Option Nat) (ts : Tab ThreadRec) : Dev :=
  { dObj with ctc := { dObj.ctc with cores := [(15, { (default : CoreRec) with running := run })], scheds := [(3, { (default : SchedRec) with threads := ts })] } }
/-- A thread in a state, with flags, and waiting for a mask. -/
def threadTest (st : TState) (flags mask : BitVec 32) : ThreadRec := { (default : ThreadRec) with state := st, flags := flags, mask := mask }
/-- Every slot in use. -/
def allThreads : Tab ThreadRec := (List.range 256).map fun n => (n, threadTest .ready 0 0)
/-- ThreadSpawnRuns: a free slot, and none. -/
theorem witness_ThreadSpawnRuns :
    (let d := dThread (some 0) [(0, threadTest .running 0 0)]; (coreOf d 3 3).running.isSome = true ∧ ((List.range 256).find? fun n => (threadOf d 3 n).state == TState.free) = some 1 ∧
      (∀ c < 4, (coreOf d 3 c).running ≠ some 1) ∧ (0 < 4)) ∧
    (let d := dThread (some 0) allThreads; ((List.range 256).find? fun n => (threadOf d 3 n).state == TState.free) = none ∧
      (4 ≤ 4 ∧ 256 - threadsUsed d 3 ≤ min 64 (bits (rget d (dieWin 3 + 0x20000)) 15 8))) := by decide +kernel
/-- ThreadWaitsRun: a wait that is met and one that is not. -/
theorem witness_ThreadWaitsRun :
    let d := dThread (some 0) [(0, threadTest .running 1 0)]
    (coreOf d 3 3).running = some 0 ∧ tsorted 0 (schedOf d 3).threads = true ∧
      waitMet { threadOf d 3 0 with mask := BitVec.ofNat 32 1, modeAnd := true, rd := 31 } = some 1 ∧
      waitMet { threadOf d 3 0 with mask := BitVec.ofNat 32 2, modeAnd := false, rd := 31 } = none := by decide +kernel
/-- FlagsRun: a thread that is ready, a free slot, a thread that waits for the flag. -/
theorem witness_FlagsRun :
    (31 < 32 ∧ (threadOf (dThread none [(0, threadTest .ready 0 0)]) 3 0).state = .ready) ∧ (threadOf (dThread none []) 3 0).state = .free ∧
    (let d := dThread none [(0, threadTest .waiting 0 0x80000000)]; let th := threadOf d 3 0; (th.state = .waiting ∨ th.state = .waitTimed) ∧
      waitMet { th with flags := th.flags ||| BitVec.ofNat 32 (2 ^ 31) } = some 0x80000000 ∧ ∀ c < 4, (coreOf d 3 c).running ≠ some 0) ∧
    (coreOf (dThread (some 7) [(0, threadTest .ready 0 0)]) 3 3).running.isSome = true := by decide +kernel
/-- CoreTakesAndDelaysRun. -/
theorem witness_CoreTakesAndDelaysRun :
    (let d := dThread none [(0, threadTest .ready 0 0)]; (coreOf d 3 3).running = none ∧ takeFrom d 3 3 (readyOrder d 3) = some 0) ∧
    (let d := { dObj with ctc := { dObj.ctc with scheds := [(3, { (default : SchedRec) with threads := [(0, threadTest .delayed 0 0)], delay := [(9, 0)] })] } };
      ((schedOf d 3).delay.filter fun x => decide (x.1 ≤ 9)) = [(9, 0)] ∧ (threadOf d 3 0).state = .delayed) := by decide +kernel
/-- FlowsRun: flow 15 with 255 tickets, with one, with two, and with none. -/
theorem witness_FlowsRun :
    (∀ l ∈ [(List.range 255).map fun t => (t, 0, (none : Option (Option (BitVec 64)))), [(5, 0, none)], [(5, 0, none), (6, 0, none)], []],
      let d := { dThread (some 0) [] with ctc := { (dThread (some 0) []).ctc with scheds := [(3, { (default : SchedRec) with flows := [(15, { (default : FlowRec) with open_ := l })] })] } };
      (coreOf d 3 3).running = some 0 ∧ (flowOf d 3 15).open_ = l ∧ l.length < 256) ∧
    (∀ x ∈ ([] : List (Nat × Nat × Option (Option (BitVec 64)))), x.1 ≠ 5 ∧ x.2.2 = none) ∧ 5 ≠ 6 := by decide +kernel
/-- A line of control memory whose home is die 3. -/
def lineTest : Nat := ctlBase 3
/-- The device with a cache of core 3 of die 3 and a directory record. -/
def dLine (c : CacheRec) (r : DirRec) (p : List (Nat × Nat)) : Dev := { dObj with ctc := { dObj.ctc with caches := [(15, c)], dirs := [(lineTest, r)], pendAns := p } }
/-- A busy line. -/
def busyTest : DirRec := { (default : DirRec) with busy := some { (default : BusyRec) with target := 15 } }
/-- A cache whose write-back buffer holds the line. -/
def wbTest (dirty noticed : Bool) : CacheRec := { (default : CacheRec) with wb := [(lineTest, { dirty := dirty, data := zeros 64, noticed := noticed })] }
/-- The home of the line is a die of the package in service. -/
theorem witness_CoherenceRuns_line :
    lineOf (0x10000000 + 3 * 2 ^ 22) = some lineTest ∧ homeOf lineTest < popDies State.reset.fuses ∧ dieLive dObj (homeOf lineTest) = true ∧ (0x10000000 + 3 * 2 ^ 22) % 4 = 0 := by
  decide +kernel
/-- CoherenceRuns: a cold line, a busy one, holders that are snooped, notices of each kind, an acknowledgement. -/
theorem witness_CoherenceRuns :
    ((dirOf dObj lineTest).busy = none ∧ (dirOf dObj lineTest).holders = [] ∧ (dirOf dObj lineTest).modified = none ∧ tget (cacheOf dObj 15).lines lineTest = none ∧
      thas (cacheOf dObj 15).wb lineTest = false ∧ (dirOf dObj lineTest).waiting = [] ∧ (cacheOf dObj 15).lines.length < 256) ∧
    (let d := dLine default busyTest []; (dirOf d lineTest).busy = busyTest.busy ∧ (∀ b ∈ busyTest.busy, b.reqCache ≠ 15 ∧ b.target = 15 ∧ b.notice = none) ∧
      (∀ w ∈ (dirOf d lineTest).waiting, w.1 ≠ 15) ∧ thas (cacheOf d 15).wb lineTest = false ∧ tget (cacheOf d 15).lines lineTest = none ∧ (cacheOf d 15).lines.length < 256) ∧
    (let d := dLine { (default : CacheRec) with lines := [(lineTest, (true, zeros 64))] } busyTest []; tget (cacheOf d 15).lines lineTest = some (true, zeros 64) ∧
      (dirOf d lineTest).waiting = [] ∧ tsorted 0 (cacheOf d 15).lines = true ∧ ∀ b ∈ busyTest.busy, b.rest = [] ∧ b.target = 15 ∧ b.reqCache ≠ b.target ∧ dieLive d (b.reqCache / 4) = true) ∧
    (∀ b ∈ [true, false], ∀ n ∈ [true, false], let d := dLine (wbTest b n) default []; (dirOf d lineTest).busy = none ∧
      tget (cacheOf d 15).wb lineTest = some { dirty := b, data := zeros 64, noticed := n }) ∧
    (dLine default busyTest [(15, lineTest)]).ctc.pendAns = [(15, lineTest)] := by decide +kernel

/-! ### Hypotheses that hold: warden, power, boot, telemetry, monitor, registers -/

/-- A message of source `src` of kind `kind`. -/
def msgTest (src kind : Nat) : WMsg := { (default : WMsg) with src := src, kind := kind }
/-- The device with one instance and one record in the warden. -/
def dWdn (k : Nat) (i : WInst) (r : Tab WRec) : Dev := { dObj with wdn := { dObj.wdn with inst := [(k, i)], recs := r } }
/-- Some source that is not privileged only interrupts on an event, has no escalation on its first message, and counts in one instance. -/
def plainSrc : Nat := 0x012
/-- WardenMessagesRun: a privileged source, a source that only interrupts, a message that waits, a quiet time that is over. -/
theorem witness_WardenMessagesRun :
    (srcRow 1).isSome = true ∧ isPriv 1 = true ∧ (msgTest 1 0).kind ≠ 2 ∧
    (let m := msgTest plainSrc 0; (srcRow m.src).isSome = true ∧ isPriv m.src = false ∧ m.kind = 0 ∧ (tgetD dObj.wdn.inst (instKey dObj m) default).state = 0 ∧
      (tgetD dObj.wdn.inst (instKey dObj m) default).live = false ∧ evtReact dObj m.src = 1 ∧ (bits (cfg0 dObj m.src) 31 24 = 0 ∨ inWindow dObj m.src ((0 :: (tgetD dObj.wdn.inst (instKey dObj m) default).times).take 256) < bits (cfg0 dObj m.src) 31 24) ∧
      dObj.wdn.ring.length < wdnRingMax ∧ (tgetD dObj.wdn.recs m.src default).isOpen = false) ∧
    (let d := { dObj with wdn := { dObj.wdn with inbox := [msgTest plainSrc 0] } }; d.wdn.inbox = [msgTest plainSrc 0]) ∧
    (let m := msgTest plainSrc 0; let n := { m with ts := 4 }; let d := { dObj with wdn := { dObj.wdn with inbox := [m, n] } }; isPriv m.src = false ∧ n.src = m.src ∧ n.die = m.die ∧
      n.kind = m.kind ∧ m.ts ≤ n.ts ∧ d.wdn.inbox = [m, n]) ∧
    (let j := { (default : WInst) with state := 2 }; let d := { dWdn (plainSrc * 128) j [] with regs := [(0x201000 + 8 * plainSrc, 1)] }; bits (cfg0 d plainSrc) 15 14 = 0 ∧ tget d.wdn.inst (plainSrc * 128) = some j ∧ j.live = false ∧
      (j.state = 1 ∨ j.state = 2) ∧ j.last + bits (cfg1 d plainSrc) 15 0 * 1000000 ≤ 10 ^ 12 ∧ bits (cfg0 d plainSrc) 12 7 = 0) := by decide +kernel
/-- A locked safety configuration whose CRC register holds `w`. -/
def dLocked (w : Word) : Dev := { dObj with regs := [(0x200000, 1), (0x200034, w)] }
/-- The CRC register is no part of the configuration. -/
theorem dLocked_cfg (w : Word) : wdnCfgBytes (dLocked w) = wdnCfgBytes (dLocked 0) := by
  have h : ∀ o, o ≠ 0x200034 → rget (dLocked w) o = rget (dLocked 0) o := by
    intro o ho; unfold rget dLocked tget tget tget
    split <;> [rfl; (split <;> [rfl; (split <;> [omega; rfl])])]
  have h0 : ∀ s, rget (dLocked w) (0x201000 + 8 * s) = rget (dLocked 0) (0x201000 + 8 * s) := fun s => h _ (by omega)
  have h1 : ∀ s, rget (dLocked w) (0x201004 + 8 * s) = rget (dLocked 0) (0x201004 + 8 * s) := fun s => h _ (by omega)
  unfold wdnCfgBytes
  simp only [h0, h1, h 0x200000 (by decide), h 0x200028 (by decide), h 0x20002C (by decide), h 0x200030 (by decide)]
/-- WardenWritesRun: a configuration that does not agree with its CRC register. -/
theorem witness_WardenWritesRun_differs : ∃ w, bitAt (rget (dLocked w) 0x200000) 0 = true ∧ crc32c (wdnCfgBytes (dLocked w)) ≠ rget (dLocked w) 0x200034 := by
  by_cases h : crc32c (wdnCfgBytes (dLocked 0)) = 0
  · exact ⟨1, by decide +kernel, by rw [dLocked_cfg, h]; decide +kernel⟩
  · exact ⟨0, by decide +kernel, h⟩
/-- A CRC has 32 bits. -/
theorem crc32c_lt (bs : Bytes) : crc32c bs < 2 ^ 32 := by
  have bit : ∀ c, c < 2 ^ 32 → crc32cBit c < 2 ^ 32 := by
    intro c h; unfold crc32cBit; split
    · exact Nat.xor_lt_two_pow (by omega) (by omega)
    · omega
  have rep : ∀ n c, c < 2 ^ 32 → Nat.repeat crc32cBit n c < 2 ^ 32 := by
    intro n; induction n with
    | zero => exact fun _ h => h
    | succ n ih => exact fun c h => bit _ (ih c h)
  have fold : ∀ (bs : Bytes) c, c < 2 ^ 32 → bs.foldl crc32cByte c < 2 ^ 32 := by
    intro bs; induction bs with
    | nil => exact fun _ h => h
    | cons b t ih => exact fun c h => ih _ (rep 8 _ (Nat.xor_lt_two_pow h (by have := b.isLt; omega)))
  exact Nat.xor_lt_two_pow (fold bs _ (by omega)) (by omega)
/-- What the CRC register of `dLocked` holds. -/
theorem rget_dLocked (w : Word) : rget (dLocked w) 0x200034 = w.toNat := rfl
/-- The configuration of `dLocked` is locked. -/
theorem dLocked_lock (w : Word) : bitAt (rget (dLocked w) 0x200000) 0 = true := by
  have h : rget (dLocked w) 0x200000 = 1 := rfl
  rw [h]; decide
/-- A CRC register that holds the configuration's CRC. -/
theorem dLocked_agrees (c : Nat) (hc : c < 2 ^ 32) (h : crc32c (wdnCfgBytes (dLocked 0)) = c) :
    ∃ w, bitAt (rget (dLocked w) 0x200000) 0 = true ∧ crc32c (wdnCfgBytes (dLocked w)) = rget (dLocked w) 0x200034 :=
  ⟨BitVec.ofNat 32 c, dLocked_lock _, by rw [dLocked_cfg, h, rget_dLocked, BitVec.toNat_ofNat, Nat.mod_eq_of_lt hc]⟩
/-- WardenWritesRun: a configuration that agrees with its CRC register. -/
theorem witness_WardenWritesRun_agrees : ∃ w, bitAt (rget (dLocked w) 0x200000) 0 = true ∧ crc32c (wdnCfgBytes (dLocked w)) = rget (dLocked w) 0x200034 :=
  dLocked_agrees _ (crc32c_lt _) rfl
/-- WardenWritesRun: the lock, acknowledgements, an instance to unlatch, injections, a record to read. -/
theorem witness_WardenWritesRun :
    bitAt (rget dObj 0x200000) 0 = false ∧
    (bitAt (rget (dLocked 0) 0x200000) 0 = true ∧ isPriv (bits 1 8 0) = true) ∧
    (let d := dWdn (511 * 128) default [(511, { (default : WRec) with isOpen := true })]; (tgetD d.wdn.recs (bits 511 8 0) default).isOpen = true ∧ (∀ i ∈ d.wdn.inst, i.2.live = false) ∧
      bitAt 511 30 = false ∧ bitAt 511 31 = false) ∧
    (isPriv 511 = false ∧ (tgetD dObj.wdn.recs 511 default).isOpen = false ∧ isPriv (bits 511 8 0) = false) ∧
    (let d := dWdn 0 default [(0, default)]; (tget d.wdn.recs (bits (rget d 0x200040) 8 0)).isSome = true) := by decide +kernel
/-- SafeStateRuns: an instance that holds S and none; the state to be left; a latched one; a heartbeat; a block reset. -/
theorem witness_SafeStateRuns :
    (let d := dWdn 128 { (default : WInst) with state := 1 } []; anyHeld d 5 = true) ∧
    (let d := { dTurn 5 5 with wdn := { dObj.wdn with safe := { dObj.wdn.safe with on := true, clrReq := true } } }; anyHeld d 5 = false ∧ d.wdn.safe.on = true ∧ d.wdn.safe.latched = false ∧
      (bitAt (rget d 0x200000) 1 = true ∨ d.wdn.safe.clrReq = true) ∧ running d = true ∧ bits (rget d 0x200028) 15 0 ≠ 0 ∧ 0 % bits (rget d 0x200028) 15 0 = 0) ∧
    ({ dObj.wdn.safe with latched := true } : SafeRec).latched = true ∧
    (let d := { dObj with wdn := { dObj.wdn with resets := [(3, 0x9F)] } }; d.wdn.resets.contains (3, 0x90 + 15) = true) := by decide +kernel
/-- PowerAndResetsRun: a package without power; one with it, whose telemetry has no address yet; temperatures. -/
theorem witness_PowerAndResetsRun :
    ({ dObj.pin with vddIo := false } : PinDev).vddIo = false ∧ dObj.pin.vddIo = true ∧ dObj.pin.smbAddr = none ∧ (10 ≤ 10 ∧ 9 < 10) ∧ ((920 : Int) < 921) ∧ ((840 : Int) < 841 ∧ (841 : Int) ≤ 920) ∧
      ((760 : Int) < 761 ∧ (761 : Int) ≤ 840) ∧ ((720 : Int) ≤ 720 ∧ (720 : Int) ≤ 760) ∧ (719 : Int) < 720 := by decide +kernel
/-- A device whose flash holds `imgTest` as its program image. -/
def dFlash : Dev := { Dev.reset with pin := { Dev.reset.pin with flash := imgTest.zipIdx.map fun b => (0x02100000 + b.2, b.1) } }
/-- BootRuns: a package that boots with an image in format and range; the stages of the last part; every failure stage. -/
theorem witness_BootRuns :
    (dFlash.pin.vddIo = true ∧ dFlash.pin.pwrGood = true ∧ dFlash.pin.trip = false ∧ dFlash.pin.stage = 0 ∧ dFlash.pin.ready = false ∧ dFlash.pin.stage < 0x80) ∧
    imgFormatOk (flashImage dFlash) = true ∧ imgRangeOk (flashImage dFlash) = true ∧ flashImage dFlash = imgTest ∧
    (∀ n ∈ [2, 7], 2 ≤ ({ dObj.pin with stage := n } : PinDev).stage ∧ ({ dObj.pin with stage := n } : PinDev).stage ≤ 7) ∧ 0x81 ≤ 0x85 := by decide +kernel
/-- TelemetryAndTestRun and FieldPortLinkRuns. -/
theorem witness_TelemetryAndPortsRun :
    ({ dObj.pin with smbAddr := some 0x58 } : PinDev).smbAddr.isSome = true ∧ popDies State.reset.fuses ≤ 4 ∧ 6 < 7 ∧ dObj.pin.vddIo = true ∧
      ({ dObj.pin with resetN := false } : PinDev).resetN = false ∧ 2 ^ 26 - 1 < 2 ^ 26 ∧ 7 < 8 := by decide +kernel
/-- A device whose monitor serves the firmware's commands. -/
def dMon (m : MonDev) : Dev := { awake dObj with mon := m }
/-- MonitorReadsRun: the monitor runs; an address that a register has; counts at their bounds. -/
theorem witness_MonitorReadsRun :
    (monUp (dMon default) = true ∧ monRom (dMon default) = false) ∧ (1 ≤ 64 ∧ 64 ≤ 64) ∧ 16 < 17 ∧ (1 ≤ 16 ∧ ∀ i, i < 16 → monAddr State.reset.fuses (0x200000 + 4 * i) = true) ∧
    (monAddr State.reset.fuses 0x200018 = true ∧ msixAt (dMon default) .monitor 0x200018 = none ∧ regKey State.reset.fuses (dMon default) .monitor 0x200018 = some 0x200018) := by decide +kernel
/-- MonitorUnlockRuns: locked and unlocked, with a challenge whose other five lines have come and with one of which none has, a lockout, read-only. -/
theorem witness_MonitorUnlockRuns :
    (dMon default).time.now ≤ 0 ∧ bitAt (rget (dMon default) 0x1000) 1 = false ∧ (dMon default).mon.lockout = false ∧ (dMon default).mon.unlocked = false ∧
    bitAt (rget { dMon default with regs := [(0x1000, 3)] } 0x1000) 1 = true ∧ monUp { dMon default with regs := [(0x1000, 3)] } = true ∧
    (let d := dMon { (default : MonDev) with nonce := some (1, 0), resp := [0, 1, 2, 3, 4].map fun i => (i, zeros 16) }; d.mon.nonce = some (1, 0) ∧ 60000000000 ≤ 0 + 60000000000 ∧
      (zeros 16).length = 16 ∧ (tput d.mon.resp 5 (zeros 16)).length = 6) ∧ (tput (dMon default).mon.resp 5 (zeros 16)).length ≠ 6 ∧
    ((dMon { (default : MonDev) with unlocked := true }).mon.unlocked = true ∧ monAddr State.reset.fuses 0x600000 = true ∧ 511 < 512) ∧
    (dMon { (default : MonDev) with lockout := true }).mon.lockout = true := by decide +kernel
/-- What RegistersRun asks of a register that the PF reaches at its offset. -/
def regMeets (d : Dev) (o : Nat) (p : RegHit → Bool) : Bool :=
  decide (msixAt d (.host 0) o = none) && decide (regKey State.reset.fuses d (.host 0) o = some o) && (regHit o).any p
/-- A value written changes the register's writable bits. -/
def changesBits (d : Dev) (o v : Nat) (h : RegHit) : Bool :=
  let m := writable (.host 0) h.row; decide ((fixVal d o (rget d o) v &&& m) ≠ (rget d o &&& m))
/-- RegistersRun: a read-clear counter. -/
theorem witness_RegistersRun_rc :
    regMeets (dMon default) 0x10 (fun h => decide (h.row.pair = 0 ∧ h.row.rc = true)) = true ∧ tget (dMon default).latch 0x10 = none ∧
      (showReg State.reset.fuses (dMon default) 0x10).2 = dMon default := by decide +kernel
/-- RegistersRun: TRN_CFG before run and under its lock, with a value that changes it and one that does not; a sticky register; the control register of an engine. -/
theorem witness_RegistersRun_write :
    (∀ r ∈ [0, 1], let d := { dMon default with regs := [(0x600004, BitVec.ofNat 32 r)] };
      (writeEffect (atTime d 0) (.host 0) 0x600000 2 0).isNone = true ∧ (writeEffect (atTime d 0) (.host 0) 0x600000 1 0).isNone = true ∧ (clearBlock (atTime d 0) 0x600000).isNone = true ∧
      regMeets d 0x600000 (fun h => decide (h.row.pair = 0 ∧ h.row.w1c = 0 ∧ writable (.host 0) h.row ≠ 0) && lockedNow (atTime d 0) 0x600000 h.row.lock == decide (r = 1) &&
        changesBits (atTime d 0) 0x600000 2 h && !changesBits (atTime d 0) 0x600000 1 h) = true) ∧
    (let d := dMon default; (writeEffect d (.host 0) 0x200014 3 0).isNone = true ∧ (clearBlock d 0x200014).isNone = true ∧
      regMeets d 0x200014 (fun h => decide (h.row.pair = 0 ∧ h.row.w1c ≠ 0 ∧ writable (.host 0) h.row = 0) && !lockedNow d 0x200014 h.row.lock) = true) ∧
    (∀ o ∈ [0x400008, 0x401004, 0x4011E0], let d := dMon default; (writeEffect (atTime d 0) (.host 0) o 2 0).isNone = true ∧
      regMeets d o (fun h => decide (h.row.pair = 0 ∧ h.row.w1c = 0 ∧ writable (.host 0) h.row ≠ 0) && !lockedNow (atTime d 0) o h.row.lock) = true) ∧
    (let o := engReg 3 0 15 0; rget (dMon default) o < 4 ∧
      regMeets (dMon default) o (fun h => decide (writable (.host 0) h.row = 2 ∧ h.row.pair = 0 ∧ h.row.w1c = 0 ∧ h.row.lock = .free)) = true) := by decide +kernel
/-- TablesAndApertureRun: the last vector's data of VF 16 and the PF's first control word; the last word of the host scratch; banks that the host owns and does not own. -/
theorem witness_TablesAndApertureRun :
    msixAt (dMon default) (.host 16) 0x203F8 = some (16, false, 0x3F8) ∧ 0x3F8 % 16 ≠ 12 ∧ msixAt (dMon default) (.host 0) 0x70800C = some (0, false, 12) ∧
      (bar2At State.reset.fuses dObj ((0x400000000 + 0x2FFFFFFFC) / 4 * 4)).any (fun x => x.2.isNone) = true ∧
      (let d := { dObj with eng := { dObj.eng with owner := [(3 * 16 + 15, (0x12, 15, false))] } }; let a := 0x1800000000 + 3 * 0x10000000 + 15 * 0x1000000;
        (bar2At State.reset.fuses d (a / 4 * 4)).any (fun x => x.2 == some (3, 15)) = true ∧ ownedBy d 3 0x12 15 = true ∧ ownedBy dObj 3 0x12 15 = false) := by decide +kernel
/-- RegisterPairsRun: the time registers before run and under its lock, and a pair that run locks besides; a latched and a staged word. -/
theorem witness_RegisterPairsRun :
    ∀ o ∈ [0x600018, 0x500040], ∀ r ∈ [0, 1], let d := { dMon default with regs := [(0x600004, BitVec.ofNat 32 r)] };
      regMeets d o (fun h => decide (h.row.pair = 1 ∧ h.row.rc = false ∧ h.row.rw ≠ 0)) = true ∧
      regMeets d (o + 4) (fun h => decide (h.row.pair = 2 ∧ h.row.rc = false ∧ h.row.rw ≠ 0) && lockedNow (atTime d 0) (o + 4) h.row.lock == decide (r = 1 ∧ o = 0x600018)) = true ∧
      tget d.latch o = none ∧ (showReg State.reset.fuses d o).2 = d ∧ (showReg State.reset.fuses d (o + 4)).2 = d ∧ (writeEffect d (.host 0) o 4096 0).isNone = true ∧
      (writeEffect (atTime d 0) (.host 0) (o + 4) 4096 0).isNone = true ∧ bitAt 4096 0 = false ∧
      tget ({ d with latch := [(o + 4, 7)] } : Dev).latch (o + 4) = some 7 ∧ tget ({ d with staged := [(o, 7)] } : Dev).staged o = some 7 ∧
      (0 &&& 0xffffffff) = ((showReg State.reset.fuses d o).1 &&& 0xffffffff) := by decide +kernel
/-- UnlistedRegistersReadZero: an offset that no register has, and the first and last words of the windows of dies that the package does not have. -/
theorem witness_UnlistedRegistersReadZero :
    (msixAt (dMon default) (.host 0) 0x14C = none ∧ regHit 0x7FC = none) ∧ 128 ≤ 128 ∧ 0x100 + 4 * 959 < 0x1000 ∧
    ∀ a ∈ [0x05000000, 0x08FFFFFC], 0x01000000 ≤ a ∧ a < 0x09000000 ∧ popDies State.reset.fuses ≤ (a - 0x01000000) / 0x01000000 ∧ msixAt (dMon default) (.host 0) a = none := by decide +kernel
/-- QueryStatusRuns: in a turn; in replay, of the polder's own map. -/
theorem witness_QueryStatusRuns :
    dObj.ldg.replay = false ∧ (let d := dLdg fun l => { l with replay := true }; let c := cmdOfBlock 0 ([1, 0] ++ w2 0 ++ zeros 4);
      d.ldg.replay = true ∧ askOk c = true ∧ (statusRecord d c).isSome = true ∧ ((statusRecord d c).map (·.1)) = some c.polder) := by decide +kernel

/-! ### WellFormed: an ill-formed term for each check, refused -/

/-- A command of opcode `op` that is well formed. -/
def okCmd (op : Nat) : Cmd := { cmdOfBlock 1 [] with op := op }
/-- A fabric frame that is well formed. -/
def okFrame : FabFrame := { port := 3, mac := 2 ^ 48 - 1, body := zeros 24 }
/-- The checks on commands: opcode, polder, tag, class, deadline, budget, origin. -/
theorem test_wf_commands :
    (∀ i ∈ [Instr.nop (okCmd 0), .plan { okCmd 0x500 with cls := 3, deadline := 2 ^ 64 - 1 }, .stopVerify { okCmd 0x501 with origin := .field 7 4095 }], wf i = true) ∧
    (∀ i ∈ [Instr.nop (okCmd 1), .plan { okCmd 0x500 with polder := 17, origin := .internal 1 }, .plan { okCmd 0x500 with tag := 2 ^ 32 }, .plan { okCmd 0x500 with cls := 4 },
        .plan { okCmd 0x500 with deadline := 2 ^ 64 }, .plan { okCmd 0x500 with budget := 2 ^ 32 }, .plan { okCmd 0x500 with origin := .host 2 0 },
        .plan { okCmd 0x500 with origin := .host 1 8 }, .stopVerify { okCmd 0x501 with origin := .field 8 0 }, .stopVerify { okCmd 0x501 with origin := .field 0 4096 },
        .polderReset { okCmd 0xA02 with origin := .internal 8 }, .cfgCommit { okCmd 0xC04 with origin := .fabric 64 }], wf i = false) := by decide +kernel
/-- The checks on the host interface, field ports and time. -/
theorem test_wf_ports :
    ∀ i ∈ [Instr.hifSqTail 17 0 0, .hifSqTail 0 8 0, .hifSqTail 0 0 (2 ^ 32), .commandFetch 0 0 (2 ^ 64) (zeros 64) [], .commandFetch 0 0 0 (zeros 63) [], .msixUnmask 17 0, .msixUnmask 0 64,
      .flrVf 0 0, .flrVf 17 0, .streamFrameIngress 8 0 0 [], .streamFrameIngress 0 (2 ^ 48) 0 [], .requestIngress 0 0 (2 ^ 64) [], .unmatchedFrame 8 true, .trnTaiSet (2 ^ 64),
      .streamTimeout 128, .pcieLinkUp 2 4 0, .pcieLinkUp 7 4 0, .pcieLinkUp 3 5 0, .pcieLinkUp 3 4 17, .fieldPortLink 8 true, .fabricPortLink 4 true, .pinHoldExpiry 65536,
      .setBuildEnd 65536, .calibSpanExpiry 65536, .laneStep 10 0 0 0, .laneStep 0 2 0 0, .laneStep 0 0 256 0, .laneStep 0 0 0 256], wf i = false := by decide +kernel
/-- The checks on dies, cores, units and operands. -/
theorem test_wf_units :
    ∀ i ∈ [Instr.quietTailCheck 8, .bermOverrun 0 256 0, .bermOverrun 0 0 (2 ^ 18), .planSeal 0 (2 ^ 32), .operationStart 0 0 0 none (some 16) none default,
      .operationStart 0 0 0 none none (some (2 ^ 22)) default, .swpStage 0 16 0, .swpStage 0 0 (2 ^ 48), .frontierRefill 0 0 1024, .barrierRelease 0 8 0, .bankTestRegion 0 16 true], wf i = false := by
  decide +kernel
/-- The checks on control cores, threads and lines. -/
theorem test_wf_cores :
    ∀ i ∈ [Instr.mcopy 0 4 0 0 0 none 0 none, .mcopy 0 0 32 0 0 none 0 none, .mfill 0 0 0 32 0 none 0 none, .qdrain 0 0 0 0 32 none 0 none, .crcb64 0 0 31 0 0 none 0 none,
      .interruptTake 0 0 false 841, .tspawn 0 0 0 32 0 0 0, .tspawn 0 0 0 0 (2 ^ 32) 0 0, .tspawn 0 0 0 0 0 (2 ^ 32) 0, .twait 0 0 0 (2 ^ 32) true none, .twait 0 0 0 0 true (some (2 ^ 64)),
      .tsignal 0 0 256 0 0, .tsignal 0 0 0 32 0, .hardwareEventFlag 0 0 0 0 (some (0, zeros 63)), .delayExpiry 0 (2 ^ 64), .flowEnter 0 0 0 16, .flowDone 0 0 0 (2 ^ 32) 0,
      .flowDone 0 0 0 0 (2 ^ 64), .stwt 0 0 (2 ^ 32) 0, .coherenceRequest 0 0 0 true (some (2 ^ 32)), .snoop (2 ^ 32)], wf i = false := by decide +kernel
/-- The checks on messages, twins, the fabric, boot, the monitor and registers. -/
theorem test_wf_rest :
    ∀ i ∈ [Instr.wardenMessage (some { (default : WMsg) with src := 512 }) 0, .wardenMessage (some { (default : WMsg) with kind := 4 }) 0, .wardenMessage (some { (default : WMsg) with origin := 256 }) 0,
      .wardenMessage (some { (default : WMsg) with detail := 2 ^ 32 }) 0, .wardenMessage (some { (default : WMsg) with ts := 2 ^ 64 }) 0, .quietExpiry 512 0 0 0, .wdnHeartbeatMiss 0 256 0,
      .safeHeartbeat (2 ^ 48), .blockReset 0 256, .twinLinkFrame 65536 0 true .idle 0, .twinLinkFrame 0 (2 ^ 32) true .idle 0, .twinLedgerEntry 0 { (default : Entry) with kind := 9 },
      .twinLedgerEntry 0 { (default : Entry) with kind := 1, source := 65536 }, .twinSeal 0 (2 ^ 64), .dieBistEnd 0 true 65536, .hello { okFrame with port := 4 } 0,
      .hello { okFrame with mac := 2 ^ 48 } 0, .hello { okFrame with body := zeros 23 } 0, .dataResendTimeout 64 0, .dataResendTimeout 0 4, .bootReady 256 [], .bootReady 0 [(8, 0)],
      .bootReady 0 [(0, 16)], .bootFailure 256 0 [], .spiAccess (2 ^ 32) [], .smbRailVoltage 256, .smbWrite 256 [], .rd (2 ^ 32) 1, .monAck (some 512) true 0,
      .rcRead (.host 17) 0, .rcRead (.core 8) 0, .rcRead .monitor (2 ^ 37), .registerWrite .monitor 0 (2 ^ 32) 0], wf i = false := by decide +kernel

/-! ### Hypotheses that hold: rules over the whole machine -/

/-- StepKeepsMemoryForm, FusesAndQueueKept, WellFormedCompletes, OthersLeaveMemory, OtherPoldersObjectsStand. -/
theorem witness_whole_machine :
    Memory.wf State.reset.mem = true ∧ wf .powerOn = true ∧ mayStore .powerOn = false ∧ (cmdOfBlock 1 []).polder ≠ 0 ∧
    (∃ t, step { State.reset with pending := [.powerOn] } = .next t) ∧ (∃ t, exec .powerOn State.reset = .next t) ∧ (∃ t, exec (.mapDestroy (cmdOfBlock 1 (zeros 4))) (onReset objects) = .next t) ∧
    tget (objects Dev.reset).world.maps 0 = some mapTest ∧ mapTest.owner ≠ 1 ∧ 2 ^ 64 - 1 < 2 ^ 64 :=
  ⟨by decide +kernel, by decide +kernel, by decide +kernel, by decide +kernel, ⟨_, rfl⟩, ⟨_, rfl⟩, ⟨_, rfl⟩, by decide +kernel, by decide +kernel, by decide +kernel⟩
/-- RestrictedMonitor: while the boot ROM runs, and after a boot failure. -/
theorem witness_RestrictedMonitor :
    ∀ n ∈ [1, 3, 0x80, 0x85], monUp { dObj with pin := { dObj.pin with stage := n } } = true ∧ monRom { dObj with pin := { dObj.pin with stage := n } } = true := by decide +kernel
/-! ### The worked examples of the spec -/

/-- 03_turns_and_determinism.md, one sum in two orders: both end at the same register and counter, and the result is the largest 32-bit value. -/
theorem test_wide_sum_orders :
    [300, 400, -500, 350].foldl (fun a (x : Int) => wideAdd 40 a (x * 1000000000)) (0, 0) = (-549511627776, 1) ∧
    tnsAcc ([-500, 300, 350, 400].map fun (x : Int) => x * 1000000000) = (2147483647, true) := by decide +kernel
/-- 02_dies_cores_clocks.md, a KV-840 that loses core 3 of die 1: the cores of tiles 19, 40, 43, 63, 126 and 127 after it. -/
theorem test_tile_map_example :
    ([19, 40, 43, 63, 126, 127].map fun t =>
      (tileMapOf Fuses.reset { Dev.reset with pkg := { Dev.reset.pkg with svc := [(1, 8)] } } (actImg Dev.reset)).getD t 0) =
      [1 * 16 + 4, 2 * 16 + 9, 2 * 16 + 12, 0, 0, 1] := by decide +kernel
/-- Map 5 of 04_world_model.md. -/
def map5 : MapRec := { (default : MapRec) with boxMin := ⟨-524288, -262144, 0⟩, boxMax := ⟨13107200, 13369344, 262144⟩, k := 12, sliceMs := 50 }
/-- 04_world_model.md, one probe: tile, brick and voxel of the point, and the bit that is read of two bricks. -/
theorem test_probe_example :
    let v := voxOf map5 ⟨2442527, 839680, 91750⟩
    tileOf map5 v = 2923 ∧ brickOf v = 1 ∧ voxInBrick v = 1748 ∧ mapTileCount map5 = 10816 ∧ sliceOf 1700000000512000000 50 = 34000000010 ∧
      probeBit 34000000000 34000000010 = 10 ∧ probeBit 33999999930 34000000010 = 63 := by decide +kernel
/-- 06_sweep_engine.md, sample 8, sphere 31 against the shelf upright: d2 and the gap. -/
theorem test_box_distance_example :
    leafDist ⟨2444032, 846000, 91750⟩ 8520 1 (prepBytes (.box ⟨2460000, 840000, 131072⟩ ⟨3277, 32768, 131000⟩ (rotMat [16384, 0, 0, 0]) 0)) = (161061481, 8520) ∧
      isqrt 161061481 - 8520 = 4171 := by decide +kernel
/-- The layer of 07_tensor_engine.md's quantised example. -/
def layer7 : Layer := { (default : Layer) with op := 1, cIn := 4, cOut := 2, d := 1, h := 1, w := 1, kd := 1, kh := 1, kw := 1, stride := 1 }
/-- Its input row, weights and scale table at 0, 4096 and 16384. -/
def rows7 : Mem :=
  mputs (mputs (mputs (mputs [] 0 (sbytes 1 37 ++ sbytes 1 (-12) ++ sbytes 1 90 ++ sbytes 1 5))
    4096 (sbytes 1 20 ++ sbytes 1 (-7) ++ sbytes 1 15 ++ sbytes 1 3)) 4160 (sbytes 1 (-4) ++ sbytes 1 11 ++ sbytes 1 0 ++ sbytes 1 (-100)))
    16384 (sbytes 4 411 ++ w2 19661 ++ [18, 0] ++ sbytes 4 (-20) ++ w2 19661 ++ [18, 0])
/-- Its activation table 0. -/
def table7 (i : Nat) : Nat := if 128 ≤ i then 256 * (i - 128) + 256 * 65536 else (65536 - 32 * (128 - i)) % 65536 + 32 * 65536
/-- 07_tensor_engine.md, one quantised layer: the output row, acc_sat, clamp_cnt and the cycles. -/
theorem test_quantised_layer_example :
    (layerRun rows7 layer7 table7 0 4096 16384 0).out = [0x7F, 0xF8] ++ zeros 62 ∧ (layerRun rows7 layer7 table7 0 4096 16384 0).accSat = false ∧
      (layerRun rows7 layer7 table7 0 4096 16384 0).clamp = 1 ∧ layer7.cycles = 72 := by decide +kernel
/-- 07_tensor_engine.md, the predictor of map 5: the cycles of its three layers. -/
theorem test_layer_cycles_example :
    ([(3, 32, 8, 20), (3, 64, 6, 18), (1, 64, 4, 16)].map fun x =>
      { (default : Layer) with op := 2, cIn := x.2.1, cOut := 64, d := x.2.2.1, h := x.2.2.2, w := x.2.2.2, kd := x.1, kh := x.1, kw := x.1, stride := 1 }.cycles) =
      [27280, 27712, 1088] := by decide +kernel
/-- 09_solver_engine.md, the IK iteration at a singular pose: the solution y, and one pivot clamp. -/
theorem test_singular_pose_example :
    Id.run ((ldltSolve [[4194304, 0, -4194304], [0, 8388608, 0], [-4194304, 0, 4194304]] [524288, 1048576, -458752] 8192 3).run {}) =
      ([68157440, 1048576, 67108864], { sat := 0, piv := 1 }) := by decide +kernel
/-- The row of 10_select_engine.md's example. -/
def row10 : List Elem := [(40, 0xA0), (17, 0xA1), (25, 0xA2), (17, 0xA3), (90, 0xA4), (25, 0xA5), (12, 0xA6), (25, 0xA7)]
/-- 10_select_engine.md: TOPK 4 with its sums and cycles. -/
theorem test_topk_example :
    (selRun 2 0 4 [row10]).out = [(12, 0xA6), (17, 0xA1), (17, 0xA3), (25, 0xA2)] ∧ (selRun 2 0 4 [row10]).sel = 71 ∧ (selRun 2 0 4 [row10]).left = 180 ∧
      selCycles 2 8 4 0 = 34 := by decide +kernel
/-- 10_select_engine.md: UNIQ with its sums. -/
theorem test_uniq_example :
    (selRun 3 0 0 [row10]).out = [(12, 1), (17, 2), (25, 3), (40, 1), (90, 1)] ∧ (selRun 3 0 0 [row10]).sel = 184 ∧ (selRun 3 0 0 [row10]).left = 67 := by
  decide +kernel
/-- The loop bundle of 11_bundle_programming.md's example. -/
def bundle11 : Bytes := leBytes 8 0x00001400090C0000 ++ leBytes 8 0x4202000000209000 ++ leBytes 8 0x4002000000212000 ++ leBytes 8 0x4402000001613000 ++ zeros 32
/-- 11_bundle_programming.md: three slots, for the solver, sweep and frontier units, with data counts 0, 1, 1 and credit counts 1, 1, 0. -/
theorem test_bundle_example :
    ((bundleOps bundle11 3000 3001 0 0).map fun o => (o.1, o.2.code, o.2.data, o.2.credit, o.2.notBefore)) =
      [(0x42, 2, 0, 1, 3000), (0x40, 2, 1, 1, 3000), (0x44, 2, 1, 0, 3000)] := by decide +kernel
/-- The package of 13_polders_and_sluice.md's example: slices of 300, 2,100 and 600 cycles on 64 cores. -/
def berm13 : Dev :=
  { Dev.reset with regs := Dev.reset.regs ++ [(0x100808, 300)], pkg := { Dev.reset.pkg with m := 64 },
                   pld := [(0, polder0), (3, { polder0 with slice := 2100 }), (5, { polder0 with slice := 600 })] }
/-- 13_polders_and_sluice.md: slot shares 6, 44 and 12, capacities 0, 540 and 40, and the charges of 4 and 2 rungs. -/
theorem test_berm_example :
    ([0, 3, 5].map fun p => (c0Share berm13 p, capP berm13 p)) = [(6, 0), (44, 540), (12, 40)] ∧
      ladderCharge berm13 ([1, 7] ++ w2 48) 4 = 344 ∧ ladderCharge berm13 ([1, 7] ++ w2 48) 2 = 188 := by decide +kernel
/-- A thread of 14_control_cores.md's example, `r` in ns. -/
def thread14 (level core r : Nat) (st : TState) : ThreadRec := { (default : ThreadRec) with state := st, level := level, core := core, everRan := true, ready := ticks r }
/-- Its die 0: cores 0 to 2 run, T9, T17 and T40 are READY. -/
def sched14 : Dev :=
  { Dev.reset with ctc := { Dev.reset.ctc with
      scheds := [(0, { (default : SchedRec) with threads := [(9, thread14 2 3 105200 .ready), (17, thread14 2 1 100000 .ready), (30, thread14 5 0 0 .running),
        (31, thread14 2 1 0 .running), (32, thread14 5 2 0 .running), (40, thread14 2 3 102500 .ready)] })],
      cores := [(0, { (default : CoreRec) with running := some 30, dispatched := ticks 90000 }), (1, { (default : CoreRec) with running := some 31 }),
        (2, { (default : CoreRec) with running := some 32, dispatched := ticks 104000 })] } }
/-- 14_control_cores.md: core 3 takes T40; the chucks of cores 2 and 0 then hold T17 and T9; T2 at level 1 interrupts core 2. -/
theorem test_affinity_example :
    (coreOf (fxTake sched14 0 3 106000) 0 3).running = some 40 ∧ chucks (fxTake sched14 0 3 106000) 0 = [(2, 17), (0, 9)] ∧
      ([0, 1, 2, 3].map fun c => (coreOf (wake (modThread (fxTake sched14 0 3 106000) 0 2 fun _ => thread14 1 0 0 .waiting) 0 2 (ticks 106300)) 0 c).running) =
        [some 30, some 31, none, some 40] := by decide +kernel
/-- The sixteen values of d of 15_live_calibration.md, in us. -/
def spans15 : List Int := [-1380, -1345, -1330, -1320, -1290, -1270, -1240, -1200, -1160, -1100, -1020, -950, -900, -750, -500, 100]
/-- Stream 12 with a running estimate and lat_floor 400 us, in turn 774. -/
def calib15 : Dev :=
  setEst { Dev.reset with regs := Dev.reset.regs ++ [(calBase 0 + 4, 2000 * 65536 + 400)], time := { Dev.reset.time with turn := 774 },
                          world := { Dev.reset.world with streams := [(12, streamTest)] } }
    1036 { (default : CalRec) with state := 1, want := 16, start := 12, apply := true }
/-- 15_live_calibration.md: lo, the spread and r of a sender clock 1.8 ms fast. -/
theorem test_calib_time_example :
    let e := estOf (spans15.foldl (fun d x => timeSample d 12 5000000 (5000000 - x * 1000)) calib15) 1036 2 12
    e.result = 1 ∧ e.before = -1380000 ∧ e.after = 880000 ∧ e.r = -1780000 := by decide +kernel
/-- 21_register_map.md: the counter SLV_PIVOT_CNT of core 11 on die 5 lies at 0x0612_0B1C. -/
theorem test_counter_address : dieWin 5 + 0x120000 + 0x100 * 11 + 0x1C = 0x06120B1C := by decide
/-- An empty queue leaves the machine as it is. -/
theorem test_step_idles : step State.reset = .next State.reset := rfl

end Sys2Proof.Tests
end

/-! PROOFS. What a command can answer at all: the fuses and the queue behind it stand (O3), and a well-formed one always answers a next state (O4). -/
namespace Sys2Proof.Machine
open Sys2Proof.Laws

/-- A command answers a next state that differs in memory and device only, or the fault of log entry 3, and that one only where it is not well formed. -/
def Answers (i : Instr) (s : State) : Prop :=
  (∃ m d, exec i s = .next (s.withMem m d)) ∨ (exec i s = .fault .illFormed ∧ wf i ≠ true)

/-- The one shape of the meanings that act on a place: the fault behind a guard that no well-formed command meets, nothing on a die that the package does
not have, the effect on any other. -/
theorem Answers.of_guarded {i : Instr} {s : State} {die : Nat} {f : Fuses → Mem → Dev → Mem × Dev} {beyond : Prop} [Decidable beyond]
    (h : exec i s = if beyond then .fault .illFormed else if die ≥ variantDies s.fuses.variant then .next s else onMem s f)
    (hwf : wf i = true → ¬ beyond) : Answers i s := by
  split at h
  · rename_i hbeyond
    exact .inr ⟨h, fun hw => hwf hw hbeyond⟩
  · split at h
    · exact .inl ⟨s.mem, s.dev, h⟩
    · exact .inl ⟨_, _, h⟩

/-- A meaning over `onDie` faults on a die number beyond 7 only. -/
theorem Answers.of_onDie {i : Instr} {s : State} {die : Nat} {f : Fuses → Mem → Dev → Mem × Dev}
    (h : exec i s = onDie s die f) (hp : Placed.Statement i) (hdie : (place i).1 = some die) : Answers i s :=
  .of_guarded h fun hw => by
    have := (hp hw).1 die hdie
    omega

/-- A meaning over `onCore` faults on a die number beyond 7 or a core number beyond 15 only. -/
theorem Answers.of_onCore {i : Instr} {s : State} {die core : Nat} {f : Fuses → Mem → Dev → Mem × Dev}
    (h : exec i s = onCore s die core f) (hp : Placed.Statement i) (hdie : (place i).1 = some die) (hcore : (place i).2.1 = some core) :
    Answers i s :=
  .of_guarded h fun hw => by
    obtain ⟨hd, hc, _⟩ := hp hw
    simp [hd die hdie, hc core hcore]

/-- A meaning over `onCtl` faults on a die number beyond 7 or a control core number beyond 3 only. -/
theorem Answers.of_onCtl {i : Instr} {s : State} {die core : Nat} {f : Fuses → Mem → Dev → Mem × Dev}
    (h : exec i s = onCtl s die core f) (hp : Placed.Statement i) (hdie : (place i).1 = some die) (hcore : (place i).2.2 = some core) :
    Answers i s :=
  .of_guarded h fun hw => by
    obtain ⟨hd, _, hc⟩ := hp hw
    simp [hd die hdie, hc core hcore]

/-- Every command answers so: one that acts on a die, a core or a control core by its place, every other one by a next state. -/
theorem exec_answers (i : Instr) (s : State) : Answers i s := by
  cases i with
  | quietTailCheck die => exact .of_onDie rfl (Placed.quietTailCheck die) rfl
  | bermOverrun die unit cyc => exact .of_onDie rfl (Placed.bermOverrun die unit cyc) rfl
  | planSeal die v => exact .of_onDie rfl (Placed.planSeal die v) rfl
  | bundleIssue die cyc => exact .of_onDie rfl (Placed.bundleIssue die cyc) rfl
  | operationStart die unit cyc ue bankCe bankUe desc => exact .of_onDie rfl (Placed.operationStart die unit cyc ue bankCe bankUe desc) rfl
  | tokenArrival die unit cyc => exact .of_onDie rfl (Placed.tokenArrival die unit cyc) rfl
  | swpStage die core operand => exact .of_onCore rfl (Placed.swpStage die core operand) rfl rfl
  | swpCheck die core operand ecc => exact .of_onCore rfl (Placed.swpCheck die core operand ecc) rfl rfl
  | swpInval die core operand => exact .of_onCore rfl (Placed.swpInval die core operand) rfl rfl
  | tnsLoad die core operand => exact .of_onCore rfl (Placed.tnsLoad die core operand) rfl rfl
  | tnsTable die core operand => exact .of_onCore rfl (Placed.tnsTable die core operand) rfl rfl
  | tnsLayer die core operand => exact .of_onCore rfl (Placed.tnsLayer die core operand) rfl rfl
  | slvBatch die core operand => exact .of_onCore rfl (Placed.slvBatch die core operand) rfl rfl
  | slvRows die core operand desc => exact .of_onCore rfl (Placed.slvRows die core operand desc) rfl rfl
  | selSort die core operand => exact .of_onCore rfl (Placed.selSort die core operand) rfl rfl
  | selTopk die core operand => exact .of_onCore rfl (Placed.selTopk die core operand) rfl rfl
  | selUniq die core operand => exact .of_onCore rfl (Placed.selUniq die core operand) rfl rfl
  | selMerge die core operand => exact .of_onCore rfl (Placed.selMerge die core operand) rfl rfl
  | frnOpen die core operand => exact .of_onCore rfl (Placed.frnOpen die core operand) rfl rfl
  | frnPushb die core operand desc => exact .of_onCore rfl (Placed.frnPushb die core operand desc) rfl rfl
  | frnPopb die core operand desc => exact .of_onCore rfl (Placed.frnPopb die core operand desc) rfl rfl
  | frnClose die core operand => exact .of_onCore rfl (Placed.frnClose die core operand) rfl rfl
  | frontierRefill die core queue => exact .of_onCore rfl (Placed.frontierRefill die core queue) rfl rfl
  | dmaIn die operand => exact .of_onDie rfl (Placed.dmaIn die operand) rfl
  | dmaOut die operand => exact .of_onDie rfl (Placed.dmaOut die operand) rfl
  | dmaCtrl die operand => exact .of_onDie rfl (Placed.dmaCtrl die operand) rfl
  | dmaLink die operand => exact .of_onDie rfl (Placed.dmaLink die operand) rfl
  | barArm die operand cyc => exact .of_onDie rfl (Placed.barArm die operand cyc) rfl
  | route die unit operand => exact .of_onDie rfl (Placed.route die unit operand) rfl
  | signal die unit operand cyc => exact .of_onDie rfl (Placed.signal die unit operand cyc) rfl
  | grant die unit operand cyc => exact .of_onDie rfl (Placed.grant die unit operand cyc) rfl
  | barWait die unit operand cyc => exact .of_onDie rfl (Placed.barWait die unit operand cyc) rfl
  | unitNop die unit operand => exact .of_onDie rfl (Placed.unitNop die unit operand) rfl
  | barrierRelease die ctx cyc => exact .of_onDie rfl (Placed.barrierRelease die ctx cyc) rfl
  | bankOwnerStage die bank v => exact .of_onCore rfl (Placed.bankOwnerStage die bank v) rfl rfl
  | bankTestRegion die bank fail => exact .of_onCore rfl (Placed.bankTestRegion die bank fail) rfl rfl
  | mcopy die core gd gs gn stop ce ue => exact .of_onCtl rfl (Placed.mcopy die core gd gs gn stop ce ue) rfl rfl
  | mfill die core gd gv gn stop ce ue => exact .of_onCtl rfl (Placed.mfill die core gd gv gn stop ce ue) rfl rfl
  | qdrain die core gd gq gn stop ce ue => exact .of_onCtl rfl (Placed.qdrain die core gd gq gn stop ce ue) rfl rfl
  | crcb32 die core gc gs gn stop ce ue => exact .of_onCtl rfl (Placed.crcb32 die core gc gs gn stop ce ue) rfl rfl
  | crcb64 die core gc gs gn stop ce ue => exact .of_onCtl rfl (Placed.crcb64 die core gc gs gn stop ce ue) rfl rfl
  | interruptTake die core nmi latency => exact .of_onCtl rfl (Placed.interruptTake die core nmi latency) rfl rfl
  | tspawn die core rd level entry arg t => exact .of_onCtl rfl (Placed.tspawn die core rd level entry arg t) rfl rfl
  | twait die core rd mask modeAnd expiry => exact .of_onCtl rfl (Placed.twait die core rd mask modeAnd expiry) rfl rfl
  | tdelay die core expiry => exact .of_onCtl rfl (Placed.tdelay die core expiry) rfl rfl
  | tyield die core t => exact .of_onCtl rfl (Placed.tyield die core t) rfl rfl
  | texit die core => exact .of_onCtl rfl (Placed.texit die core) rfl rfl
  | tsignal die core slot flag t => exact .of_onCtl rfl (Placed.tsignal die core slot flag t) rfl rfl
  | hardwareEventFlag die slot flag t queued => exact .of_onDie rfl (Placed.hardwareEventFlag die slot flag t queued) rfl
  | coreTake die core t => exact .of_onCtl rfl (Placed.coreTake die core t) rfl rfl
  | delayExpiry die tick => exact .of_onDie rfl (Placed.delayExpiry die tick) rfl
  | flowEnter die core rd flow => exact .of_onCtl rfl (Placed.flowEnter die core rd flow) rfl rfl
  | flowDone die core flow ticket item => exact .of_onCtl rfl (Placed.flowDone die core flow ticket item) rfl rfl
  | flowSkip die core flow ticket => exact .of_onCtl rfl (Placed.flowSkip die core flow ticket) rfl rfl
  | stwt die core addr v => exact .of_onCtl rfl (Placed.stwt die core addr v) rfl rfl
  | coherenceRequest die core addr own victim => exact .of_onCtl rfl (Placed.coherenceRequest die core addr own victim) rfl rfl
  | evictClean die core addr => exact .of_onCtl rfl (Placed.evictClean die core addr) rfl rfl
  | evictDirty die core addr => exact .of_onCtl rfl (Placed.evictDirty die core addr) rfl rfl
  | evictPending die core addr => exact .of_onCtl rfl (Placed.evictPending die core addr) rfl rfl
  | evictAck die core addr => exact .of_onCtl rfl (Placed.evictAck die core addr) rfl rfl
  | blockReset die origin => exact .of_onDie rfl (Placed.blockReset die origin) rfl
  | thermalTrip die temp => exact .of_onDie rfl (Placed.thermalTrip die temp) rfl
  | _ => exact .inl ⟨_, _, rfl⟩

/-- Settles O3: a command that answers a next state changes memory and device only. -/
theorem fusesAndQueueKept : Obligations.FusesAndQueueKept := by
  intro c s t h
  rcases exec_answers c s with ⟨m, d, hn⟩ | ⟨hf, _⟩
  · obtain rfl : s.withMem m d = t := Host.Outcome.next.inj (hn.symm.trans h)
    exact ⟨rfl, rfl⟩
  · exact absurd (hf.symm.trans h) nofun

/-- Settles O4: the one fault is that of a place number which no well-formed command names. -/
theorem wellFormedCompletes : Obligations.WellFormedCompletes := by
  intro c s hwf
  rcases exec_answers c s with ⟨m, d, hn⟩ | ⟨_, hbad⟩
  · exact ⟨_, hn⟩
  · exact absurd hwf hbad

end Sys2Proof.Machine

/-! PROOFS. Register accesses (O41, O42): what a read and a write of a listed register come to, kind by kind, and the statements on them. -/
namespace Sys2Proof.Machine

/-! ### The reads and writes of a register, outside BAR 2 -/

/-- The device with the counters of a block at 0, where the write of `v` to the register at `o` is a cnt_clear. -/
def clearedBy (d : Dev) (o v : Nat) : Dev := if bitAt v 0 then (clearBlock d o).getD d else d

theorem clearedBy_of_none {d : Dev} {o v : Nat} (h : bitAt v 0 = true → clearBlock d o = none) : clearedBy d o v = d := by
  unfold clearedBy
  split
  · rw [h ‹_›]; rfl
  · rfl

theorem clearedBy_of_some {d d' : Dev} {o v : Nat} (hbit : bitAt v 0 = true) (h : clearBlock d o = some d') : clearedBy d o v = d' := by
  simp [clearedBy, hbit, h]

section
variable {s : State} {who : Who} {addr o v t : Nat} {h : RegHit}

/-- Time 0 does not move the clock: a write without a time of its own is one at 0. -/
@[simp] theorem atTime_zero (d : Dev) : atTime d 0 = d := by simp [atTime]

/-- A read command outside BAR 2 sends what the register read gives. -/
theorem onMem_fxRead (hw : who ≠ .bar2) : onMem s (fun fz m d => (m, fxRead fz m d who addr)) =
    .next (s.withDev (send (readReg s.fuses s.dev who addr).2 (.reg addr (readReg s.fuses s.dev who addr).1))) := by
  simp only [onMem_eq, fxRead, if_neg hw, State.withDev]

/-- A write command outside BAR 2 is a register write at the time of the access. -/
theorem onMem_fxWrite (hw : who ≠ .bar2) : onMem s (fun fz m d => fxWrite fz m d who addr v t) =
    .next (s.withDev (writeReg s.fuses (atTime s.dev t) who addr v t)) := by
  simp only [onMem_eq, fxWrite, if_neg hw, State.withDev]

/-- A listed register outside the MSI-X tables answers its latched word, and else what it shows. -/
theorem readReg_of_reaches (hr : reaches s who addr o h) : readReg s.fuses s.dev who addr =
    (((tget s.dev.latch o).map BitVec.toNat).getD (showReg s.fuses s.dev o).1, afterRead s.fuses (showReg s.fuses s.dev o).2 o) := by
  obtain ⟨_, hmsix, hkey, _⟩ := hr
  simp only [readReg, hmsix, hkey]
  cases tget s.dev.latch o <;> rfl

/-- A write without an effect of its own clears the block's counters where it is a cnt_clear, and then comes to the rule of the register's kind: the low word of a
pair is staged, a high word commits, any other word is stored, with what follows a port's control or FLD_PTP. -/
theorem writeReg_of_reaches (hr : reaches s who addr o h) (hv : v < 2 ^ 32) (heff : writeEffect (atTime s.dev t) who o v t = none) :
    let d := clearedBy (atTime s.dev t) o v
    writeReg s.fuses (atTime s.dev t) who addr v t =
      if h.row.pair = 1 ∧ h.row.rw ≠ 0 then { d with staged := tput d.staged o (BitVec.ofNat 32 v) }
      else if h.row.pair = 2 then writeHigh s.fuses d o v h
      else if o = 0x400008 ∨ (0x401100 ≤ o ∧ o < 0x401200) then portsWritten d (writePlain d who o v h)
      else if o = 0x401004 then ptpWritten d (writePlain d who o v h)
      else writePlain d who o v h := by
  obtain ⟨_, hmsix, hkey, hhit⟩ := hr
  have hmsix : msixAt (atTime s.dev t) who addr = none := hmsix
  have hkey : regKey s.fuses (atTime s.dev t) who addr = some o := hkey
  simp only [writeReg, Nat.mod_eq_of_lt hv, hmsix, hkey, hhit, heff, clearedBy]

end

/-! ### What follows a read or a write of a register, kind by kind -/

section
variable {fz : Fuses} {d : Dev} {who : Who} {o v : Nat} {h : RegHit}

/-- The first word of the selected record is no word of a pair. -/
theorem ne_recMsg0_of_pair (hhit : regHit o = some h) (hpair : h.row.pair ≠ 0) : o ≠ 0x200044 := by
  rintro rfl
  have hrow : (regHit 0x200044).map (·.row.pair) = some 0 := by decide
  rw [hhit] at hrow
  exact hpair (Option.some.inj hrow)

/-- A read of the low word of a pair latches the high word (R12). -/
theorem afterRead_low (hhit : regHit o = some h) (hpair : h.row.pair = 1) (hrc : h.row.rc = false) : afterRead fz d o =
    { d with latch := tput d.latch (o + 4) (BitVec.ofNat 32 (showReg fz d (o + 4)).1) } := by
  have hne := ne_recMsg0_of_pair hhit (by omega)
  simp [afterRead, hhit, hpair, hrc, hne]

/-- A read of the high word of a pair gives up the latched word (R12). -/
theorem afterRead_high (hhit : regHit o = some h) (hpair : h.row.pair = 2) (hrc : h.row.rc = false) :
    afterRead fz d o = { d with latch := tdel d.latch o } := by
  have hne := ne_recMsg0_of_pair hhit (by omega)
  simp [afterRead, hhit, hpair, hrc, hne]

/-- A read of a read-clear register other than a polder's clears it (R9). -/
theorem afterRead_readClear (hhit : regHit o = some h) (hpair : h.row.pair = 0) (hrc : h.row.rc = true) (hne : o ≠ 0x200044)
    (hpld : o < 0x780000 ∨ 0x781000 ≤ o) : afterRead fz d o = rset d o 0 := by
  have hout : ¬ (0x780000 ≤ o ∧ o < 0x781000) := by omega
  simp [afterRead, hhit, hpair, hrc, hne, hout]

/-- A write of an unlocked register stores its writable bits (R9, R10). -/
theorem writePlain_unlocked (hw1c : h.row.w1c = 0) (hlock : lockedNow d o h.row.lock = false) (hmask : writable who h.row ≠ 0) :
    writePlain d who o v h = maskPut d o (writable who h.row) v := by
  simp [writePlain, hw1c, hlock, hmask]

/-- A write that would change a locked register counts, and changes nothing else (R11). -/
theorem writePlain_locked_violates (hw1c : h.row.w1c = 0) (hlock : lockedNow d o h.row.lock = true)
    (hdiff : (fixVal d o (rget d o) v &&& writable who h.row) ≠ (rget d o &&& writable who h.row)) : writePlain d who o v h = cnt d 0x10 := by
  simp [writePlain, hw1c, hlock, hdiff]

/-- A write that would not change a locked register changes nothing (R11). -/
theorem writePlain_locked_agrees (hw1c : h.row.w1c = 0) (hlock : lockedNow d o h.row.lock = true)
    (hsame : (fixVal d o (rget d o) v &&& writable who h.row) = (rget d o &&& writable who h.row)) : writePlain d who o v h = d := by
  simp [writePlain, hw1c, hlock, hsame]

/-- A 1 clears a sticky bit of a register that has no other writable bits (R9). -/
theorem writePlain_sticky (hw1c : h.row.w1c ≠ 0) (hlock : lockedNow d o h.row.lock = false) (hmask : writable who h.row = 0) :
    writePlain d who o v h = rset d o (rget d o - (rget d o &&& v &&& h.row.w1c)) := by
  simp [writePlain, hw1c, hlock, hmask]

end

section
variable {fz : Fuses} {d : Dev} {o v : Nat} {hl hh : RegHit} {low : Word}

/-- A write of the high word of an unlocked pair commits the staged low word with it (R12). -/
theorem writeHigh_unlocked (hrw : hh.row.rw ≠ 0) (hstaged : tget d.staged o = some low) (hlock : lockedNow d (o + 4) hh.row.lock = false) :
    writeHigh fz d (o + 4) v hh = commitPair { d with staged := tdel d.staged o } o low.toNat v := by
  simp [writeHigh, hrw, hstaged, hlock]

/-- A write of the high word of a locked pair commits nothing, and counts when it would change either word (R11, R12). -/
theorem writeHigh_locked (hhit : regHit o = some hl) (hrw : hh.row.rw ≠ 0) (hstaged : tget d.staged o = some low)
    (hlock : lockedNow d (o + 4) hh.row.lock = true) : writeHigh fz d (o + 4) v hh =
      if (low.toNat &&& hl.row.rw) = ((showReg fz d o).1 &&& hl.row.rw) ∧ (v &&& hh.row.rw) = ((showReg fz d (o + 4)).1 &&& hh.row.rw) then d
      else cnt d 0x10 := by
  simp [writeHigh, hrw, hstaged, hlock, hhit]

end

/-! ### No register shows a staged word (R12)

The views' equations are proved `by rfl`, so that `simp` rewrites with each of them and does not leave the comparison of the whole views to the kernel. -/

section
variable (fz : Fuses) (d : Dev) (x : Tab Word) (die o : Nat)

theorem rget_staged : rget { d with staged := x } o = rget d o := by rfl
theorem viewPkg_staged : viewPkg fz { d with staged := x } o = viewPkg fz d o := by rfl
theorem viewSlc_staged : viewSlc { d with staged := x } o = viewSlc d o := by rfl
theorem viewWdn_staged : viewWdn { d with staged := x } o = viewWdn d o := by rfl
theorem viewTwn_staged : viewTwn fz { d with staged := x } o = viewTwn fz d o := by rfl
theorem viewFab_staged : viewFab fz { d with staged := x } o = viewFab fz d o := by rfl
theorem viewTime_staged : viewTime { d with staged := x } o = viewTime d o := by rfl
theorem viewPld_staged (p : Nat) : viewPld { d with staged := x } p o = viewPld d p o := by rfl
theorem viewPage_staged (p : Nat) : viewPage { d with staged := x } p o = viewPage d p o := by rfl
theorem viewLth_staged : viewLth fz { d with staged := x } die o = viewLth fz d die o := by rfl
theorem viewCal_staged : viewCal { d with staged := x } die o = viewCal d die o := by rfl
theorem viewPool_staged : viewPool { d with staged := x } die o = viewPool d die o := by rfl

theorem fillChucks_staged (cs l : List Nat) : fillChucks { d with staged := x } die cs l = fillChucks d die cs l := by
  induction cs generalizing l with
  | nil => rfl
  | cons c cs ih =>
    have htake : takeFrom { d with staged := x } die c l = takeFrom d die c l := rfl
    simp only [fillChucks, htake, ih]

theorem viewCtc_staged : viewCtc { d with staged := x } die o = viewCtc d die o := by
  have hchucks : chucks { d with staged := x } die = chucks d die := fillChucks_staged d x die _ _
  simp only [viewCtc, hchucks]
  rfl

/-- The free value that a busy engine shows is that of the device's counter, which a staged word does not move. -/
theorem engStat_staged (e c : Nat) : (engStat { d with staged := x } die e c).1 = (engStat d die e c).1 := by
  rcases e with _ | _ | _ | _ | e <;> (simp only [engStat, apply_ite Prod.fst, freeVal]; rfl)

/-- What a register shows does not depend on the staged words. -/
theorem showReg_staged : (showReg fz { d with staged := x } o).1 = (showReg fz d o).1 := by
  simp only [showReg, apply_ite Prod.fst, rget_staged, viewPkg_staged, viewSlc_staged, viewWdn_staged, viewTwn_staged, viewFab_staged, viewTime_staged,
    viewPld_staged, viewPage_staged, viewLth_staged, viewCal_staged, viewPool_staged, viewCtc_staged, engStat_staged]

end

/-! ### Register pairs (O42) -/

section
variable {s : State} {who : Who} {addr o v t : Nat} {hl hh : RegHit}

/-- REG_PAIR_LOW_READ of a low word that no earlier read has latched. -/
theorem exec_regPairLowRead_low (hr : reaches s who addr o hl) (hpair : hl.row.pair = 1) (hrc : hl.row.rc = false) (hlatch : tget s.dev.latch o = none)
    (hshow : (showReg s.fuses s.dev o).2 = s.dev) : exec (.regPairLowRead who addr) s = .next (s.withDev (send
      { s.dev with latch := tput s.dev.latch (o + 4) (BitVec.ofNat 32 (showReg s.fuses s.dev (o + 4)).1) } (.reg addr (showReg s.fuses s.dev o).1))) := by
  have ⟨hw, _, _, hhit⟩ := hr
  rw [exec_regPairLowRead, execRegPairLowRead, onMem_fxRead hw, readReg_of_reaches hr, hlatch, hshow, afterRead_low hhit hpair hrc]
  rfl

/-- REG_PAIR_LOW_READ of a high word that an earlier read has latched. -/
theorem exec_regPairLowRead_high {w : Word} (hr : reaches s who addr o hh) (hpair : hh.row.pair = 2) (hrc : hh.row.rc = false)
    (hlatch : tget s.dev.latch o = some w) (hshow : (showReg s.fuses s.dev o).2 = s.dev) :
    exec (.regPairLowRead who addr) s = .next (s.withDev (send { s.dev with latch := tdel s.dev.latch o } (.reg addr w.toNat))) := by
  have ⟨hw, _, _, hhit⟩ := hr
  rw [exec_regPairLowRead, execRegPairLowRead, onMem_fxRead hw, readReg_of_reaches hr, hlatch, hshow, afterRead_high hhit hpair hrc]
  rfl

/-- REG_PAIR_LOW_WRITE stages the word. -/
theorem exec_regPairLowWrite_stages (hr : reaches s who addr o hl) (hpair : hl.row.pair = 1) (hv : v < 2 ^ 32) (heff : writeEffect s.dev who o v 0 = none)
    (hclear : bitAt v 0 = true → clearBlock s.dev o = none) (hrw : hl.row.rw ≠ 0) :
    exec (.regPairLowWrite who addr v) s = .next (s.withDev { s.dev with staged := tput s.dev.staged o (BitVec.ofNat 32 v) }) := by
  rw [← atTime_zero s.dev] at heff hclear
  rw [exec_regPairLowWrite, execRegPairLowWrite, onMem_fxWrite hr.1, writeReg_of_reaches hr hv heff, clearedBy_of_none hclear,
    if_pos ⟨hpair, hrw⟩, atTime_zero]

/-- REG_PAIR_HIGH_WRITE comes to the write of the high word at the time of the access. -/
theorem exec_regPairHighWrite_high (hr : reaches s who addr o hh) (hpair : hh.row.pair = 2) (hv : v < 2 ^ 32)
    (heff : writeEffect (atTime s.dev t) who o v t = none) (hclear : bitAt v 0 = true → clearBlock (atTime s.dev t) o = none) :
    exec (.regPairHighWrite who addr v t) s = .next (s.withDev (writeHigh s.fuses (atTime s.dev t) o v hh)) := by
  rw [exec_regPairHighWrite, execRegPairHighWrite, onMem_fxWrite hr.1, writeReg_of_reaches hr hv heff, clearedBy_of_none hclear,
    if_neg (by omega), if_pos hpair]

end

/-- Settles O42: each word of a pair by the rule of its kind; of a commit, what the lock and TRN_TAI make of it. -/
theorem registerPairsRun : Obligations.RegisterPairsRun := by
  intro who addr o v t hl hh s hrl hrh hpl hph hrcl hrch hv hlatch hshowl hshowh
  refine ⟨exec_regPairLowRead_low hrl hpl hrcl hlatch hshowl, fun w hw => exec_regPairLowRead_high hrh hph hrch hw hshowh, fun heff hclear hrw => ?_,
    fun low heff hclear hrw hstaged => ?_⟩
  · exact ⟨_, exec_regPairLowWrite_stages hrl hpl hv heff hclear hrw, rfl, fun x => showReg_staged _ _ _ _⟩
  · obtain ⟨_, _, _, hhit⟩ := hrl
    have hstaged : tget (atTime s.dev t).staged o = some low := hstaged
    rw [exec_regPairHighWrite_high hrh hph hv heff hclear]
    refine ⟨fun hlock hne => ?_, fun hlock htai => ?_, fun hlock hdiff => ?_, fun hlock hlo hhi => ?_⟩
    · rw [writeHigh_unlocked hrw hstaged hlock, commitPair, if_neg hne]; rfl
    · rw [writeHigh_unlocked hrw hstaged hlock, commitPair, if_pos htai]; rfl
    · rw [writeHigh_locked hhit hrw hstaged hlock, if_neg fun hsame => hdiff.elim (absurd hsame.1) (absurd hsame.2)]
    · rw [writeHigh_locked hhit hrw hstaged hlock, if_pos ⟨hlo, hhi⟩]

/-! ### Registers of the register map (O41) -/

section
variable {s : State} {who : Who} {addr o v t : Nat} {h : RegHit}

/-- RC_READ of a read-clear register. -/
theorem exec_rcRead_readClear (hr : reaches s who addr o h) (hpair : h.row.pair = 0) (hrc : h.row.rc = true) (hlatch : tget s.dev.latch o = none)
    (hshow : (showReg s.fuses s.dev o).2 = s.dev) (hne : o ≠ 0x200044) (hpld : o < 0x780000 ∨ 0x781000 ≤ o) :
    exec (.rcRead who addr) s = .next (s.withDev (send (rset s.dev o 0) (.reg addr (showReg s.fuses s.dev o).1))) := by
  have ⟨hw, _, _, hhit⟩ := hr
  rw [exec_rcRead, execRcRead, onMem_fxRead hw, readReg_of_reaches hr, hlatch, hshow, afterRead_readClear hhit hpair hrc hne hpld]
  rfl

/-- REGISTER_WRITE of a word of no pair stores it, with what follows a port's control or FLD_PTP. -/
theorem exec_registerWrite_plain (hr : reaches s who addr o h) (hv : v < 2 ^ 32) (heff : writeEffect (atTime s.dev t) who o v t = none)
    (hclear : bitAt v 0 = true → clearBlock (atTime s.dev t) o = none) (hpair : h.row.pair = 0) :
    let d := atTime s.dev t
    exec (.registerWrite who addr v t) s = .next (s.withDev
      (if o = 0x400008 ∨ (0x401100 ≤ o ∧ o < 0x401200) then portsWritten d (writePlain d who o v h)
      else if o = 0x401004 then ptpWritten d (writePlain d who o v h)
      else writePlain d who o v h)) := by
  rw [exec_registerWrite, execRegisterWrite, onMem_fxWrite hr.1, writeReg_of_reaches hr hv heff, clearedBy_of_none hclear, if_neg (by omega), if_neg (by omega)]

/-- W1C_WRITE of a register of sticky bits. -/
theorem exec_w1cWrite_sticky (hr : reaches s who addr o h) (hv : v < 2 ^ 32) (heff : writeEffect s.dev who o v 0 = none)
    (hclear : bitAt v 0 = true → clearBlock s.dev o = none) (hpair : h.row.pair = 0) (hw1c : h.row.w1c ≠ 0) (hmask : writable who h.row = 0)
    (hlock : lockedNow s.dev o h.row.lock = false) (hports : ¬ (o = 0x400008 ∨ (0x401100 ≤ o ∧ o < 0x401200))) (hptp : o ≠ 0x401004) :
    exec (.w1cWrite who addr v) s = .next (s.withDev (rset s.dev o (rget s.dev o - (rget s.dev o &&& v &&& h.row.w1c)))) := by
  rw [← atTime_zero s.dev] at heff hclear
  rw [exec_w1cWrite, execW1cWrite, onMem_fxWrite hr.1, writeReg_of_reaches hr hv heff, clearedBy_of_none hclear, if_neg (by omega), if_neg (by omega),
    if_neg hports, if_neg hptp, atTime_zero, writePlain_sticky hw1c hlock hmask]

end

/-! ### cnt_clear of a sweep engine's CTL register (R184) -/

/-- The device with each of the registers of `l` at 0. -/
def zeroRegs (d : Dev) (l : List Nat) : Dev := l.foldl (fun d x => rset d x 0) d

@[simp] theorem zeroRegs_eng (d : Dev) (l : List Nat) : (zeroRegs d l).eng = d.eng := by
  induction l generalizing d with
  | nil => rfl
  | cons x l ih => exact ih _

@[simp] theorem zeroRegs_world (d : Dev) (l : List Nat) : (zeroRegs d l).world = d.world := by
  induction l generalizing d with
  | nil => rfl
  | cons x l ih => exact ih _

/-- A register of the list, or one that is 0, is 0. -/
theorem rget_zeroRegs {d : Dev} {l : List Nat} {x : Nat} (h : x ∈ l ∨ rget d x = 0) : rget (zeroRegs d l) x = 0 := by
  induction l generalizing d with
  | nil => exact h.resolve_left (by simp)
  | cons y l ih =>
    refine ih ?_
    by_cases hxy : x = y
    · exact .inr (by simp [hxy])
    · rw [rget_rset_ne _ _ _ _ hxy]
      exact h.imp_left fun hmem => (List.mem_cons.1 hmem).resolve_left hxy

section
variable {die core : Nat}

/-- Where the CTL register of a sweep engine lies: in the window of its die, at its core's place in the block. -/
theorem swpCtl_place (hdie : die < 8) (hcore : core < 16) : 0x01000000 ≤ engReg die 0 core 0 ∧ engReg die 0 core 0 < 0x09000000 ∧
    engReg die 0 core 0 % 0x01000000 = 0x100000 + 0x100 * core := by
  unfold engReg dieWin
  omega

/-- The twelve counters of a sweep engine, from CTL + 0x0C on (R184). -/
def swpCounters (die core : Nat) : List Nat := (List.range 12).map fun i => engReg die 0 core 0 + 0xC + 4 * i

theorem mem_swpCounters {x : Nat} (hlo : 0xC ≤ x) (hhi : x ≤ 0x38) (hword : x % 4 = 0) : engReg die 0 core x ∈ swpCounters die core := by
  have hplace : engReg die 0 core x = engReg die 0 core 0 + x := rfl
  exact List.mem_map.2 ⟨(x - 0xC) / 4, List.mem_range.2 (by omega), by omega⟩

/-- cnt_clear of a sweep engine zeroes its counters. -/
theorem clearBlock_swpCtl (d : Dev) (hdie : die < 8) (hcore : core < 16) :
    clearBlock d (engReg die 0 core 0) = some (zeroRegs d (swpCounters die core)) := by
  obtain ⟨hlo, hhi, hw⟩ := swpCtl_place hdie hcore
  have hblock : (0x100000 + 0x100 * core - 0x100000) / 0x10000 = 0 := by omega
  have hctl : 0x100000 + 0x100 * core < 0x150000 ∧ (0x100000 + 0x100 * core) % 0x10000 < 0x1000 ∧ (0x100000 + 0x100 * core) % 0x100 = 0 := by omega
  have hin : ¬ (engReg die 0 core 0 < 0x01000000 ∨ 0x09000000 ≤ engReg die 0 core 0) := by omega
  simp only [clearBlock, if_neg hin, hw, hblock]
  rw [if_neg (by omega), if_neg (by omega), if_pos ⟨by omega, hctl⟩]
  rfl

/-- A write of a sweep engine's CTL register has no effect of its own. -/
theorem writeEffect_swpCtl (d : Dev) (who : Who) (v t : Nat) (hdie : die < 8) (hcore : core < 16) :
    writeEffect d who (engReg die 0 core 0) v t = none := by
  obtain ⟨hlo, hhi, hw⟩ := swpCtl_place hdie hcore
  simp only [writeEffect, hw]
  iterate 8 rw [if_neg (by omega)]
  rw [if_pos ⟨hlo, hhi⟩, if_neg (by omega), if_neg (by omega), if_neg (by omega)]

/-- A write of cnt_clear to a sweep engine's CTL register, of which only cnt_freeze is writable, zeroes the counters and stores the rest of the word. -/
theorem writeReg_swpCtl {s : State} {who : Who} {addr v : Nat} {h : RegHit} (hdie : die < 8) (hcore : core < 16)
    (hr : reaches s who addr (engReg die 0 core 0) h) (hv : v < 2 ^ 32) (hbit : bitAt v 0 = true) (hmask : writable who h.row = 2)
    (hpair : h.row.pair = 0) (hw1c : h.row.w1c = 0) (hlock : h.row.lock = .free) :
    writeReg s.fuses s.dev who addr v 0 = maskPut (zeroRegs s.dev (swpCounters die core)) (engReg die 0 core 0) 2 v := by
  obtain ⟨hlo, _, _⟩ := swpCtl_place hdie hcore
  calc writeReg s.fuses s.dev who addr v 0
      = writeReg s.fuses (atTime s.dev 0) who addr v 0 := by rw [atTime_zero]
    _ = writePlain (zeroRegs s.dev (swpCounters die core)) who (engReg die 0 core 0) v h := by
      rw [writeReg_of_reaches hr hv (writeEffect_swpCtl _ _ _ _ hdie hcore), if_neg (by omega), if_neg (by omega), if_neg (by omega), if_neg (by omega),
        atTime_zero, clearedBy_of_some hbit (clearBlock_swpCtl _ hdie hcore)]
    _ = maskPut (zeroRegs s.dev (swpCounters die core)) (engReg die 0 core 0) 2 v := by
      rw [writePlain_unlocked hw1c (by rw [hlock]; rfl) (by omega), hmask]

/-- COUNTER_CLEAR of a sweep engine's CTL register: its counters read 0, and the engines and the world stand. -/
theorem exec_counterClear_swpCtl {s : State} {who : Who} {addr : Nat} {h : RegHit} (hdie : die < 8) (hcore : core < 16)
    (hr : reaches s who addr (engReg die 0 core 0) h) (hmask : writable who h.row = 2) (hsmall : rget s.dev (engReg die 0 core 0) < 4)
    (hpair : h.row.pair = 0) (hw1c : h.row.w1c = 0) (hlock : h.row.lock = .free) :
    ∃ d, exec (.counterClear who addr) s = .next (s.withDev d) ∧
      (∀ x, 0xC ≤ x → x ≤ 0x38 → x % 4 = 0 → rget d (engReg die 0 core x) = 0) ∧ d.eng = s.dev.eng ∧ d.world = s.dev.world := by
  have ⟨_, _, hkey, _⟩ := hr
  have hbit : bitAt (1 + rget s.dev (engReg die 0 core 0) / 2 * 2) 0 = true := by simp only [bitAt, beq_iff_eq]; omega
  have hwrite := writeReg_swpCtl hdie hcore hr (by omega) hbit hmask hpair hw1c hlock
  have hexec : exec (.counterClear who addr) s = .next (s.withDev (writeReg s.fuses s.dev who addr (1 + rget s.dev (engReg die 0 core 0) / 2 * 2) 0)) := by
    simp only [exec_counterClear, execCounterClear, onFz_eq, hkey, clearBlock_swpCtl _ hdie hcore, Option.isSome_some, if_true, State.withDev]
  rw [hwrite] at hexec
  refine ⟨_, hexec, fun x hlo hhi hword => ?_, ?_, ?_⟩
  · have hplace : engReg die 0 core x = engReg die 0 core 0 + x := rfl
    rw [maskPut, rget_rset_ne _ _ _ _ (by omega), rget_zeroRegs (.inl (mem_swpCounters hlo hhi hword))]
  · rw [maskPut, rset_eng, zeroRegs_eng]
  · rw [maskPut, rset_world, zeroRegs_world]

end

/-- The registers of the register map: each access by the rule of its kind. -/
theorem plainRegistersRun : PlainRegistersRun := by
  intro who addr o v t h s hr hv
  refine ⟨fun hpair hrc hlatch hshow hne hpld => exec_rcRead_readClear hr hpair hrc hlatch hshow hne hpld,
    fun heff hclear hpair hw1c hlock hmask => ?_, fun heff hclear hpair hw1c hmac hptp hport => ?_,
    fun heff hclear hpair hw1c hmask hlock hmac hptp hport =>
      exec_w1cWrite_sticky hr hv heff hclear hpair hw1c hmask hlock (by omega) hptp,
    fun die core hdie hcore ho hmask hsmall hpair hw1c hlock => ?_⟩
  · rw [exec_registerWrite_plain hr hv heff hclear hpair, writePlain_unlocked hw1c hlock hmask]
    refine ⟨fun hports => ?_, fun hptp => ?_⟩
    · rw [if_pos hports]; rfl
    · rw [if_neg (by omega), if_pos hptp]; rfl
  · rw [exec_registerWrite_plain hr hv heff hclear hpair, if_neg (by omega), if_neg hptp]
    refine ⟨fun hlock hmask => ?_, fun hlock hdiff => ?_, fun hlock hsame => ?_⟩
    · rw [writePlain_unlocked hw1c hlock hmask]; rfl
    · rw [writePlain_locked_violates hw1c hlock hdiff]
    · rw [writePlain_locked_agrees hw1c hlock hsame]
  · subst ho
    exact exec_counterClear_swpCtl hdie hcore hr hmask hsmall hpair hw1c hlock

/-! ### MSI-X tables and BAR 2 (O41) -/

/-- A word of an MSI-X table is read as the table shows it, and an address or data word is kept as written (log entry 12). -/
theorem exec_msixTable {s : State} {who : Who} {addr fn o : Nat} (v t : Nat) (hv : v < 2 ^ 32) (hw : who ≠ .bar2)
    (hmsix : msixAt s.dev who addr = some (fn, false, o)) :
    exec (.rcRead who addr) s = .next (s.withDev (send s.dev (.reg addr (msixShow s.dev fn false o)))) ∧
    (o % 16 ≠ 12 → exec (.registerWrite who addr v t) s = .next (s.withDev (rset (atTime s.dev t) (msixKey fn o) v))) := by
  constructor
  · simp only [exec_rcRead, execRcRead, onMem_fxRead hw, readReg, hmsix]
  · intro ho
    have hmsix : msixAt (atTime s.dev t) who addr = some (fn, false, o) := hmsix
    simp only [exec_registerWrite, execRegisterWrite, onMem_fxWrite hw, writeReg, hmsix, msixWrite, if_neg ho, Nat.mod_eq_of_lt hv, Bool.false_eq_true, if_false]

/-- A read through BAR 2 sends what the aperture gives. -/
theorem exec_rcRead_bar2 (addr : Nat) (s : State) : exec (.rcRead .bar2 addr) s =
    .next (s.withDev (send (bar2Read s.fuses s.mem s.dev addr).2 (.reg addr (bar2Read s.fuses s.mem s.dev addr).1))) := rfl

/-- A write through BAR 2 is that of the aperture. -/
theorem exec_registerWrite_bar2 (addr v t : Nat) (s : State) : exec (.registerWrite .bar2 addr v t) s =
    .next (s.withMem (bar2Write s.fuses s.mem s.dev addr v).1 (bar2Write s.fuses s.mem s.dev addr v).2) := rfl

/-- The MSI-X tables and BAR 2: the host scratch, a bank that the host owns, a bank of another owner. -/
theorem tablesAndApertureRun : TablesAndApertureRun := by
  intro who addr v t s hv
  refine ⟨fun fn o hw hmsix => exec_msixTable v t hv hw hmsix, fun x hx => ?_, fun x die bank hx => ⟨fun hown => ?_, fun hown => ?_⟩⟩ <;>
    rw [exec_rcRead_bar2, exec_registerWrite_bar2]
  · simp [bar2Read, bar2Write, hx]
  · simp [bar2Read, bar2Write, hx, hown]
  · simp [bar2Read, bar2Write, hx, hown, State.withMem, State.withDev]

/-- Settles O41: the registers of the map, and the tables and the aperture. -/
theorem registersRun : Obligations.RegistersRun := ⟨plainRegistersRun, tablesAndApertureRun⟩

end Sys2Proof.Machine

/-! PROOFS. The byte memory under every command: its canonical form (O2), and the commands that store nothing (O45). -/
namespace Sys2Proof.Machine

/-! ### What the answering operations leave of the memory -/

/-- Whatever next state an outcome holds, its memory satisfies `P`. -/
def MemAfter (P : Mem → Prop) (o : Host.Outcome State Fault Refusal) : Prop := ∀ t, o = .next t → P t.mem

section
variable {P : Mem → Prop} {s : State} {die core : Nat}

theorem MemAfter.of_next {t : State} (h : P t.mem) : MemAfter P (.next t) := fun _ ht => Host.Outcome.next.inj ht ▸ h

theorem MemAfter.of_onMem {f : Fuses → Mem → Dev → Mem × Dev} (h : P (f s.fuses s.mem s.dev).1) : MemAfter P (onMem s f) := .of_next h

/-- The one shape of the meanings that act on a place: a fault, the state as it was, or the effect. -/
theorem MemAfter.of_guarded {f : Fuses → Mem → Dev → Mem × Dev} {beyond absent : Prop} [Decidable beyond] [Decidable absent]
    (hs : P s.mem) (h : P (f s.fuses s.mem s.dev).1) : MemAfter P (if beyond then .fault .illFormed else if absent then .next s else onMem s f) := by
  split
  · exact fun _ ht => nomatch ht
  · split
    · exact .of_next hs
    · exact .of_onMem h

theorem MemAfter.of_onDie {f : Fuses → Mem → Dev → Mem × Dev} (hs : P s.mem) (h : P (f s.fuses s.mem s.dev).1) : MemAfter P (onDie s die f) :=
  .of_guarded hs h

theorem MemAfter.of_onCore {f : Fuses → Mem → Dev → Mem × Dev} (hs : P s.mem) (h : P (f s.fuses s.mem s.dev).1) :
    MemAfter P (onCore s die core f) := .of_guarded hs h

theorem MemAfter.of_onCtl {f : Fuses → Mem → Dev → Mem × Dev} (hs : P s.mem) (h : P (f s.fuses s.mem s.dev).1) :
    MemAfter P (onCtl s die core f) := .of_guarded hs h

/-- A unit operation of a core: its work, where the core is live. -/
theorem MemAfter.of_runUnit {f : Mem → Dev → UnitRes} (hs : P s.mem) (h : P (f s.mem s.dev).1) : MemAfter P (runUnit s die core f) := by
  refine .of_onCore hs ?_
  split
  · exact h
  · exact hs

/-- A transfer: its work, where the die is live. -/
theorem MemAfter.of_runDma {code operand : Nat} (hs : P s.mem) (h : P (opDma s.fuses s.mem s.dev die code operand).1) :
    MemAfter P (runDma s die code operand) := by
  refine .of_onDie hs ?_
  split
  · exact h
  · exact hs

end

/-! ### Operations that store nothing -/

section
variable (m : Mem) (d : Dev) (die core operand : Nat)

@[simp] theorem opInval_mem : (opInval m d die core operand).1 = m := rfl

@[simp] theorem opTable_mem : (opTable m d die core operand).1 = m := by
  unfold opTable
  extract_lets
  split <;> rfl

@[simp] theorem opOpen_mem : (opOpen m d die core operand).1 = m := by
  unfold opOpen
  split <;> rfl

@[simp] theorem opPush_mem (u : UnitDesc) : (opPush m d die core operand u).1 = m := by
  unfold opPush
  extract_lets
  split <;> rfl

@[simp] theorem opClose_mem : (opClose m d die core operand).1 = m := by
  unfold opClose
  extract_lets
  split <;> rfl

/-- A request for a line moves lines between caches and buffers only (R427, R428). -/
@[simp] theorem fxLineReq_mem (fz : Fuses) (a : Nat) (own : Bool) (victim : Option Nat) : (fxLineReq fz m d die core a own victim).1 = m := by
  unfold fxLineReq
  extract_lets
  split
  · rfl
  · iterate 4
      split
      · rfl
    split
    · split <;> rfl
    · rfl

/-- An eviction notice without data stores nothing (R428). -/
@[simp] theorem fxNotice_clean_mem (a : Nat) : (fxNotice m d die core a false).1 = m := by
  simp only [fxNotice, crossing, Bool.false_eq_true, if_false]
  split
  · rfl
  · split
    · rfl
    · split_ifs
      · rfl
      · split
        · split_ifs <;> rfl
        · rfl

/-- A register write outside BAR 2 stores nothing into the memory. -/
theorem fxWrite_mem_of_ne (fz : Fuses) {who : Who} (addr v t : Nat) (hw : who ≠ .bar2) : (fxWrite fz m d who addr v t).1 = m := by
  simp only [fxWrite, if_neg hw]

end

/-- A register write leaves `P` of the memory where it is no write through BAR 2, or where that write leaves it. -/
theorem MemAfter.of_fxWrite {P : Mem → Prop} {s : State} {who : Who} {addr v t : Nat} {o : Host.Outcome State Fault Refusal}
    (ho : o = onMem s fun fz m d => fxWrite fz m d who addr v t) (hs : P s.mem) (hstore : (who == .bar2) = true → MemAfter P o) : MemAfter P o := by
  by_cases hw : who = .bar2
  · exact hstore (beq_iff_eq.2 hw)
  · rw [ho]
    exact .of_onMem (by rwa [fxWrite_mem_of_ne _ _ _ _ _ _ hw])

/-- A property of the memory stands after every command, once it does after those that may store. -/
theorem exec_memAfter {P : Mem → Prop} {i : Instr} {s : State} (hs : P s.mem) (hstore : mayStore i = true → MemAfter P (exec i s)) :
    MemAfter P (exec i s) := by
  cases i with
  | operationStart | swpStage | swpCheck | tnsLoad | tnsLayer | slvBatch | slvRows | selSort | selTopk | selUniq | selMerge | frnPopb | dmaIn | dmaOut
  | dmaCtrl | dmaLink | mcopy | mfill | qdrain | crcb32 | crcb64 | stwt | snoop | evictDirty | evictPending => exact hstore rfl
  | regPairLowWrite | regPairHighWrite | w1cWrite | registerWrite => exact .of_fxWrite rfl hs hstore
  | swpInval => exact .of_runUnit hs (by rwa [opInval_mem])
  | tnsTable => exact .of_runUnit hs (by rwa [opTable_mem])
  | frnOpen => exact .of_runUnit hs (by rwa [opOpen_mem])
  | frnPushb => exact .of_runUnit hs (by rwa [opPush_mem])
  | frnClose => exact .of_runUnit hs (by rwa [opClose_mem])
  | coherenceRequest => exact .of_onCtl hs (by rwa [fxLineReq_mem])
  | evictClean => exact .of_onCtl hs (by rwa [fxNotice_clean_mem])
  | quietTailCheck | bermOverrun | planSeal | bundleIssue | tokenArrival | barArm | route | signal | grant | barWait | unitNop | barrierRelease
  | hardwareEventFlag | delayExpiry | blockReset | thermalTrip => exact .of_onDie hs hs
  | frontierRefill | bankOwnerStage | bankTestRegion => exact .of_onCore hs hs
  | interruptTake | tspawn | twait | tdelay | tyield | texit | tsignal | coreTake | flowEnter | flowDone | flowSkip | evictAck => exact .of_onCtl hs hs
  | _ => exact .of_next hs

/-- Settles O45: a command that may not store leaves the memory as it was. -/
theorem othersLeaveMemory : Obligations.OthersLeaveMemory := by
  intro i s t hno h
  have hmem : MemAfter (· = s.mem) (exec i s) := exec_memAfter rfl fun hyes => Bool.noConfusion (hno.symm.trans hyes)
  exact hmem t h

/-! ### The unit operations keep the canonical form -/

theorem bankMerge_wf {m : Mem} (d : Dev) (who : Nat) (m' : Mem) (h : Memory.wf m = true) : Memory.wf (bankMerge d who m m') = true := mmerge_wf h

/-- A write that may be withheld keeps the canonical form. -/
theorem ite_mputs_wf {c : Prop} [Decidable c] {m : Mem} {a : Nat} {b : Bytes} (h : Memory.wf m = true) :
    Memory.wf (if c then mputs m a b else m) = true := by
  split
  · exact mputs_wf h
  · exact h

/-- A run of writes keeps the canonical form where each of them does. -/
theorem foldl_wf {α : Type} {f : Mem → α → Mem} (hf : ∀ m a, Memory.wf m = true → Memory.wf (f m a) = true) {m : Mem} (l : List α)
    (h : Memory.wf m = true) : Memory.wf (l.foldl f m) = true :=
  List.foldlRecOn (motive := fun m => Memory.wf m = true) l f h fun m hm a _ => hf m a hm

section
variable {m : Mem} (d : Dev) (die core operand : Nat)

theorem opStage_wf (h : Memory.wf m = true) : Memory.wf (opStage m d die core operand).1 = true := by
  unfold opStage
  extract_lets
  split
  · exact h
  · exact bankMerge_wf _ _ _ h

theorem opCheck_wf (ecc : Option Nat) (h : Memory.wf m = true) : Memory.wf (opCheck m d die core operand ecc).1 = true := bankMerge_wf _ _ _ h

theorem opLoad_wf (h : Memory.wf m = true) : Memory.wf (opLoad m d die core operand).1 = true := by
  unfold opLoad
  extract_lets
  split
  · exact h
  · exact bankMerge_wf _ _ _ h

theorem opLayer_wf (h : Memory.wf m = true) : Memory.wf (opLayer m d die core operand).1 = true := by
  unfold opLayer
  extract_lets
  split
  · exact ite_mputs_wf (ite_mputs_wf h)
  · exact ite_mputs_wf (mputs_wf h)

theorem batchRefused_wf (own : Nat → Bool) (j : BatchJob) (h : Memory.wf m = true) : Memory.wf (batchRefused own m j) = true :=
  foldl_wf (fun _ _ => ite_mputs_wf) _ h

theorem opBatch_wf (h : Memory.wf m = true) : Memory.wf (opBatch m d die core operand).1 = true := by
  unfold opBatch
  extract_lets
  split
  · exact batchRefused_wf _ _ h
  · exact mputs_wf h

theorem rowsWrite_wf (u : UnitDesc) (j : RowsJob) (h : Memory.wf m = true) : Memory.wf (rowsWrite m die u j) = true :=
  foldl_wf (fun _ _ hm => foldl_wf (fun _ _ => mputs_wf) _ (mputs_wf hm)) _ h

theorem opRows_wf (u : UnitDesc) (h : Memory.wf m = true) : Memory.wf (opRows m d die core operand u).1 = true := by
  unfold opRows
  extract_lets
  split
  · exact h
  · exact rowsWrite_wf _ _ _ h

theorem opSel_wf (op : Nat) (h : Memory.wf m = true) : Memory.wf (opSel m d die core op operand).1 = true := by
  unfold opSel
  extract_lets
  split <;> exact bankMerge_wf _ _ _ h

theorem opPop_wf (u : UnitDesc) (h : Memory.wf m = true) : Memory.wf (opPop m d die core operand u).1 = true := by
  unfold opPop
  extract_lets
  split
  · exact h
  · exact bankMerge_wf _ _ _ h

theorem opDma_wf (fz : Fuses) (code : Nat) (h : Memory.wf m = true) : Memory.wf (opDma fz m d die code operand).1 = true := by
  unfold opDma
  extract_lets
  split
  · exact h
  · split
    · exact bankMerge_wf _ _ _ h
    · exact h

/-- An own operation of a unit: that of its code, by the engine of the unit (R169, R203, R253, R282, R330). -/
theorem runOwn_wf (fz : Fuses) (unit code cyc : Nat) (ue : Option Nat) (u : UnitDesc) (h : Memory.wf m = true) :
    Memory.wf (runOwn fz m d die unit code operand cyc ue u).1 = true := by
  unfold runOwn
  extract_lets
  split
  · split
    · exact opDma_wf _ _ _ _ _ h
    · exact h
  · split
    · exact h
    · split
      · exact opStage_wf _ _ _ _ h
      · exact opCheck_wf _ _ _ _ _ h
      · rwa [opInval_mem]
      · exact opLoad_wf _ _ _ _ h
      · rwa [opTable_mem]
      · exact opLayer_wf _ _ _ _ h
      · exact opBatch_wf _ _ _ _ h
      · exact opRows_wf _ _ _ _ _ h
      · exact opSel_wf _ _ _ _ _ h
      · rwa [opOpen_mem]
      · rwa [opPush_mem]
      · exact opPop_wf _ _ _ _ _ h
      · rwa [opClose_mem]
      all_goals exact h

theorem fxStart_wf (fz : Fuses) (unit cyc : Nat) (ue : Option Nat) (u : UnitDesc) (h : Memory.wf m = true) :
    Memory.wf (fxStart fz m d die unit cyc ue u).1 = true := by
  unfold fxStart
  extract_lets
  split
  · exact h
  · split
    · exact h
    · split
      · exact h
      · split
        · exact runOwn_wf _ _ _ _ _ _ _ _ _ h
        · split_ifs <;> exact h

end

/-! ### The control cores and their caches keep the canonical form -/

section
variable {m : Mem} (fz : Fuses) (d : Dev) (die core a : Nat)

theorem fxSnoop_wf (h : Memory.wf m = true) : Memory.wf (fxSnoop m d a).1 = true := by
  unfold fxSnoop
  split
  · exact h
  · split
    · exact h
    · extract_lets
      split
      · rename_i mod _ _
        cases mod
        · exact h
        · exact mputs_wf h
      · split_ifs <;> exact h

theorem crossing_wf (l k : Nat) (data : Option Bytes) (h : Memory.wf m = true) : Memory.wf (crossing m d l k data).1 = true := by
  cases data with
  | none => exact h
  | some b => exact mputs_wf h

/-- An eviction notice stores the data that it brings, at once or when the crossing is over (R428, R429). -/
theorem fxNotice_wf (dirty : Bool) (h : Memory.wf m = true) : Memory.wf (fxNotice m d die core a dirty).1 = true := by
  cases dirty with
  | false => rwa [fxNotice_clean_mem]
  | true =>
    unfold fxNotice
    extract_lets
    split
    · exact h
    · split
      · exact h
      · split
        · exact h
        · extract_lets
          split
          · split_ifs
            · exact h
            · exact crossing_wf _ _ _ _ h
            · exact h
            · exact mputs_wf h
          · exact mputs_wf h

theorem fxPending_wf (h : Memory.wf m = true) : Memory.wf (fxPending m d die core a).1 = true := by
  unfold fxPending
  extract_lets
  split
  · exact h
  · split
    · exact h
    · extract_lets
      split
      · exact h
      · split
        · exact h
        · split
          · exact crossing_wf _ _ _ _ h
          · exact h

/-- An access, and what follows it where it is done. -/
def Acc.andThen (r : Acc) (f : Mem → Dev → Bytes → Acc) : Acc :=
  match r with
  | (m, d, .done b) => f m d b
  | r => r

/-- An access, or the element of a long instruction, keeps the canonical form. -/
def AccKeeps (el : Mem → Dev → Acc) : Prop := ∀ m d, Memory.wf m = true → Memory.wf (el m d).1 = true

theorem Acc.andThen_wf {r : Acc} {f : Mem → Dev → Bytes → Acc} (hr : Memory.wf r.1 = true) (hf : ∀ b, AccKeeps fun m d => f m d b) :
    Memory.wf (Acc.andThen r f).1 = true := by
  unfold Acc.andThen
  split
  · exact hf _ _ _ hr
  · exact hr

/-- Making a line present stores at most what the cache that holds it modified (R427). -/
theorem fetchLine_wf (l : Nat) (own : Bool) (h : Memory.wf m = true) : Memory.wf (fetchLine m d die core l own).1 = true := by
  unfold fetchLine
  extract_lets _ _ _ _ room
  split
  · split_ifs <;> exact h
  · split
    · exact h
    · clear_value room
      cases room with
      | none => exact h
      | some d =>
        dsimp only
        split
        · exact mputs_wf h
        · exact h

theorem chunkAcc_wf (n : Nat) (w : Option Bytes) (h : Memory.wf m = true) : Memory.wf (chunkAcc fz m d die core a n w).1 = true := by
  unfold chunkAcc
  split
  · split <;> exact h
  · split
    · extract_lets
      split
      · exact h
      · split
        · exact h
        · refine Acc.andThen_wf (fetchLine_wf _ _ _ _ _ h) fun b m d hm => ?_
          cases w <;> exact hm
    · split
      · split
        · exact h
        · extract_lets
          split
          · exact h
          · split <;> exact h
      · split
        · extract_lets
          split
          · exact h
          · exact mputs_wf h
        · exact h

theorem coreRead_wf (n : Nat) (h : Memory.wf m = true) : Memory.wf (coreRead fz m d die core a n).1 = true := by
  unfold coreRead
  refine Acc.andThen_wf (chunkAcc_wf _ _ _ _ _ _ _ h) fun b m d hm => ?_
  dsimp only
  split
  · exact hm
  · exact Acc.andThen_wf (chunkAcc_wf _ _ _ _ _ _ _ hm) fun _ _ _ => id

theorem coreWrite_wf (b : Bytes) (h : Memory.wf m = true) : Memory.wf (coreWrite fz m d die core a b).1 = true := chunkAcc_wf _ _ _ _ _ _ _ h

/-- STWT stores the line with the word in it (R430). -/
theorem fxStwt_wf (v : Nat) (h : Memory.wf m = true) : Memory.wf (fxStwt fz m d die core a v).1 = true := by
  unfold fxStwt
  split
  · exact h
  · split
    · exact h
    · rename_i l _
      have hline := fetchLine_wf d die core l true h
      split_ifs
      · exact h
      · exact h
      · split
        · rename_i hfetch
          rw [hfetch] at hline
          exact mputs_wf hline
        · exact h
        · exact h

end

/-! ### The long instructions -/

/-- An element that ends otherwise than done gives the memory back, so that only its own effect counts (R416). -/
theorem element_wf {fz : Fuses} {m : Mem} {d : Dev} {die core src n : Nat} {k : Mem → Dev → Bytes → Acc} (hk : ∀ b, AccKeeps fun m d => k m d b)
    (h : Memory.wf m = true) : Memory.wf (element fz m d die core src n k).1 = true := by
  have hread := coreRead_wf fz d die core src n h
  unfold element
  split
  · rename_i m1 d1 b hr
    rw [hr] at hread
    have hdone : Memory.wf (k m1 d1 b).1 = true := hk b m1 d1 hread
    split
    · rename_i hr2
      rw [hr2] at hdone
      exact hdone
    · exact h
  · exact h

theorem longLoop_wf {die core : Nat} {fin : Dev → Bool} {el : Mem → Dev → Acc} (hel : AccKeeps el) (n : Nat) (ue : Option Nat) {m : Mem} (d : Dev)
    (h : Memory.wf m = true) : Memory.wf (longLoop die core fin el n ue m d).1 = true := by
  induction n generalizing ue m d with
  | zero => exact h
  | succ n ih =>
    have hone := hel m d h
    unfold longLoop
    split
    · exact h
    · split
      · exact h
      · split
        all_goals
          rename_i hr
          rw [hr] at hone
        · exact ih _ _ hone
        · exact hone
        · exact hone

theorem runLong_wf {die core gn : Nat} {stop : Option Nat} {ce : Nat} {ue : Option Nat} {fin : Dev → Bool} {el : Mem → Dev → Acc} (hel : AccKeeps el)
    {m : Mem} (d : Dev) (h : Memory.wf m = true) : Memory.wf (runLong m d die core gn stop ce ue fin el).1 = true := by
  have hloop := longLoop_wf (die := die) (core := core) (fin := fin) hel (stop.getD (greg d die core gn + 1)) ue (cnt d (dieWin die + 0x3000C) ce) h
  unfold runLong
  split
  · exact h
  · split
    all_goals
      rename_i hr
      rw [hr] at hloop
      exact hloop

section
variable (fz : Fuses) {m : Mem} (d : Dev) (die core : Nat) (stop : Option Nat) (ce : Nat) (ue : Option Nat)

theorem fxMcopy_wf (gd gs gn : Nat) (h : Memory.wf m = true) : Memory.wf (fxMcopy fz m d die core gd gs gn stop ce ue).1 = true :=
  runLong_wf (fun _ _ hm => element_wf (fun _ _ _ hm => Acc.andThen_wf (coreWrite_wf _ _ _ _ _ _ hm) fun _ _ _ => id) hm) d h

theorem fxMfill_wf (gd gv gn : Nat) (h : Memory.wf m = true) : Memory.wf (fxMfill fz m d die core gd gv gn stop ce ue).1 = true :=
  runLong_wf (fun _ _ hm => element_wf (fun _ _ _ hm => Acc.andThen_wf (coreWrite_wf _ _ _ _ _ _ hm) fun _ _ _ => id) hm) d h

theorem fxQdrain_wf (gd gq gn : Nat) (h : Memory.wf m = true) : Memory.wf (fxQdrain fz m d die core gd gq gn stop ce ue).1 = true := by
  refine runLong_wf (fun _ _ hm => element_wf (fun _ _ _ hm => ?_) hm) d h
  refine Acc.andThen_wf (coreWrite_wf _ _ _ _ _ _ hm) fun _ _ _ hm => Acc.andThen_wf ?_ fun _ _ _ => id
  split
  · exact hm
  · exact coreWrite_wf _ _ _ _ _ _ hm

theorem fxCrcb_wf (gc gs gn : Nat) (wide : Bool) (h : Memory.wf m = true) : Memory.wf (fxCrcb fz m d die core gc gs gn stop ce ue wide).1 = true :=
  runLong_wf (fun _ _ hm => element_wf (fun _ _ _ => id) hm) d h

end

/-! ### Every step keeps the canonical form -/

theorem bar2Write_wf (fz : Fuses) {m : Mem} (d : Dev) (a v : Nat) (h : Memory.wf m = true) : Memory.wf (bar2Write fz m d a v).1 = true := by
  unfold bar2Write
  split
  · exact h
  · exact mwr_wf h
  · split
    · exact mwr_wf h
    · exact h

theorem fxWrite_wf (fz : Fuses) {m : Mem} (d : Dev) (who : Who) (addr v t : Nat) (h : Memory.wf m = true) :
    Memory.wf (fxWrite fz m d who addr v t).1 = true := by
  unfold fxWrite
  split
  · exact bar2Write_wf _ _ _ _ h
  · exact h

/-- A head operation starts, where it may, on the device as the bank errors leave it (R315, R338). -/
theorem execOperationStart_wf {s : State} (die unit cyc : Nat) (ue bankCe bankUe : Option Nat) (desc : UnitDesc) (h : Sound s) :
    MemAfter (fun m => Memory.wf m = true) (execOperationStart die unit cyc ue bankCe bankUe desc s) := by
  refine .of_onDie h ?_
  dsimp only
  split
  · exact fxStart_wf _ _ _ _ _ _ _ h
  · exact h

/-- A command that may store keeps the canonical form, each by the operation that it runs. -/
theorem exec_stores_wf {i : Instr} {s : State} (h : Sound s) (hstore : mayStore i = true) : MemAfter (fun m => Memory.wf m = true) (exec i s) := by
  cases i with
  | operationStart => exact execOperationStart_wf _ _ _ _ _ _ _ h
  | swpStage => exact .of_runUnit h (opStage_wf _ _ _ _ h)
  | swpCheck => exact .of_runUnit h (opCheck_wf _ _ _ _ _ h)
  | tnsLoad die core operand => exact .of_runUnit (f := fun m d => opLoad m d die core operand) h (opLoad_wf _ _ _ _ h)
  | tnsLayer => exact .of_runUnit h (opLayer_wf _ _ _ _ h)
  | slvBatch => exact .of_runUnit h (opBatch_wf _ _ _ _ h)
  | slvRows => exact .of_runUnit h (opRows_wf _ _ _ _ _ h)
  | selSort | selTopk | selUniq | selMerge => exact .of_runUnit h (opSel_wf _ _ _ _ _ h)
  | frnPopb => exact .of_runUnit h (opPop_wf _ _ _ _ _ h)
  | dmaIn | dmaOut | dmaCtrl | dmaLink => exact .of_runDma h (opDma_wf _ _ _ _ _ h)
  | mcopy => exact .of_onCtl h (fxMcopy_wf _ _ _ _ _ _ _ _ _ _ h)
  | mfill => exact .of_onCtl h (fxMfill_wf _ _ _ _ _ _ _ _ _ _ h)
  | qdrain => exact .of_onCtl h (fxQdrain_wf _ _ _ _ _ _ _ _ _ _ h)
  | crcb32 | crcb64 => exact .of_onCtl h (fxCrcb_wf _ _ _ _ _ _ _ _ _ _ _ h)
  | stwt => exact .of_onCtl h (fxStwt_wf _ _ _ _ _ _ h)
  | snoop => exact .of_next (fxSnoop_wf _ _ h)
  | evictDirty => exact .of_onCtl h (fxNotice_wf _ _ _ _ _ h)
  | evictPending => exact .of_onCtl h (fxPending_wf _ _ _ _ h)
  | regPairLowWrite | regPairHighWrite | w1cWrite | registerWrite => exact .of_next (fxWrite_wf _ _ _ _ _ _ h)
  | _ => exact Bool.noConfusion hstore

/-- Settles O2: the front command keeps the canonical form, storing or not; an empty queue keeps the state. -/
theorem stepKeepsMemoryForm : Obligations.StepKeepsMemoryForm := by
  intro s t h hstep
  unfold step at hstep
  split at hstep
  · obtain rfl := Host.Outcome.next.inj hstep
    exact h
  · rename_i c rest _
    have h : Sound { s with pending := rest } := h
    exact exec_memAfter (P := fun m => Memory.wf m = true) h (exec_stores_wf h) t hstep

end Sys2Proof.Machine

/-! PROOFS. Transfers of the DMA agent (O27): the bytes that each of the four moves, and the descriptors that move nothing. -/
namespace Sys2Proof.Machine

/-! ### What the engines' state alone decides -/

section
variable {d d' : Dev} (h : d'.eng = d.eng)
include h

/-- Who may touch a bank follows from its owner (R335). -/
theorem mayTouch_congr : mayTouch d' = mayTouch d := by
  funext who a
  simp only [mayTouch, ownedBy, bankOwner, h]

theorem bankView_congr : bankView d' = bankView d := by
  funext who m
  simp only [bankView, mayTouch_congr h]

theorem bankMerge_congr : bankMerge d' = bankMerge d := by
  funext who m m'
  simp only [bankMerge, mayTouch_congr h]

end

theorem bulkGets_congr {d d' : Dev} (h : d'.world = d.world) (m : Mem) (die a n : Nat) : bulkGets m d' die a n = bulkGets m d die a n := by
  simp only [bulkGets, worldByte, h]

@[simp] theorem countBlocked_eng (d : Dev) (die who : Nat) (regs : List (Nat × Nat)) : (countBlocked d die who regs).eng = d.eng := by
  refine List.foldlRecOn (motive := fun x : Dev => x.eng = d.eng) regs _ rfl fun x hx r _ => ?_
  split
  · exact hx
  · rwa [cnt_eng]

@[simp] theorem countBlocked_world (d : Dev) (die who : Nat) (regs : List (Nat × Nat)) : (countBlocked d die who regs).world = d.world := by
  refine List.foldlRecOn (motive := fun x : Dev => x.world = d.world) regs _ rfl fun x hx r _ => ?_
  split
  · exact hx
  · rwa [cnt_world]

@[simp] theorem dmaBlocked_eng (d : Dev) (die who a n : Nat) : (dmaBlocked d die who a n).eng = d.eng := countBlocked_eng _ _ _ _

@[simp] theorem dmaBlocked_world (d : Dev) (die who a n : Nat) : (dmaBlocked d die who a n).world = d.world := countBlocked_world _ _ _ _

/-! ### One transfer -/

/-- The 32 bytes of a transfer's descriptor. -/
def dmaDesc (m : Mem) (die operand : Nat) : Bytes := mgets m (rowField die (opLoc operand)) 32

/-- The length and the reserved bytes of a descriptor are in order (R330). -/
def dmaClean (bs : Bytes) : Prop :=
  (fld bs 16 4 % 64 = 0 ∧ 64 ≤ fld bs 16 4 ∧ fld bs 16 4 ≤ 67108864) ∧
    bits (fld bs 20 1) 7 5 = 0 ∧ bits (fld bs 21 1) 7 3 = 0 ∧ allZero (slice bs 22 10) = true

/-- The first byte that a transfer reads: in bulk memory, in control memory or in a bank (R330). -/
def dmaFrom (die code : Nat) (bs : Bytes) : Option Nat :=
  if code = 1 then (if bulkOk die (fld bs 0 8) (fld bs 16 4) then some (bulkBase die + fld bs 0 8) else none)
  else if code = 3 then (if fld bs 0 8 + fld bs 16 4 ≤ 4194304 then some (ctlBase die + fld bs 0 8) else none)
  else dmaBank die (fld bs 0 8) (fld bs 16 4)

/-- The die whose banks a transfer writes. -/
def dmaDie (die code : Nat) (bs : Bytes) : Nat := if code = 4 then bits (fld bs 21 1) 2 0 else die

/-- The first byte that a transfer writes: in bulk memory or in a bank (R330). -/
def dmaTo (die code : Nat) (bs : Bytes) : Option Nat :=
  if code = 2 then (if bulkOk die (fld bs 8 8) (fld bs 16 4) then some (bulkBase die + fld bs 8 8) else none)
  else if fld bs 8 8 % 64 ≠ 0 then none else dmaBank (dmaDie die code bs) (fld bs 8 8) (fld bs 16 4)

section
variable {die code : Nat} {bs : Bytes}

theorem dmaFrom_bulk (h : bulkOk die (fld bs 0 8) (fld bs 16 4) = true) : dmaFrom die 1 bs = some (bulkBase die + fld bs 0 8) := by
  simp [dmaFrom, h]

theorem dmaFrom_control (h : fld bs 0 8 + fld bs 16 4 ≤ 4194304) : dmaFrom die 3 bs = some (ctlBase die + fld bs 0 8) := by simp [dmaFrom, h]

theorem dmaFrom_bank (h1 : code ≠ 1) (h3 : code ≠ 3) : dmaFrom die code bs = dmaBank die (fld bs 0 8) (fld bs 16 4) := by simp [dmaFrom, h1, h3]

theorem dmaTo_bulk (h : bulkOk die (fld bs 8 8) (fld bs 16 4) = true) : dmaTo die 2 bs = some (bulkBase die + fld bs 8 8) := by simp [dmaTo, h]

theorem dmaTo_bank (h2 : code ≠ 2) (h : fld bs 8 8 % 64 = 0) : dmaTo die code bs = dmaBank (dmaDie die code bs) (fld bs 8 8) (fld bs 16 4) := by
  simp [dmaTo, h2, h]

end

/-- The bytes that a transfer reads from `a` on, as its identity `who` sees them. -/
def dmaBytes (m : Mem) (d : Dev) (die code who a : Nat) (bs : Bytes) : Bytes :=
  if code = 1 then bulkGets (bankView d who m) d die (fld bs 0 8) (fld bs 16 4) else mgets (bankView d who m) a (fld bs 16 4)

/-- The device with the blocked rows of a transfer counted, at the bank that it reads and at the one that it writes (R335). -/
def dmaCounted (d : Dev) (die code who : Nat) (bs : Bytes) : Dev :=
  let x := if code = 2 || code = 4 then dmaBlocked d die who (fld bs 0 8) (fld bs 16 4) else d
  if code = 2 then x else dmaBlocked x (dmaDie die code bs) who (fld bs 8 8) (fld bs 16 4)

@[simp] theorem dmaCounted_eng (d : Dev) (die code who : Nat) (bs : Bytes) : (dmaCounted d die code who bs).eng = d.eng := by
  unfold dmaCounted
  split_ifs <;> simp

@[simp] theorem dmaCounted_world (d : Dev) (die code who : Nat) (bs : Bytes) : (dmaCounted d die code who bs).world = d.world := by
  unfold dmaCounted
  split_ifs <;> simp

section
variable {fz : Fuses} {m : Mem} {d : Dev} {die code operand : Nat}

/-- A descriptor that is not in order moves nothing (R330). -/
theorem opDma_refuses (h : ¬ dmaClean (dmaDesc m die operand)) :
    (opDma fz m d die code operand).1 = m ∧ (opDma fz m d die code operand).2.1 = dmaFault d die operand := by
  unfold opDma
  extract_lets bs
  rw [if_pos]
  · exact ⟨rfl, rfl⟩
  · have h : ¬ dmaClean bs := h
    simp only [dmaClean, not_and_or, not_le, Bool.not_eq_true] at h
    simp only [Bool.or_eq_true, Bool.and_eq_true, decide_eq_true_eq, Bool.not_eq_true']
    tauto

/-- A transfer in order moves its bytes, as its identity may read and write them (R330, R335); nothing of the engines or of the world changes. -/
theorem opDma_moves {a b who : Nat} (h : dmaClean (dmaDesc m die operand))
    (hdie : code = 4 → dmaDie die code (dmaDesc m die operand) ≠ die ∧ dmaDie die code (dmaDesc m die operand) < popDies fz)
    (ha : dmaFrom die code (dmaDesc m die operand) = some a) (hb : dmaTo die code (dmaDesc m die operand) = some b)
    (hwho : dmaWho d die (bits (fld (dmaDesc m die operand) 20 1) 4 0) = some who) :
    (opDma fz m d die code operand).1 = bankMerge d who m (mputs (bankView d who m) b (dmaBytes m d die code who a (dmaDesc m die operand))) ∧
      (opDma fz m d die code operand).2.1.eng = d.eng ∧ (opDma fz m d die code operand).2.1.world = d.world := by
  unfold opDma
  extract_lets bs src dst n dest len srcA dstA
  have ha : srcA = some a := ha
  have hb : dstA = some b := hb
  have hwho : dmaWho d die (bits (fld bs 20 1) 4 0) = some who := hwho
  rw [if_neg, ha, hb, hwho]
  · change bankMerge (dmaCounted d die code who bs) who m (mputs (bankView (dmaCounted d die code who bs) who m) b
        (dmaBytes m (dmaCounted d die code who bs) die code who a bs)) = _ ∧ (dmaCounted d die code who bs).eng = _ ∧ (dmaCounted d die code who bs).world = _
    rw [dmaBytes, bankMerge_congr (dmaCounted_eng ..), bankView_congr (dmaCounted_eng ..), bulkGets_congr (dmaCounted_world ..)]
    exact ⟨rfl, dmaCounted_eng .., dmaCounted_world ..⟩
  · obtain ⟨hlen, hid, hdst, hzero⟩ : (n % 64 = 0 ∧ 64 ≤ n ∧ n ≤ 67108864) ∧ bits (fld bs 20 1) 7 5 = 0 ∧ bits (fld bs 21 1) 7 3 = 0 ∧
      allZero (slice bs 22 10) = true := h
    simp only [Bool.or_eq_true, Bool.and_eq_true, decide_eq_true_eq, hid, hdst, hzero, Bool.not_true, Bool.false_eq_true,
      ne_eq, not_true_eq_false, or_false]
    rintro (hbad | ⟨hfour, hbad⟩)
    · omega
    · obtain ⟨hne, hpop⟩ : dest ≠ die ∧ dest < popDies fz := hdie hfour
      exact hbad.elim hne (Nat.not_le.2 hpop)

end

/-! ### The four commands -/

section
variable {s : State} {die code operand : Nat}

theorem runDma_eq (hup : dieUp s die) (hlive : dieLive s.dev die = true) : runDma s die code operand =
    .next (s.withMem (opDma s.fuses s.mem s.dev die code operand).1 (opDma s.fuses s.mem s.dev die code operand).2.1) := by
  obtain ⟨h8, hpop⟩ := hup
  rw [runDma, onDie_pop h8 hpop, onMem_eq, if_pos hlive]
  rfl

theorem runDma_refuses (hup : dieUp s die) (hlive : dieLive s.dev die = true) (h : ¬ dmaClean (dmaDesc s.mem die operand)) :
    runDma s die code operand = .next (s.withDev (dmaFault s.dev die operand)) := by
  obtain ⟨hmem, hdev⟩ := opDma_refuses (fz := s.fuses) (d := s.dev) (code := code) h
  rw [runDma_eq hup hlive, hmem, hdev]
  rfl

theorem runDma_moves {a b who : Nat} (hup : dieUp s die) (hlive : dieLive s.dev die = true) (h : dmaClean (dmaDesc s.mem die operand))
    (hdie : code = 4 → dmaDie die code (dmaDesc s.mem die operand) ≠ die ∧ dmaDie die code (dmaDesc s.mem die operand) < popDies s.fuses)
    (ha : dmaFrom die code (dmaDesc s.mem die operand) = some a) (hb : dmaTo die code (dmaDesc s.mem die operand) = some b)
    (hwho : dmaWho s.dev die (bits (fld (dmaDesc s.mem die operand) 20 1) 4 0) = some who) :
    ∃ d, runDma s die code operand = .next (s.withMem (bankMerge s.dev who s.mem
        (mputs (bankView s.dev who s.mem) b (dmaBytes s.mem s.dev die code who a (dmaDesc s.mem die operand)))) d) ∧
      d.eng = s.dev.eng ∧ d.world = s.dev.world := by
  obtain ⟨hmem, hframe⟩ := opDma_moves h hdie ha hb hwho
  exact ⟨_, by rw [runDma_eq hup hlive, hmem], hframe⟩

end

/-- Settles O27: the four transfers by their ends, and a descriptor that is not in order. -/
theorem transfersRun : Obligations.TransfersRun := by
  intro die operand s hup hlive bs src dst n dest moved clean
  refine ⟨fun who b hmul hmin hmax hclean hwho => ?_, fun hbad => ?_⟩
  · have hok : dmaClean bs := ⟨⟨hmul, hmin, hmax⟩, hclean⟩
    refine ⟨fun hsrc hal hdst => ?_, fun hsrc hdst => ?_, fun hsrc hal hdst => ?_, fun a hne hpop hal hsrc hdst => ?_⟩
    · exact runDma_moves (code := 1) hup hlive hok nofun (dmaFrom_bulk hsrc) ((dmaTo_bank (by decide) hal).trans hdst) hwho
    · exact runDma_moves (code := 2) hup hlive hok nofun ((dmaFrom_bank (by decide) (by decide)).trans hsrc) (dmaTo_bulk hdst) hwho
    · exact runDma_moves (code := 3) hup hlive hok nofun (dmaFrom_control hsrc) ((dmaTo_bank (by decide) hal).trans hdst) hwho
    · exact runDma_moves (code := 4) hup hlive hok (fun _ => ⟨hne, hpop⟩) ((dmaFrom_bank (by decide) (by decide)).trans hsrc)
        ((dmaTo_bank (by decide) hal).trans hdst) hwho
  · have hno : ¬ dmaClean bs := by
      rintro ⟨hlen, hclean⟩
      have hlen : n % 64 = 0 ∧ 64 ≤ n ∧ n ≤ 67108864 := hlen
      have hkept : n % 64 ≠ 0 ∨ n < 64 ∨ 67108864 < n := by simpa only [not_true_eq_false, or_false, show clean from hclean] using hbad
      omega
    simp only [List.forall_mem_cons]
    exact ⟨runDma_refuses hup hlive hno, runDma_refuses hup hlive hno, runDma_refuses hup hlive hno, runDma_refuses hup hlive hno, nofun⟩

end Sys2Proof.Machine

/-! PROOFS. Time and the start of turns (O18): what each event does under the condition that its statement names. -/
namespace Sys2Proof.Machine

section
variable {s : State} {t : Nat}

/-- A measurement that completes on the PTP port, where PTP is on and the time source (R543). -/
theorem exec_ptpFrame_measures {port : Nat} {o : Int} (hport : portEn s.dev port = true) (hptp : port = ptpPort (fldCnt (atTime s.dev t) port 0))
    (hon : bitAt (rget (fldCnt (atTime s.dev t) port 0) 0x401004) 0 = true) (hsrc : bitAt (rget (fldCnt (atTime s.dev t) port 0) 0x600000) 8 = false) :
    exec (.ptpFrame port t false (some o)) s = .next (s.withDev (measured (fldCnt (atTime s.dev t) port 0) t o)) := by
  rw [exec_ptpFrame, execPtpFrame, onDev_eq, fxPtp, if_neg (by simp [hport]), if_neg (by simp [← hptp, hon, hsrc])]
  rfl

/-- An edge of PPS_IN, where that is the time source (R540). -/
theorem exec_ppsInEdge_measures (hsrc : bitAt (rget s.dev 0x600000) 8 = true) :
    let d := measured (atTime s.dev t) t ((t : Int) - ((t + 500000000) / 1000000000 * 1000000000 : Nat))
    exec (.ppsInEdge t) s = .next (s.withDev { d with time := { d.time with ppsLast := some t } }) := by
  rw [exec_ppsInEdge, execPpsInEdge, onDev_eq, fxPps, if_neg (by simp [hsrc])]
  rfl

/-- A missing Announce, where PTP is the time source (R543). -/
theorem exec_ptpAnnounceTimeout_ptp (hsrc : bitAt (rget s.dev 0x600000) 8 = false) (hon : bitAt (rget s.dev 0x401004) 0 = true) :
    let d := rfield s.dev 0x401008 0 0 0
    exec .ptpAnnounceTimeout s = .next (s.withDev
      (if !bitAt (rget d 0x401008) 2 && bitAt (rget d 0x401004) 15 then rfield d 0x401008 2 2 1 else loseRef d)) := by
  rw [exec_ptpAnnounceTimeout, execPtpAnnounceTimeout, onDev_eq, fxAnnounceTimeout, if_neg (by simp [hsrc, hon])]
  rfl

/-- Holdover past TRN_HOLD_MAX is a live condition (R48). -/
theorem exec_holdoverExpiry_asserts (hheld : (ppsCheck s.dev).time.holdover.isSome = true) (hmax : bits (rget (ppsCheck s.dev) 0x600028) 15 0 ≠ 0) :
    exec .holdoverExpiry s = .next (s.withDev (assertLive (ppsCheck s.dev) 0x01A 0 0xF0 0)) := by
  have hon : ¬ ((ppsCheck s.dev).time.holdover.isNone || decide (bits (rget (ppsCheck s.dev) 0x600028) 15 0 = 0)) = true := by
    simp [hmax, Option.isSome_iff_ne_none.1 hheld]
  rw [exec_holdoverExpiry, execHoldoverExpiry, onDev_eq, fxHoldExpiry, if_neg hon]
  rfl

/-- A window of the clock monitors in which every clock is good (R40). -/
theorem exec_clockMonitorWindow_good {cclk : Nat} (hlo : 1498500 ≤ cclk) (hhi : cclk ≤ 1501500) :
    exec (.clockMonitorWindow cclk true true) s = .next (s.withDev (rfield (rset (ppsCheck s.dev) 0x1C cclk) 0x18 2 0 7)) := by
  rw [exec_clockMonitorWindow, execClockMonitorWindow, onDev_eq, fxClockWindow]
  simp [hlo, hhi, b2n, State.withDev]

/-- TRN_TAI before run steps the clock (R47). -/
theorem exec_trnTaiSet_before {v : Nat} (hrun : bitAt (rget s.dev 0x600004) 0 = false) : exec (.trnTaiSet v) s =
    .next (s.withDev (modTime (rset (rset s.dev 0x600018 v) 0x60001C (v / 2 ^ 32)) fun x => { x with now := v % 2 ^ 64 })) := by
  rw [exec_trnTaiSet, execTrnTaiSet, onDev_eq, fxTaiSet, if_neg (by simp [hrun])]
  rfl

/-- The first write of run locks the safety configuration, and starts the turns or waits for disciplined time (R49). -/
theorem exec_trnRun_first (hrun : bitAt (rget s.dev 0x600004) 0 = false) :
    let d := lockWdn (rfield (atTime s.dev t) 0x600004 0 0 1)
    exec (.trnRun t) s = .next (s.withDev
      (if disciplined d || (simplex d && bitAt (rget d 0x600000) 9) then startRun d t else modTime d fun x => { x with waiting := true })) := by
  rw [exec_trnRun, execTrnRun, onDev_eq, fxTrnRun, if_neg (by simp [hrun])]
  rfl

end

/-- Settles O18: the measurements, the losses of the reference, the clock monitors, TRN_TAI and run. -/
theorem timeCommandsRun : Obligations.TimeCommandsRun := by
  intro s t
  refine ⟨fun port o hport hptp hon hsrc => exec_ptpFrame_measures hport hptp hon hsrc, fun hsrc => exec_ppsInEdge_measures hsrc,
    fun hsrc hon => ⟨fun hfirst hbackup => ?_, fun hbackup => ?_⟩, ?_, fun v hrun => exec_trnTaiSet_before hrun,
    fun hrun => ⟨fun hdisc => ?_, fun hdisc hsim => ?_⟩⟩
  · rw [exec_ptpAnnounceTimeout_ptp hsrc hon, if_pos (by rw [hfirst, hbackup]; rfl)]
  · rw [exec_ptpAnnounceTimeout_ptp hsrc hon, if_neg (by rw [hbackup, Bool.and_false]; exact Bool.false_ne_true)]
  · exact ⟨fun hheld hmax => exec_holdoverExpiry_asserts hheld hmax, fun cclk hlo hhi => exec_clockMonitorWindow_good hlo hhi⟩
  · rw [exec_trnRun_first hrun, if_pos (by rw [hdisc]; rfl)]
  · rw [exec_trnRun_first hrun, if_neg (by rw [hdisc, hsim]; exact Bool.false_ne_true)]

end Sys2Proof.Machine

/-! PROOFS. Turns (O57): the cutoff that seals a ledger, and the boundary that starts a turn with it, in running and in replay. -/
namespace Sys2Proof.Machine

/-! ### What recording leaves of the coming ledger -/

/-- The sealed ledger that waits and the last digest of the chain are those of `d`. -/
def sealKept (d d' : Dev) : Prop := d'.ldg.ready = d.ldg.ready ∧ d'.ldg.digest = d.ldg.digest

@[simp] theorem setTurnPair_ldg (d : Dev) (o n : Nat) : (setTurnPair d o n).ldg = d.ldg := rfl

@[simp] theorem sealRegs_ldg (d : Dev) (l : Ledger) : (sealRegs d l).ldg = d.ldg := rfl

@[simp] theorem ringWrite_ldg (d : Dev) (base size at_ : Nat) (b : Bytes) : (ringWrite d base size at_ b).ldg = d.ldg := by
  unfold ringWrite
  extract_lets
  split <;> rfl

@[simp] theorem twinSend_ldg (d : Dev) (m : TwinMsg) : (twinSend d m).ldg = d.ldg := by
  unfold twinSend
  split <;> rfl

@[simp] theorem irq_ldg (d : Dev) (fn vec : Nat) : (irq d fn vec).ldg = d.ldg := by
  unfold irq
  extract_lets
  split <;> rfl

theorem recordRing_keepsSeal (d : Dev) (l : Ledger) : sealKept d (recordRing d l) := by
  simp only [recordRing]
  split
  · simp [sealKept]
  · exact ⟨rfl, rfl⟩

theorem recordHost_keepsSeal (d : Dev) (l : Ledger) (replayed : Bool) : sealKept d (recordHost d l replayed) := by
  simp only [recordHost]
  split
  · exact ⟨rfl, rfl⟩
  · split
    · split <;> simp [sealKept]
    · simp [sealKept]

/-- Recording a ledger leaves the sealed ledger and the chain of digests (R84, R85). -/
theorem recordLedger_keepsSeal (d : Dev) (l : Ledger) (replayed : Bool) : sealKept d (recordLedger d l replayed) := by
  unfold recordLedger
  extract_lets
  split
  · exact ⟨rfl, rfl⟩
  · split
    · exact recordHost_keepsSeal _ _ _
    · exact recordRing_keepsSeal _ _

/-- A seal makes its ledger that of the coming turn and chains its digest (R65, R66). -/
theorem takeSeal_ldg (d : Dev) (l : Ledger) : (takeSeal d l).ldg.ready = some l ∧ (takeSeal d l).ldg.digest = l.digest :=
  recordLedger_keepsSeal _ _ _

/-! ### The cutoff -/

section
variable {s : State}

/-- The cutoff of a package that builds its ledgers. -/
theorem fxCutoff_seals (fz : Fuses) {d : Dev} (hdue : cutoffDue d = true) (hbuild : builds d = true) :
    ∃ l, (fxCutoff fz d).time.sealedTo = d.time.sealedTo + 1 ∧ (fxCutoff fz d).ldg.ready = some l ∧ l.turn = d.time.sealedTo + 1 ∧
      (fxCutoff fz d).ldg.digest = l.digest := by
  unfold fxCutoff
  extract_lets n d1 close d2 l d3 d4
  have hbuild : builds d1 = true := hbuild
  have hldg : d4.ldg = d3.ldg := by
    unfold d4
    split
    · exact twinSend_ldg _ _
    · rfl
  obtain ⟨hready, hdigest⟩ := takeSeal_ldg d2 l
  rw [if_neg (by simp [hdue]), if_neg (by simp [hbuild])]
  exact ⟨l, rfl, (congrArg LdgRec.ready hldg).trans hready, rfl, (congrArg LdgRec.digest hldg).trans hdigest⟩

/-- The TIMEOUT entry of a stream whose timeout has elapsed (R67). -/
theorem exec_streamTimeout_places {n : Nat} {x : StreamRec} (hdue : cutoffDue s.dev = true) (hbuild : builds s.dev = true)
    (hx : tget s.dev.world.streams n = some x) (htime : timeoutDue s.dev (s.dev.time.sealedTo + 1) x = true) : exec (.streamTimeout n) s =
      .next (s.withDev (placeTimeout (atTime s.dev (cutoffTime s.dev (s.dev.time.sealedTo + 1))) (s.dev.time.sealedTo + 1) n)) := by
  simp [exec_streamTimeout, execStreamTimeout, onDev_eq, fxStreamTimeout, hdue, hbuild, hx, htime, State.withDev]

/-- A tile map that is due (R32). -/
theorem exec_tileMapChange_sets {m : List Nat} (h : s.dev.pkg.due = some m) :
    exec .tileMapChange s = .next (s.withDev (setTiles s.dev m (s.dev.pkg.gen + 1))) := by
  simp only [exec_tileMapChange, execTileMapChange, onDev_eq, fxTileChange, h, State.withDev]

/-- A deferral that has lasted pin_hold_max turn ends, with no room for a version (R114). -/
theorem exec_pinHoldExpiry_ends {h : Nat} {m : MapRec} (hm : tget s.dev.world.maps h = some m) (hpend : m.pend ≠ []) (hlive : m.removed = false)
    (hlong : m.pinHoldMax ≤ m.deferTurns + 1) (hroom : roomFor s.dev h m = false) :
    exec (.pinHoldExpiry h) s = .next (s.withDev (formOrDefer s.dev h m (formTurns s.dev m))) := by
  have hshort : ¬ m.deferTurns + 1 < m.pinHoldMax := Nat.not_lt.2 hlong
  simp [exec_pinHoldExpiry, execPinHoldExpiry, onDev_eq, fxPinExpiry, hm, hpend, hlive, hshort, hroom, State.withDev]

end

theorem cutoffRuns : CutoffRuns := by
  refine fun s => ⟨fun hdue hbuild => ?_, fun _ _ hdue hbuild hx htime => exec_streamTimeout_places hdue hbuild hx htime,
    fun _ h => exec_tileMapChange_sets h, fun _ _ hm hpend hlive hlong hroom => exec_pinHoldExpiry_ends hm hpend hlive hlong hroom⟩
  obtain ⟨l, hseal⟩ := fxCutoff_seals s.fuses hdue hbuild
  exact ⟨_, l, rfl, hseal⟩

/-! ### The boundary -/

section
variable {s : State}

/-- The coming turn's ledger is sealed, and the part runs by the clock. -/
def boundaryDue (d : Dev) : Prop :=
  d.time.running = true ∧ d.pin.trip = false ∧ d.ldg.replay = false ∧ d.time.turn + 1 ≤ d.time.sealedTo

/-- A boundary that is due goes past its first test. -/
theorem boundaryDue.passes {d : Dev} (h : boundaryDue d) :
    ¬ (!d.time.running || d.pin.trip || d.ldg.replay || decide (d.time.sealedTo < d.time.turn + 1)) = true := by
  obtain ⟨hrun, htrip, hreplay, hsealed⟩ := h
  simp [hrun, htrip, hreplay, Nat.not_lt.2 hsealed]

/-- In a stopped safe state the turn number and the heartbeat go on (R477). -/
theorem exec_turnBoundary_stopped (hdue : boundaryDue s.dev) (hstop : s.dev.wdn.safe.stopped = true) : exec .turnBoundary s =
    .next (s.withDev (toTurn (fxHeartbeat (atTime s.dev (turnStart s.dev (s.dev.time.turn + 1))) s.dev.time.turn) (s.dev.time.turn + 1))) := by
  have hstop : (atTime s.dev (turnStart s.dev (s.dev.time.turn + 1))).wdn.safe.stopped = true := hstop
  rw [exec_turnBoundary, execTurnBoundary, onFz_eq, fxBoundary, if_neg hdue.passes, if_pos hstop]
  rfl

/-- The turn that executes ends, and the next one starts with its ledger (R39, R49). -/
theorem exec_turnBoundary_starts (hdue : boundaryDue s.dev) (hstop : s.dev.wdn.safe.stopped = false) (htail : s.dev.twin.tailNext = none) :
    let at_ := atTime s.dev (turnStart s.dev (s.dev.time.turn + 1))
    let d := if s.dev.time.started then endTurn s.fuses at_ else at_
    d.ldg.replay = false → (d.wdn.safe.on && d.wdn.safe.latched) = false → exec .turnBoundary s =
      .next (s.withDev (startTurn s.fuses (ledgerFor d (s.dev.time.turn + 1)).1 (ledgerFor d (s.dev.time.turn + 1)).2)) := by
  intro at_ d hreplay hsafe
  have hgo : ¬ at_.wdn.safe.stopped = true := fun h => Bool.noConfusion (hstop.symm.trans h)
  have hno : ¬ at_.twin.tailNext.isSome = true := by
    have htail : at_.twin.tailNext = none := htail
    simp [htail]
  rw [exec_turnBoundary, execTurnBoundary, onFz_eq, fxBoundary, if_neg hdue.passes, if_neg hgo, if_neg hno]
  change Host.Outcome.next { s with dev := if d.ldg.replay then d else if d.wdn.safe.on && d.wdn.safe.latched then _ else _ } = _
  rw [if_neg (by simp [hreplay]), if_neg (by simp [hsafe])]
  rfl

/-- In replay a ledger that verifies starts its virtual turn, reported where it has more live cores than the package (R86, R87). -/
theorem replayNext_good (fz : Fuses) (d : Dev) (c : Cmd) {l : Ledger} {own n : Nat} (rest : List (Ledger × Nat)) (hturn : l.turn = n)
    (hgap : l.gap = false ∨ d.ldg.current = none) (hown : own = l.digest) (hblocks : blocksGood l = true) :
    replayNext fz d c n ((l, own) :: rest) =
      startTurn fz (modLdg (recordLedger { d with ldg := { d.ldg with replayDiff := d.ldg.replayDiff || decide (mapCores d.pkg.map < l.cores) } } l true)
        fun x => { x with prepared := none, replayRun := some (c, rest), replayDone := x.replayDone + 1, digest := l.digest }) l := by
  have hcores : (if l.cores > mapCores d.pkg.map then modLdg d fun x => { x with replayDiff := true } else d) =
      { d with ldg := { d.ldg with replayDiff := d.ldg.replayDiff || decide (mapCores d.pkg.map < l.cores) } } := by
    split
    · next h => simp [modLdg, h]
    · next h => simp [h]
  have hgap : (l.gap && d.ldg.current.isSome) = false := by
    rcases hgap with hgap | hgap <;> simp [hgap]
  rw [replayNext, if_neg (by simp [hturn, hgap, hown, hblocks])]
  simp only [hcores]

/-- A run stops before a ledger whose digest or mirror blocks do not verify (R87, R524). -/
theorem replayNext_bad (fz : Fuses) (d : Dev) (c : Cmd) {l : Ledger} {own : Nat} (n : Nat) (rest : List (Ledger × Nat))
    (hbad : own ≠ l.digest ∨ blocksGood l = false) : replayNext fz d c n ((l, own) :: rest) = replayEnd d c stBadCheck d.ldg.replayDone := by
  rw [replayNext, if_pos]
  rcases hbad with hown | hblocks
  · simp [hown]
  · simp [hblocks]

/-- A virtual turn that is prepared takes the next ledger of its run. -/
theorem exec_replayTurn_prepared {c : Cmd} {ls : List (Ledger × Nat)} {n : Nat} (hreplay : s.dev.ldg.replay = true)
    (hprep : s.dev.ldg.prepared = some n) (hrun : s.dev.ldg.replayRun = some (c, ls)) :
    exec .replayTurn s = .next (s.withDev (replayNext s.fuses s.dev c n ls)) := by
  simp [exec_replayTurn, execReplayTurn, onFz_eq, fxReplayTurn, hreplay, hprep, hrun, State.withDev]

end

theorem boundaryRuns : BoundaryRuns := by
  refine fun s => ⟨fun hrun htrip hreplay hsealed => ?_, fun c l own n rest hreplay hprep hlist => ?_⟩
  · have hdue : boundaryDue s.dev := ⟨hrun, htrip, hreplay, hsealed⟩
    exact ⟨fun hstop htail => exec_turnBoundary_starts hdue hstop htail, fun hstop => exec_turnBoundary_stopped hdue hstop⟩
  · rw [exec_replayTurn_prepared hreplay hprep hlist]
    exact ⟨fun hturn hgap hown hblocks => by rw [replayNext_good _ _ _ _ hturn hgap hown hblocks], fun hbad => by rw [replayNext_bad _ _ _ _ _ hbad]⟩

/-- Settles O57: the cutoff and the boundary. -/
theorem turnsRun : Obligations.TurnsRun := ⟨cutoffRuns, boundaryRuns⟩

end Sys2Proof.Machine

/-! PROOFS. Queries: how they enter the ledger turn (O9, O8) and how their budget and their deadline end them (O10). -/
namespace Sys2Proof.Machine

/-- A meaning over `onDev` answers the state with the new device. -/
theorem onDev_withDev (s : State) (f : Dev → Dev) : onDev s f = .next (s.withDev (f s.dev)) := rfl

/-- Settles O9: entering writes one new record under the next number. -/
theorem enterQueryFrame : Obligations.EnterQueryFrame := by
  intro d c ag ctrl
  refine ⟨rfl, fun n hn => tget_tput_ne _ _ _ _ hn, ⟨_, tget_tput_self _ _ _, ?_⟩, rfl⟩
  exact ⟨rfl, rfl, rfl, rfl, rfl⟩

/-! ### Entering -/

section
variable {d : Dev} {c : Cmd} {a : AgentRec}

/-- An agent that the command's polder owns is the agent that the command names. -/
theorem ownAgent_eq {h : Nat} (hget : tget d.world.agents h = some a) (hown : a.polder = c.polder) : ownAgent d c h = some a := by
  simp [ownAgent, hget, hown]

/-- A PLAN that passes its tests is entered (R218, R219). -/
theorem fxPlan_enters (h : planEnters d c a) : fxPlan d c = enterQuery d c (planOf c).agent (ctrlOf a) := by
  obtain ⟨hrange, hhead, htag, hget, hown, hleaving, hslots, hmaps, hheur, hslices⟩ := h
  have hslots : (planSlots (planOf c) a.bind).isNone = false := by
    rw [← Option.not_isSome, hslots, Bool.not_true]
  simp only [fxPlan, hget, Option.map_some, hrange, hhead, htag, ownAgent_eq hget hown, hleaving, hslots, hmaps, hheur, hslices, Bool.not_true,
    Bool.or_self, Bool.false_eq_true, if_false]

/-- A STOP_VERIFY that passes its tests is entered (R152, R370). -/
theorem fxStopVerify_enters (hlen : c.block.length = 4) (hagent : fld c.block 0 2 ≤ 4095) (hengage : fld c.block 2 1 ≤ 1) (hzero : fld c.block 3 1 = 0)
    (hcls : c.cls = 0) (hhead : qHeadOk c = true) (hfield : ∀ port ag, c.origin = .field port ag → ag = fld c.block 0 2)
    (htag : tagTaken d c.polder c.tag = false) (hget : tget d.world.agents (fld c.block 0 2) = some a) (hown : a.polder = c.polder)
    (hleaving : a.leaving = false) (hstate : a.state ≠ 0) : fxStopVerify d c = enterQuery d c (fld c.block 0 2) (ctrlOf a) := by
  unfold fxStopVerify
  extract_lets b h own
  have hasks : own = true := by
    unfold own
    split
    · next port ag horigin => simp [h, b, hfield port ag horigin]
    · rfl
  have hpasses : ¬ (b.length ≠ 4 || h > 4095 || fld b 2 1 > 1 || fld b 3 1 ≠ 0 || c.cls ≠ 0 || !qHeadOk c || !own) = true := by
    simp [b, h, hlen, hzero, hcls, hhead, hasks, hagent, hengage]
  rw [if_neg hpasses, htag, ownAgent_eq hget hown]
  simp [hleaving, hstate, h, b]

/-- A SOLVE that passes its tests is entered (R278, R281). -/
theorem fxSolve_enters {m : ModelRec} (hblock : solveBlockOk c = true) (hhead : qHeadOk c = true) (hmodel : solveModelOk (modelDef m) c = true)
    (htag : tagTaken d c.polder c.tag = false) (hget : tget d.world.models (fld c.block 2 2) = some m) (hown : m.owner = c.polder) (hkind : m.kind = 1)
    (hlive : m.removed = false) (hvers : m.vers ≠ [])
    (hstate : bitAt (fld c.block 1 1) 0 = true → tget d.world.agents (fld c.block 4 2) = some a ∧ a.polder = c.polder ∧ a.bind.model = fld c.block 2 2 ∧
      a.state ≠ 0 ∧ a.snap.isSome = true) : fxSolve d c = enterQuery d c (fld c.block 4 2) (0, 0, 0) := by
  have hvers : m.vers.isEmpty = false := by simp [hvers]
  have hkin : (some m).filter (fun m => m.kind == 1) = some m := by simp [Option.filter_some, hkind]
  by_cases huse : bitAt (fld c.block 1 1) 0 = true
  · obtain ⟨hagent, hpolder, hbind, hset, hsnap⟩ := hstate huse
    have hsnap : a.snap.isNone = false := by rw [← Option.not_isSome, hsnap, Bool.not_true]
    simp [fxSolve, hblock, hhead, hmodel, htag, hget, hown, hkin, hlive, hvers, huse, ownAgent_eq hagent hpolder, hbind, hset, hsnap]
  · simp [fxSolve, hblock, hhead, hmodel, htag, hget, hown, hkin, hlive, hvers, huse]

/-- A SELECT that passes its tests is entered (R297, R301). -/
theorem fxSelect_enters (hblock : selBlkOk c.block (c.cls == 0) = true) (hhead : qHeadOk c = true) (htag : tagTaken d c.polder c.tag = false) :
    fxSelect d c = enterQuery d c 0 (0, 0, 0) := by
  simp [fxSelect, hblock, hhead, htag]

/-- A PLAN_CANCEL of a whole block ends the polder's queries of its tag (R55, R244). -/
theorem fxPlanCancel_ends (hlen : c.block.length = 4) : fxPlanCancel d c =
    let ids := ((liveQueries d).filter fun q => q.2.cmd.polder == c.polder && q.2.cmd.tag == fld c.block 0 4).map (·.1)
    ok (endQueries d ids stCancelled 0) c (if ids.isEmpty then 0 else 1) := by
  simp only [fxPlanCancel, hlen, ne_eq, not_true_eq_false, if_false]

end

/-- Settles O8: each query that passes its tests is entered, and the activation pass of its turn follows. -/
theorem queryCommandsRun : Obligations.QueryCommandsRun := by
  intro c s a
  refine ⟨fun hplan => ?_, fun hlen hagent hengage hzero hcls hhead hfield htag hget hown hleaving hstate => ?_,
    fun m hblock hhead hmodel htag hget hown hkind hlive hvers hstate => ?_, fun hblock hhead htag => ?_, fun hlen => ?_⟩
  · rw [exec_plan, execPlan, onDev_withDev, fxPlan_enters hplan]
  · rw [exec_stopVerify, execStopVerify, onDev_withDev,
      fxStopVerify_enters hlen hagent hengage hzero hcls hhead hfield htag hget hown hleaving hstate]
  · rw [exec_solve, execSolve, onDev_withDev, fxSolve_enters hblock hhead hmodel htag hget hown hkind hlive hvers hstate]
  · rw [exec_select, execSelect, onDev_withDev, fxSelect_enters hblock hhead htag]
  · rw [exec_planCancel, execPlanCancel, onDev_withDev, fxPlanCancel_ends hlen]

/-! ### Budget and deadline -/

section
variable {d : Dev} {n : Nat} {q : QueryRec}

/-- A search that has used its budget ends on it (R68, R231). -/
theorem fxBudgetEnd_search (hq : tget d.q.recs n = some q) (hgoes : stuck d q = false) (hstage : q.stage = .search) (hspent : q.cmd.budget ≤ q.expansions) :
    fxBudgetEnd d n = endBudget d n q := by
  simp [fxBudgetEnd, hq, hgoes, hstage, hspent]

/-- A SOLVE that computes completes (R281). -/
theorem fxBudgetEnd_solve (hq : tget d.q.recs n = some q) (hgoes : stuck d q = false) (hstage : q.stage = .compute) (hkind : q.kind = .solve) :
    fxBudgetEnd d n = solveEnd d n q := by
  simp [fxBudgetEnd, hq, hgoes, hstage, hkind]

/-- A SELECT that computes completes (R299). -/
theorem fxBudgetEnd_select (hq : tget d.q.recs n = some q) (hgoes : stuck d q = false) (hstage : q.stage = .compute) (hkind : q.kind = .select) :
    fxBudgetEnd d n = selectEnd d n q := by
  simp [fxBudgetEnd, hq, hgoes, hstage, hkind]

/-- A query of this package that waits past its deadline ends without work, a SELECT with the head of its result block (R69, R301, R400). -/
theorem waitLate_own (hown : q.foreign = false) : waitLate d n q =
    endQuery d n stTimeLimited 0 (if q.kind = .select then some (selResult q.cmd.block default true) else none) := by
  by_cases hkind : q.kind = .select
  · simp [waitLate, workLate, hown, hkind]
  · simp [waitLate, hown, hkind]

/-- A query that waits past its deadline turn (R69, R400). -/
theorem fxDeadline_waits (hq : tget d.q.recs n = some q) (hlate : deadlineTurn d q.cmd ≤ d.time.turn) (hwaits : waitsSlot q = true) :
    fxDeadline d n = waitLate d n q := by
  simp [fxDeadline, hq, hwaits, Nat.not_lt.2 hlate]

/-- A search ends at its deadline with its best node (R69, R232). -/
theorem fxDeadline_search (hq : tget d.q.recs n = some q) (hlate : deadlineTurn d q.cmd ≤ d.time.turn) (hwaits : waitsSlot q = false)
    (hstage : q.stage = .search) : fxDeadline d n = endSearch d n (bestNode q.tiles (q.start.getD default)) false true := by
  simp [fxDeadline, hq, hwaits, hstage, Nat.not_lt.2 hlate]

end

/-- Settles O10: by the query's stage, and at the deadline by whether it still waits. -/
theorem queryEndsRun : Obligations.QueryEndsRun := by
  intro n s q hq
  simp only [exec_budgetEnd, execBudgetEnd, exec_deadlineExpiry, execDeadlineExpiry, onDev_withDev]
  refine ⟨fun hgoes hstage hspent => ?_, fun hgoes hstage hkind => ?_, fun hgoes hstage hkind => ?_, fun hlate hwaits hown => ?_,
    fun hlate hwaits hstage => ?_⟩
  · rw [fxBudgetEnd_search hq hgoes hstage hspent]
  · rw [fxBudgetEnd_solve hq hgoes hstage hkind]
  · rw [fxBudgetEnd_select hq hgoes hstage hkind]
  · rw [fxDeadline_waits hq hlate hwaits, waitLate_own hown]
  · rw [fxDeadline_search hq hlate hwaits hstage]

end Sys2Proof.Machine

/-! PROOFS. LEDGER_CTL (O11): snapshots and the three commands of replay. -/
namespace Sys2Proof.Machine

section
variable {d : Dev} {c : Cmd}

/-- The physical function may give every command (R366). -/
theorem pfOnly_pf {f : Dev → Cmd → Dev} (hpf : c.polder = 0) : pfOnly d c f = f d c := by
  simp [pfOnly, hpf]

/-- A SNAPSHOT that names a turn of its range is scheduled (R86, R374). -/
theorem fxSnapshot_schedules (hok : ctlOk c 1 = true) (hlo : d.time.turn + 2 ≤ ctlTurn c) (hhi : ctlTurn c ≤ d.time.turn + 10000)
    (hreplay : d.ldg.replay = false) (hnone : d.ldg.snapshot = none) :
    fxSnapshot d c = { d with ldg := { d.ldg with snapshot := some (ctlTurn c, d.time.turn, c) } } := by
  simp [fxSnapshot, hok, hreplay, hnone, Nat.not_lt.2 hlo, Nat.not_lt.2 hhi, modLdg]

/-- A snapshot that has been written is answered with its size, and stands in the buffer where it fits (R86, R374). -/
theorem fxSnapshotEnd_answers {t adm : Nat} {x : Snap} (hsnap : d.ldg.snapshot = some (t, adm, c)) (htaken : d.host.taken = some x) :
    fxSnapshotEnd d =
      let n := Config.freeNat d.free; let fits := n * 4096 ≤ ctlLen c
      reply { d with
        free := d.free + 1, ldg := { d.ldg with snapshot := none },
        host := { d.host with taken := none, snaps := if fits then tput d.host.snaps (ctlAddr c) x else d.host.snaps } }
        c (if fits then 0 else stBadRange) n none adm 0 0 0 := by
  by_cases hfits : Config.freeNat d.free * 4096 ≤ ctlLen c
  · simp [fxSnapshotEnd, hsnap, htaken, freeVal, modLdg, hfits, Nat.not_lt.2 hfits]
  · simp [fxSnapshotEnd, hsnap, htaken, freeVal, modLdg, hfits, Nat.not_le.1 hfits]

/-- A REPLAY_PREPARE outside a replay waits for the end of its turn (R374). -/
theorem fxReplayPrepare_waits (hok : ctlOk c 2 = true) (halone : attached d = false) (hnone : d.ldg.preparing = none) (hreplay : d.ldg.replay = false) :
    fxReplayPrepare d c = { d with ldg := { d.ldg with preparing := some (c, d.time.turn) } } := by
  simp [fxReplayPrepare, hok, halone, hnone, hreplay, modLdg]

/-- A REPLAY_RUN in replay reads the records of its buffer (R87, R374). -/
theorem fxReplayRun_reads (m : Mem) (hok : ctlOk c 3 = true) (hreplay : d.ldg.replay = true) (hnone : d.ldg.replayRun = none) :
    fxReplayRun m d c = { d with ldg := { d.ldg with
      replayRun := some (c, readRecords (ctlLen c / 48) none (mgets m (hostBase + ctlAddr c) (ctlLen c))), replayDone := 0, replayDiff := false } } := by
  simp [fxReplayRun, hok, hreplay, hnone, modLdg]

/-- A REPLAY_END in replay stops the turns and signals vector 59 (R358, R374). -/
theorem fxReplayEnd_stops (hok : ctlOk c 4 = true) (hreplay : d.ldg.replay = true) :
    fxReplayEnd d c = modTime (rfield (modLdg (irq (outside d c 0 0) 0 59) fun l => { l with
      replay := false, prepared := none, replayRun := none }) 0x500000 3 3 0) fun t => { t with started := false, running := false } := by
  simp [fxReplayEnd, hok, hreplay]

end

/-- Settles O11: each use of LEDGER_CTL by the physical function, whose block is in range and which the state allows. -/
theorem recordCommandsRun : Obligations.RecordCommandsRun := by
  intro c s hpf
  refine ⟨fun hok hlo hhi hreplay hnone => ?_, fun t adm x hsnap htaken => ?_, fun hok halone hnone hreplay => ?_, fun hok hreplay hnone => ?_,
    fun hok hreplay => ?_⟩
  · rw [exec_snapshot, execSnapshot, onDev_withDev, pfOnly_pf hpf, fxSnapshot_schedules hok hlo hhi hreplay hnone]
  · rw [exec_snapshotEnd, execSnapshotEnd, onDev_withDev, fxSnapshotEnd_answers hsnap htaken]
  · rw [exec_replayPrepare, execReplayPrepare, onDev_withDev, pfOnly_pf hpf, fxReplayPrepare_waits hok halone hnone hreplay]
  · rw [exec_replayRun, execReplayRun, onMem_eq, pfOnly_pf hpf, fxReplayRun_reads _ hok hreplay hnone, State.withDev]
  · rw [exec_replayEnd, execReplayEnd, onDev_withDev, pfOnly_pf hpf, fxReplayEnd_stops hok hreplay]

end Sys2Proof.Machine

/-! PROOFS. What happens inside a turn (O19): the release phase, egress, the quiet tail, the berm. -/
namespace Sys2Proof.Machine

section
variable {d : Dev}

/-- The release phase of a turn that has not had one (R240, R486). -/
theorem fxRelease_runs (hrun : running d = true) (hfirst : d.q.relTurn ≠ d.time.turn) (hcaught : lags d = false) :
    fxRelease d =
      let d := { d with q := { d.q with relTurn := d.time.turn, phase := [] } }
      if releasing d then releasePlans (verifyAll (releaseStale d)) else d := by
  have hgoes : ¬ (!running d || d.q.relTurn = d.time.turn || lags d) = true := by simp [hrun, hfirst, hcaught]
  rw [fxRelease, if_neg hgoes]
  extract_lets _ d'
  cases releasing d' <;> rfl

/-- The first result that may leave goes out on its port, which is enabled and has its link (R82, R249). -/
theorem fxEgress_sends {f : EgFrame} {rest : List EgFrame} (hfirst : sortBy egressLe (d.host.egress.filter (mayLeave d)) = f :: rest) (hbody : f.body ≠ []) :
    let d' := { d with host := { d.host with egress := d.host.egress.filter fun x => x.id != f.id } }
    portEn d' f.port = true → bitAt d'.fab.fieldUp f.port = true →
      fxEgress d = fldCnt (send d' (.field f.port (ethHead d' f.port f.mac f.vlan f.pcp ++ f.body))) f.port 1 := by
  intro d' hport hlink
  have hsends : (portEn d' f.port && bitAt d'.fab.fieldUp f.port) = true := by rw [hport, hlink, Bool.and_self]
  have hbody : ¬ f.body.isEmpty = true := by simpa using hbody
  simp only [fxEgress, hfirst]
  rw [if_neg hbody, if_pos hsends]

/-- Nothing waits to be cleared where there was no overrun (R329). -/
theorem settle_no_overrun {die : Nat} (cyc : Nat) (hover : (latheOf d die).overrun = false) : settle d die cyc = d := by
  simp [settle, hover]

/-- The quiet tail of a lathe with work left over (R328). -/
theorem fxQuietTail_reports {die : Nat} (hon : latheOn d die = true) (hover : (latheOf d die).overrun = false) (hleft : leftover d die = true) :
    fxQuietTail d die = cnt (latheErr (latheCnt d die 0x34 (lateWaits d die)) die 5 0x013 0) (dieWin die + 0x38) := by
  simp only [fxQuietTail, hon, settle_no_overrun _ hover, hleft, Bool.not_true, Bool.false_eq_true, if_false]

/-- An operation of the DMA agent or the lathe itself that runs past the berm is raised with its unit as the origin (R316). -/
theorem fxBermOver_raises {die unit cyc : Nat} (hcyc : cyc = bermLen d) (hunit : 0x80 ≤ unit)
    (hlate : ((stillRuns (unitOf d die unit) cyc).any fun r => r.window == 1) = true) : fxBermOver d die unit cyc = raise d 0x015 die unit cyc := by
  have hover : (cyc = bermLen d && (stillRuns (unitOf d die unit) cyc).any fun r => r.window == 1) = true := by
    rw [hlate, Bool.and_true, decide_eq_true hcyc]
  rw [fxBermOver, if_pos hover, if_neg (Nat.not_lt.2 hunit)]

end

/-- A command on a populated die that changes the device only answers the state with the new device. -/
theorem onDie_withDev {s : State} {die : Nat} (f : Dev → Dev) (h8 : die < 8) (h : die < variantDies s.fuses.variant) :
    onDie s die (fun _ m d => (m, f d)) = .next (s.withDev (f s.dev)) := onDie_pop h8 h

/-- Settles O19: each event of a turn, on a populated die where it names one. -/
theorem turnEventsRun : Obligations.TurnEventsRun := by
  intro s
  refine ⟨fun hrun hfirst hcaught => ?_, fun f rest hfirst hbody => ?_,
    fun die unit cyc h8 hdie => ⟨fun hon hover hleft => ?_, fun hcyc hunit hlate => ?_⟩⟩
  · rw [exec_releasePhase, execReleasePhase, onDev_withDev, fxRelease_runs hrun hfirst hcaught]
  · intro d hport hlink
    rw [exec_resultEgress, execResultEgress, onDev_withDev, fxEgress_sends hfirst hbody hport hlink]
  · rw [exec_quietTailCheck, execQuietTailCheck, onDie_withDev _ h8 hdie, fxQuietTail_reports hon hover hleft]
  · rw [exec_bermOverrun, execBermOverrun, onDie_withDev _ h8 hdie, fxBermOver_raises hcyc hunit hlate]

end Sys2Proof.Machine

/-! PROOFS. The host interface (O17): queue pairs that stop, interrupts, resets of functions and of the link. -/
namespace Sys2Proof.Machine

/-! ### Folds over the device -/

/-- A part that every step of a fold leaves, the fold leaves. -/
theorem foldl_leaves {α β : Type} (g : Dev → β) {f : Dev → α → Dev} (h : ∀ d a, g (f d a) = g d) (l : List α) (d : Dev) : g (l.foldl f d) = g d :=
  List.foldlRecOn (motive := fun x => g x = g d) l f rfl fun x hx a _ => (h x a).trans hx

/-- What the step of one member establishes and every step keeps holds after the fold. -/
theorem foldl_establishes {α : Type} {P : Dev → Prop} {f : Dev → α → Dev} {a : α} {l : List α} (hmem : a ∈ l) (hself : ∀ d, P (f d a))
    (hkeep : ∀ d b, P d → P (f d b)) (d : Dev) : P (l.foldl f d) := by
  induction l generalizing d with
  | nil => cases hmem
  | cons b l ih =>
    rcases List.mem_cons.1 hmem with rfl | hmem
    · exact List.foldlRecOn (motive := P) l f (hself d) fun x hx b _ => hkeep x b hx
    · exact ih hmem (f d b)

/-! ### One pair -/

section
variable (d : Dev) (p q : Nat)

@[simp] theorem clearEnable_host : (clearEnable d p q).host = d.host := rfl

/-- A changed pair reads as it was changed. -/
@[simp] theorem pairOf_modPair_self (f : PairRec → PairRec) : pairOf (modPair d p q f) p q = f (pairOf d p q) := by
  simp [pairOf, modPair, tgetD, tget_tput_self]

/-- A change of one pair leaves every other. -/
theorem pairOf_modPair_ne {i j : Nat} (h : pairKey i j ≠ pairKey p q) (f : PairRec → PairRec) : pairOf (modPair d p q f) i j = pairOf d i j := by
  simp [pairOf, modPair, tgetD, tget_tput_ne _ _ _ _ h]

/-- A change that leaves the enable flag of a pair's record leaves that of every pair. -/
theorem enabled_modPair {i j : Nat} {f : PairRec → PairRec} (hf : ∀ x, (f x).enabled = x.enabled) :
    (pairOf (modPair d p q f) i j).enabled = (pairOf d i j).enabled := by
  by_cases hkey : pairKey i j = pairKey p q
  · simp [pairOf, modPair, tgetD, hkey, tget_tput_self, hf]
  · rw [pairOf_modPair_ne d p q hkey]

/-- Bit 0 of a register whose bit 0 is cleared. -/
theorem bit0_cleared (o : Nat) : bitAt (rget (rfield d o 0 0 0) o) 0 = false := by
  have heven : ∀ r : Nat, (r - r % 2) % 4294967296 % 2 = 0 := by omega
  simp [rfield, bitAt, bits, heven]

/-- Clearing bit 0 of a register sets bit 0 of none. -/
theorem bit0_stays {o x : Nat} (h : bitAt (rget d x) 0 = false) : bitAt (rget (rfield d o 0 0 0) x) 0 = false := by
  by_cases hx : x = o
  · exact hx ▸ bit0_cleared d x
  · rwa [rfield, rget_rset_ne _ _ _ _ hx]

end

/-- A queue pair is stopped: its record and its register's enable bit say so (R357). -/
def pairStopped (p q : Nat) (d : Dev) : Prop := (pairOf d p q).enabled = false ∧ bitAt (rget d (pageReg p q 0)) 0 = false

/-- The enable bit of a pair cleared and its record, where there is one, changed by `f`: what `killPair` and `stopPair` share. -/
def shutPair (f : PairRec → PairRec) (d : Dev) (p q : Nat) : Dev :=
  if (tget d.host.pairs (pairKey p q)).isNone then clearEnable d p q else modPair (clearEnable d p q) p q f

section
variable {d : Dev} {p q : Nat} {f : PairRec → PairRec}

theorem shutPair_listed (h : (tget d.host.pairs (pairKey p q)).isSome = true) : shutPair f d p q = modPair (clearEnable d p q) p q f := by
  rw [shutPair, if_neg (by rw [← Option.not_isSome, h]; decide)]

/-- Shutting a pair changes registers and pair records only. -/
theorem shutPair_frame {β : Type} (g : Dev → β) (hclear : ∀ d, g (clearEnable d p q) = g d) (hpair : ∀ d, g (modPair d p q f) = g d) :
    g (shutPair f d p q) = g d := by
  unfold shutPair
  split
  · exact hclear d
  · exact (hpair _).trans (hclear d)

/-- A pair that is shut is stopped. -/
theorem shutPair_stops (hf : ∀ x, (f x).enabled = false) : pairStopped p q (shutPair f d p q) := by
  unfold shutPair
  split
  · next hnone => exact ⟨by simp [pairOf, tgetD, Option.isNone_iff_eq_none.1 hnone]; rfl, bit0_cleared d _⟩
  · exact ⟨by simp [hf], bit0_cleared d _⟩

/-- Shutting a pair starts no other. -/
theorem shutPair_keeps {i j : Nat} (hf : ∀ x, (f x).enabled = false) (h : pairStopped i j d) : pairStopped i j (shutPair f d p q) := by
  obtain ⟨hoff, hbit⟩ := h
  unfold shutPair
  split
  · exact ⟨hoff, bit0_stays d hbit⟩
  · refine ⟨?_, bit0_stays d hbit⟩
    by_cases hkey : pairKey i j = pairKey p q
    · simp [pairOf, modPair, tgetD, hkey, tget_tput_self, hf]
    · rwa [pairOf_modPair_ne _ _ _ hkey]

end

/-- The record of a pair that stops: its replies are gone, a run of chunks goes on (R61, R357). -/
def stoppedRec (x : PairRec) : PairRec :=
  { x with enabled := false, busy := x.chunk.isSome, lost := some x.fetchCtr, outstanding := 0, waiting := [], coal := 0, timer := false }

/-- The record of a pair that is disabled at once, its run of chunks with it (R61, R387). -/
def killedRec (x : PairRec) : PairRec := { stoppedRec x with busy := false, chunk := none }

section
variable (d : Dev) (p q : Nat)

theorem stopPair_eq : stopPair d p q = shutPair stoppedRec d p q := rfl

theorem killPair_eq : killPair d p q = shutPair killedRec (cutRun d p q) p q := rfl

/-- What cutting a run of chunks can do: nothing, or drop the run from the pair's record and mark the ledger (R61). -/
theorem cutRun_cases : cutRun d p q = d ∨ ∃ l, cutRun d p q = { modPair d p q (fun x => { x with chunk := none }) with ldg := l } := by
  unfold cutRun
  split
  · exact .inl rfl
  · exact .inr ⟨_, rfl⟩

/-- Cutting a run stops and starts no pair. -/
theorem cutRun_keeps {i j : Nat} {d : Dev} (h : pairStopped i j d) : pairStopped i j (cutRun d p q) := by
  obtain ⟨hoff, hbit⟩ := h
  rcases cutRun_cases d p q with hsame | ⟨l, hcut⟩
  · rw [hsame]
    exact ⟨hoff, hbit⟩
  · rw [hcut]
    exact ⟨(enabled_modPair d p q (f := fun x => { x with chunk := none }) fun _ => rfl).trans hoff, hbit⟩

/-- Cutting a run delists no pair. -/
theorem cutRun_listed {d : Dev} (h : (tget d.host.pairs (pairKey p q)).isSome = true) : (tget (cutRun d p q).host.pairs (pairKey p q)).isSome = true := by
  rcases cutRun_cases d p q with hsame | ⟨l, hcut⟩
  · rwa [hsame]
  · simp [hcut, modPair, tget_tput_self]

theorem cutRun_world : (cutRun d p q).world = d.world := by
  rcases cutRun_cases d p q with h | ⟨l, h⟩ <;> simp [h]

theorem cutRun_q : (cutRun d p q).q = d.q := by
  rcases cutRun_cases d p q with h | ⟨l, h⟩ <;> simp [h]

/-- Stopping a pair changes registers and pair records only. -/
theorem stopPair_frame {β : Type} (g : Dev → β) (hclear : ∀ d, g (clearEnable d p q) = g d) (hpair : ∀ d f, g (modPair d p q f) = g d) :
    g (stopPair d p q) = g d := by
  rw [stopPair_eq, shutPair_frame g hclear fun d => hpair d _]

theorem stopPair_stops : pairStopped p q (stopPair d p q) := shutPair_stops fun _ => rfl

theorem stopPair_keeps {i j : Nat} {d : Dev} (h : pairStopped i j d) : pairStopped i j (stopPair d p q) := shutPair_keeps (fun _ => rfl) h

theorem killPair_stops : pairStopped p q (killPair d p q) := shutPair_stops fun _ => rfl

theorem killPair_keeps {i j : Nat} {d : Dev} (h : pairStopped i j d) : pairStopped i j (killPair d p q) :=
  shutPair_keeps (fun _ => rfl) (cutRun_keeps p q h)

@[simp] theorem withdraw_ldg (fn : Nat) : (withdraw d fn).ldg = d.ldg := rfl
@[simp] theorem withdraw_world (fn : Nat) : (withdraw d fn).world = d.world := rfl
@[simp] theorem withdraw_q (fn : Nat) : (withdraw d fn).q = d.q := rfl
@[simp] theorem withdraw_pba (fn : Nat) : (withdraw d fn).host.pba = d.host.pba.filter (fun k => k / 64 != fn) := rfl

/-- Withdrawing interrupts starts no pair. -/
theorem withdraw_keeps {i j : Nat} (fn : Nat) {d : Dev} (h : pairStopped i j d) : pairStopped i j (withdraw d fn) := h

theorem killPair_world : (killPair d p q).world = d.world :=
  (shutPair_frame Dev.world (fun _ => rfl) fun _ => rfl).trans (cutRun_world d p q)

theorem killPair_q : (killPair d p q).q = d.q :=
  (shutPair_frame Dev.q (fun _ => rfl) fun _ => rfl).trans (cutRun_q d p q)

end

/-! ### Interrupts -/

section
variable {d : Dev} {fn vec : Nat}

@[simp] theorem irq_regs : (irq d fn vec).regs = d.regs := by
  unfold irq
  extract_lets
  split <;> rfl

/-- An interrupt whose vector is not masked is sent (R359). -/
theorem irq_unmasked (h : d.host.masked.contains (fn * 64 + vec) = false) : irq d fn vec = send d (.irq fn vec) := by
  simp only [irq, h, Bool.false_eq_true, if_false]

/-- Signalling a CQ ends the count towards the next signal (R359). -/
theorem cqSignal_resets (p q : Nat) : (pairOf (cqSignal d p q) p q).coal = 0 ∧ (pairOf (cqSignal d p q) p q).timer = false := by
  simp [cqSignal]

theorem cqSignal_regs (p q : Nat) : (cqSignal d p q).regs = d.regs := by
  unfold cqSignal
  split <;> simp

/-- A CQ whose vector is not masked sends its interrupt where interrupts are enabled (R359). -/
theorem cqSignal_out {p q : Nat} (h : d.host.masked.contains (p * 64 + bits (rget d (pageReg p q 0)) 14 9) = false) :
    (cqSignal d p q).out = d.out ++ if bitAt (rget d (pageReg p q 0)) 15 then [.irq p (bits (rget d (pageReg p q 0)) 14 9)] else [] := by
  unfold cqSignal
  split
  · simp [irq_unmasked h, send]
  · simp

/-- A coalescing timer that runs out (R359). -/
theorem exec_cqCoalTimeout_signals {s : State} {p q : Nat} (h : (pairOf s.dev p q).timer = true) :
    exec (.cqCoalTimeout p q) s = .next (s.withDev (cqSignal s.dev p q)) := by
  rw [exec_cqCoalTimeout, execCqCoalTimeout, onDev_withDev, fxCoalTimeout, if_pos h]

/-- A vector that was pending when its mask clears is sent (R359). -/
theorem exec_msixUnmask_pending {s : State} (h : s.dev.host.pba.contains (fn * 64 + vec) = true) : exec (.msixUnmask fn vec) s =
    .next (s.withDev (send { s.dev with host := { s.dev.host with
      masked := s.dev.host.masked.filter (· != fn * 64 + vec), pba := s.dev.host.pba.filter (· != fn * 64 + vec) } } (.irq fn vec))) := by
  simp only [exec_msixUnmask, execMsixUnmask, onDev_withDev, fxUnmask, h, if_true]

/-- A vector that was not pending is only unmasked. -/
theorem exec_msixUnmask_none {s : State} (h : s.dev.host.pba.contains (fn * 64 + vec) = false) : exec (.msixUnmask fn vec) s =
    .next (s.withDev { s.dev with host := { s.dev.host with masked := s.dev.host.masked.filter (· != fn * 64 + vec) } }) := by
  simp only [exec_msixUnmask, execMsixUnmask, onDev_withDev, fxUnmask, h, Bool.false_eq_true, if_false]

end

/-! ### Errors, resets and the link -/

section
variable {d : Dev} {p q : Nat}

theorem pairOf_raise (src die origin detail : Nat) : pairOf (raise d src die origin detail) p q = pairOf d p q := rfl

/-- A PCIe error on a listed pair stops it, on a fetch at once, and raises HIF_DMA (R61, R357). -/
theorem fxDmaError_raises (w : Bool) (h : (tget d.host.pairs (pairKey p q)).isSome = true) : fxDmaError d p q w =
    raise (modPair ((if w then stopPair else killPair) (stick d 0x700008 (if w then 4 else 2)) p q) p q fun x => { x with dmaErr := true }) 0x01C 0 0xC0
      (pairKey p q) := by
  rw [fxDmaError, if_neg (by rw [← Option.not_isSome, h]; decide)]
  cases w <;> rfl

/-- What stopping or killing a listed pair at an error leaves: no pair that runs and no reply that waits; no ledger touched by a stop, no run of chunks after
a kill (R61, R357). -/
theorem shutPair_error (w : Bool) (h : (tget d.host.pairs (pairKey p q)).isSome = true) :
    let e := (if w then stopPair else killPair) d p q
    pairStopped p q e ∧ (pairOf e p q).waiting = [] ∧ (w = true → e.ldg = d.ldg) ∧ (w = false → (pairOf e p q).chunk = none) := by
  cases w with
  | true =>
    refine ⟨stopPair_stops d p q, ?_, fun _ => stopPair_frame d p q Dev.ldg (fun _ => rfl) fun _ _ => rfl, nofun⟩
    simp [stopPair_eq, shutPair_listed h, stoppedRec]
  | false =>
    have hpair : pairOf (killPair d p q) p q = killedRec (pairOf (cutRun d p q) p q) := by
      rw [killPair_eq, shutPair_listed (cutRun_listed p q h), pairOf_modPair_self]
      rfl
    exact ⟨killPair_stops d p q, congrArg PairRec.waiting hpair, nofun, fun _ => congrArg PairRec.chunk hpair⟩

/-- A PCIe error on a listed pair (R61, R357). -/
theorem exec_hifDmaError_stops {s : State} (w : Bool) (h : (tget s.dev.host.pairs (pairKey p q)).isSome = true) :
    ∃ d, exec (.hifDmaError p q w) s = .next (s.withDev d) ∧
      d = raise (modPair ((if w then stopPair else killPair) (stick s.dev 0x700008 (if w then 4 else 2)) p q) p q fun x => { x with dmaErr := true })
        0x01C 0 0xC0 (pairKey p q) ∧
      (pairOf d p q).enabled = false ∧ (pairOf d p q).waiting = [] ∧ (pairOf d p q).dmaErr = true ∧ bitAt (rget d (pageReg p q 0)) 0 = false ∧
      (w = true → d.ldg = s.dev.ldg) ∧ (w = false → (pairOf d p q).chunk = none) := by
  obtain ⟨⟨hoff, hbit⟩, hwaiting, hldg, hchunk⟩ := shutPair_error (d := stick s.dev 0x700008 (if w then 4 else 2)) w h
  refine ⟨_, ?_, rfl, ?_, ?_, ?_, hbit, hldg, fun hw => ?_⟩
  · rw [exec_hifDmaError, execHifDmaError, onDev_withDev, fxDmaError_raises w h]
  · simpa [pairOf_raise] using hoff
  · simpa [pairOf_raise] using hwaiting
  · simp [pairOf_raise]
  · simpa [pairOf_raise] using hchunk hw

/-- An FLR of a VF whose polder exists places a POLDER_RESET entry (R386). -/
theorem exec_flrVf_places {s : State} {t : Nat} (hlo : 1 ≤ p) (hhi : p ≤ 16) (hpolder : (polder s.dev p).state ≠ 0) :
    let d := atTime s.dev t
    let packet := leBytes 2 0xA02 ++ zeros 18 ++ fit 36 (leBytes 4 p) ++ leBytes 4 4
    exec (.flrVf p t) s = .next (s.withDev (placeEntry { d with ldg := { d.ldg with intern := d.ldg.intern + 1 } } (entryTurn d t)
      { (default : Entry) with kind := 7, internal := true, source := srcHost p 0, ctr := d.ldg.intern + 1, ts := t / 4 * 4, polder := p,
                               payload := packet ++ leBytes 4 (crc32c packet) })) := by
  have hvf : ¬ (p = 0 || p > 16 || (polder s.dev p).state = 0) = true := by simp [hpolder, Nat.ne_of_gt hlo, Nat.not_lt.2 hhi]
  intro d packet
  rw [exec_flrVf, execFlrVf, onDev_withDev, fxFlrVf, if_neg hvf]
  rfl

/-- The pairs of the PF stopped, which an FLR of the PF does to them (R350). -/
def stopPfPairs (d : Dev) : Dev := (List.range 8).foldl (fun d j => stopPair d 0 j) d

theorem stopPfPairs_stops {j : Nat} (hj : j < 8) (d : Dev) : pairStopped 0 j (stopPfPairs d) :=
  foldl_establishes (f := fun d j => stopPair d 0 j) (List.mem_range.2 hj) (fun d => stopPair_stops d 0 j) (fun _ i h => stopPair_keeps 0 i h) d

/-- Stopping the pairs of the PF changes registers and pair records only. -/
theorem stopPfPairs_frame {β : Type} (g : Dev → β) (hclear : ∀ d j, g (clearEnable d 0 j) = g d) (hpair : ∀ d j f, g (modPair d 0 j f) = g d) (d : Dev) :
    g (stopPfPairs d) = g d :=
  foldl_leaves g (f := fun d j => stopPair d 0 j) (fun d j => stopPair_frame d 0 j g (fun d => hclear d j) fun d => hpair d j) _ d

theorem fxFlrPf_eq : fxFlrPf d = withdraw (stopPfPairs d) 0 := rfl

/-- An FLR of the PF stops its pairs and touches nothing else of what is in flight (R61, R350). -/
theorem exec_flrPf_stops (s : State) : ∃ d, exec .flrPf s = .next (s.withDev d) ∧ d.ldg = s.dev.ldg ∧ d.q = s.dev.q ∧ d.world = s.dev.world ∧
    d.host.pba = s.dev.host.pba.filter (fun k => k / 64 != 0) ∧
    ∀ j, j < 8 → (pairOf d 0 j).enabled = false ∧ bitAt (rget d (pageReg 0 j 0)) 0 = false := by
  refine ⟨withdraw (stopPfPairs s.dev) 0, ?_, ?_, ?_, ?_, ?_, fun j hj => withdraw_keeps 0 (stopPfPairs_stops hj s.dev)⟩
  · rw [exec_flrPf, execFlrPf, onDev_withDev, fxFlrPf_eq]
  · rw [withdraw_ldg, stopPfPairs_frame Dev.ldg (fun _ _ => rfl) fun _ _ _ => rfl]
  · rw [withdraw_q, stopPfPairs_frame Dev.q (fun _ _ => rfl) fun _ _ _ => rfl]
  · rw [withdraw_world, stopPfPairs_frame Dev.world (fun _ _ => rfl) fun _ _ _ => rfl]
  · rw [withdraw_pba, stopPfPairs_frame (fun d => d.host.pba) (fun _ _ => rfl) fun _ _ _ => rfl]

/-- Killing a polder's pairs stops each of them. -/
theorem killPairs_stops {j : Nat} (hj : j < 8) (d : Dev) : pairStopped p j (killPairs d p) :=
  foldl_establishes (f := fun d j => killPair d p j) (List.mem_range.2 hj) (fun d => killPair_stops d p j) (fun _ i h => killPair_keeps p i h) d

/-- Killing a polder's pairs starts none. -/
theorem killPairs_keeps {i j : Nat} (h : pairStopped i j d) : pairStopped i j (killPairs d p) :=
  List.foldlRecOn (motive := pairStopped i j) _ (fun d k => killPair d p k) h fun _ h k _ => killPair_keeps p k h

theorem killPairs_world (d : Dev) (p : Nat) : (killPairs d p).world = d.world :=
  foldl_leaves Dev.world (f := fun d j => killPair d p j) (fun d j => killPair_world d p j) _ d

theorem killPairs_q (d : Dev) (p : Nat) : (killPairs d p).q = d.q :=
  foldl_leaves Dev.q (f := fun d j => killPair d p j) (fun d j => killPair_q d p j) _ d

/-- The pairs of every function killed and its interrupts withdrawn. -/
def killAll (d : Dev) : Dev := (List.range 17).foldl (fun d p => withdraw (killPairs d p) p) d

/-- HIF_CTL.fetch_en and the link state cleared. -/
def linkDown (d : Dev) : Dev := rset (rfield { d with host := { d.host with hostUp := false } } 0x700000 0 0 0) 0x700004 0

theorem fxHostLinkReset_eq : fxHostLinkReset d = linkDown (killAll d) := rfl

theorem killAll_stops {f j : Nat} (hf : f < 17) (hj : j < 8) (d : Dev) : pairStopped f j (killAll d) :=
  foldl_establishes (f := fun d p => withdraw (killPairs d p) p) (List.mem_range.2 hf) (fun d => withdraw_keeps f (killPairs_stops hj d))
    (fun _ p h => withdraw_keeps p (killPairs_keeps h)) d

theorem killAll_world (d : Dev) : (killAll d).world = d.world :=
  foldl_leaves Dev.world (f := fun d p => withdraw (killPairs d p) p) (fun d p => (withdraw_world _ p).trans (killPairs_world d p)) _ d

theorem killAll_q (d : Dev) : (killAll d).q = d.q :=
  foldl_leaves Dev.q (f := fun d p => withdraw (killPairs d p) p) (fun d p => (withdraw_q _ p).trans (killPairs_q d p)) _ d

theorem pairOf_linkDown : pairOf (linkDown d) p q = pairOf d p q := rfl

@[simp] theorem linkDown_world : (linkDown d).world = d.world := rfl
@[simp] theorem linkDown_q : (linkDown d).q = d.q := rfl

theorem linkDown_fetch (d : Dev) : bitAt (rget (linkDown d) 0x700000) 0 = false := by
  rw [linkDown, rget_rset_ne _ _ _ _ (by decide)]
  exact bit0_cleared _ _

theorem linkDown_stat (d : Dev) : rget (linkDown d) 0x700004 = 0 := rget_rset_self _ _ _

/-- A reset of the host link (R554). -/
theorem exec_hostLinkReset_kills (s : State) : ∃ d, exec .hostLinkReset s = .next (s.withDev d) ∧
    (∀ f j, f < 17 → j < 8 → (pairOf d f j).enabled = false) ∧ d.host.hostUp = false ∧ bitAt (rget d 0x700000) 0 = false ∧ rget d 0x700004 = 0 ∧
    d.world = s.dev.world ∧ d.q = s.dev.q := by
  refine ⟨linkDown (killAll s.dev), ?_, fun f j hf hj => ?_, rfl, linkDown_fetch _, linkDown_stat _, ?_, ?_⟩
  · rw [exec_hostLinkReset, execHostLinkReset, onDev_withDev, fxHostLinkReset_eq]
  · rw [pairOf_linkDown]
    exact (killAll_stops hf hj s.dev).1
  · rw [linkDown_world, killAll_world]
  · rw [linkDown_q, killAll_q]

/-- A link that comes up shows its speed, lanes and VFs in HIF_STAT alone (R347). -/
theorem exec_pcieLinkUp_shows {s : State} {speed width vfs : Nat} (hspeed : speed < 16) (hwidth : width < 32) (hvfs : vfs < 32) :
    ∃ d, exec (.pcieLinkUp speed width vfs) s = .next (s.withDev d) ∧ d.host.hostUp = true ∧ rget d 0x700004 = speed + 16 * width + 512 * vfs + 16384 ∧
      ∀ o, o ≠ 0x700004 → rget d o = rget s.dev o := by
  refine ⟨fxLinkUp s.dev speed width vfs, rfl, rfl, ?_, fun o ho => rget_rset_ne _ _ _ _ ho⟩
  rw [fxLinkUp, rget_rset_self]
  omega

end

/-- Settles O17: each event at the host interface. -/
theorem hostEventsRun : Obligations.HostEventsRun := by
  intro p q t s
  refine ⟨fun htimer => ?_, fun fn vec => ⟨fun hpending => ?_, fun hnone => ?_⟩, fun w hlisted => exec_hifDmaError_stops w hlisted,
    fun hlo hhi hpolder => exec_flrVf_places hlo hhi hpolder, exec_flrPf_stops s, exec_hostLinkReset_kills s,
    fun speed width vfs hspeed hwidth hvfs => exec_pcieLinkUp_shows hspeed hwidth hvfs⟩
  · exact ⟨_, exec_cqCoalTimeout_signals htimer, rfl, (cqSignal_resets p q).1, (cqSignal_resets p q).2, cqSignal_regs p q, cqSignal_out⟩
  · refine ⟨_, exec_msixUnmask_pending hpending, rfl, rfl, rfl, rfl⟩
  · exact exec_msixUnmask_none hnone

end Sys2Proof.Machine

/-! PROOFS. Commands of the host on streams and agents (O7) and on maps (O6). -/
namespace Sys2Proof.Machine

/-- A 4-byte block of a handle in range and zeros passes its range test (R369). -/
theorem handleBlock_passes {b : Bytes} {k : Nat} (hlen : b.length = 4) (hzero : allZero (slice b 2 2) = true) (hmax : fld b 0 2 ≤ k) :
    ¬ (b.length ≠ 4 || !allZero (slice b 2 2) || fld b 0 2 > k) = true := by
  simp [hlen, hzero, hmax]

/-! ### Streams and agents -/

section
variable {d : Dev} {c : Cmd}

/-- A STREAM_OPEN that passes its tests takes the lowest free number (R122). -/
theorem fxStreamOpen_opens (h : firstFail (streamOpenTests d c) = none) :
    let n := (lowestFree d.world.streams 128).getD 0
    fxStreamOpen d c = ok { d with world := { d.world with streams := tput d.world.streams n (streamRec d c) } } c n := by
  unfold fxStreamOpen
  rw [h]

/-- A STREAM_CLOSE by the owner of an open stream that no binding names (R123, R444). -/
theorem fxStreamClose_closes {x : StreamRec} (hlen : c.block.length = 4) (hzero : allZero (slice c.block 2 2) = true) (hmax : fld c.block 0 2 ≤ 127)
    (hget : tget d.world.streams (fld c.block 0 2) = some x) (hown : x.polder = c.polder) (hopen : x.closeTurn = none)
    (hfree : streamHeld d (fld c.block 0 2) = false) :
    fxStreamClose d c = ok (endEstimate (modStream d (fld c.block 0 2) fun x => { x with closeTurn := some d.time.turn }) (1024 + fld c.block 0 2) 8) c := by
  have hstands : ¬ (x.closeTurn.isSome || streamHeld d (fld c.block 0 2)) = true := by simp [hopen, hfree]
  simp only [fxStreamClose, if_neg (handleBlock_passes hlen hzero hmax), hget]
  rw [if_neg (not_not.2 hown), if_neg hstands]

/-- An AGENT_BIND of no agent that passes its tests makes one with the lowest free number (R145, R147). -/
theorem fxAgentBind_new (h : firstFail (agentBindTests d c) = none) (hnew : fld c.block 0 2 = 0xffff) :
    let n := (lowestFree d.world.agents 4096).getD 0
    let a : AgentRec := { (default : AgentRec) with
      polder := c.polder, bind := bindOf c.block, tile := bestTile d c.polder, charge := bindCharge d c, chargeNext := bindCharge d c, fresh := true }
    fxAgentBind d c = ok { d with world := { d.world with agents := tput d.world.agents n a } } c n := by
  unfold fxAgentBind
  rw [h]
  exact if_pos hnew

/-- An AGENT_BIND of a bound agent that passes its tests stages the new binding (R147). -/
theorem fxAgentBind_bound (h : firstFail (agentBindTests d c) = none) (hold : fld c.block 0 2 ≠ 0xffff) :
    fxAgentBind d c = ok (modAgent d (fld c.block 0 2) fun a => { a with next := some (bindOf c.block), chargeNext := bindCharge d c }) c (fld c.block 0 2) := by
  unfold fxAgentBind
  rw [h]
  exact if_neg hold

/-- An unbind by the owner of an agent that does not leave yet (R148). -/
theorem fxAgentUnbind_unbinds {a : AgentRec} (hlen : c.block.length = 64) (hmax : fld c.block 0 2 ≤ 4095) (hunbind : fld c.block 2 1 = 1)
    (hget : tget d.world.agents (fld c.block 0 2) = some a) (hown : a.polder = c.polder) (hstays : a.leaving = false) :
    fxAgentUnbind d c = ok (unbindAgent d (fld c.block 0 2)) c (fld c.block 0 2) := by
  have hpasses : ¬ (c.block.length ≠ 64 || fld c.block 0 2 > 4095 || fld c.block 2 1 > 1) = true := by simp [hlen, hmax, hunbind]
  simp only [fxAgentUnbind, if_neg hpasses, hget]
  rw [if_neg (not_not.2 hown), hstays]
  rfl

/-- The unbind field of AGENT_BIND at 0 binds. -/
theorem fxBind_binds (h : fld c.block 2 1 = 0) : fxBind d c = fxAgentBind d c := by
  simp [fxBind, h, bitAt]

/-- The unbind field of AGENT_BIND at 1 unbinds (R148). -/
theorem fxBind_unbinds (h : fld c.block 2 1 = 1) : fxBind d c = fxAgentUnbind d c := by
  simp [fxBind, h, bitAt]

end

/-- Settles O7: each command on a stream or an agent that passes its tests. -/
theorem streamAndAgentCommandsRun : Obligations.StreamAndAgentCommandsRun := by
  intro c s
  refine ⟨fun h => ?_, fun x hlen hzero hmax hget hown hopen hfree => ?_, fun hbind h hnew => ?_, fun hbind h hold => ?_,
    fun a hlen hmax hunbind hget hown hstays => ⟨?_, ?_⟩⟩
  · rw [exec_streamOpen, execStreamOpen, onDev_withDev, fxStreamOpen_opens h]
  · rw [exec_streamClose, execStreamClose, onDev_withDev, fxStreamClose_closes hlen hzero hmax hget hown hopen hfree]
  · rw [exec_agentBind, execAgentBind, onDev_withDev, fxBind_binds hbind, fxAgentBind_new h hnew]
  · rw [exec_agentBind, execAgentBind, onDev_withDev, fxBind_binds hbind, fxAgentBind_bound h hold]
  · rw [exec_agentUnbind, execAgentUnbind, onDev_withDev, fxAgentUnbind_unbinds hlen hmax hunbind hget hown hstays]
  · rw [exec_agentBind, execAgentBind, onDev_withDev, fxBind_unbinds hunbind, exec_agentUnbind, execAgentUnbind, onDev_withDev]

/-! ### Maps -/

section
variable {d : Dev} {c : Cmd} {m : MapRec}

/-- A MAP_CREATE that passes its tests takes the lowest free handle (R92). -/
theorem fxMapCreate_creates (h : firstFail (mapCreateTests d c) = none) :
    let n := (lowestFree d.world.maps 64).getD 0
    fxMapCreate d c = ok { d with world := { d.world with maps := tput d.world.maps n (mapCreateRec d c) } } c n := by
  unfold fxMapCreate
  rw [h]

/-- A map that is not removed and is no mirror's local side takes the changes of its owner (R109, R520). -/
theorem takesChanges {h : Nat} (hlive : m.removed = false) (hlocal : isMirrorLocal d h = false) : ¬ (m.removed || isMirrorLocal d h) = true := by
  simp [hlive, hlocal]

/-- A MAP_UPDATE whose records apply and whose staged set has room (R102, R108 to R110). -/
theorem fxMapUpdate_stages {rs : List (Nat × Nat × Bytes)} {st : Staged} (hrecs : updRecs ((c.block.drop 8).length + 1) (c.block.drop 8) = some rs)
    (hlen : 8 ≤ c.block.length) (hzero : allZero (slice c.block 3 5) = true) (hget : tget d.world.maps (fld c.block 0 2) = some m)
    (hlive : m.removed = false) (hlocal : isMirrorLocal d (fld c.block 0 2) = false) (hown : m.owner = c.polder) (hmax : fld c.block 0 2 ≤ 63)
    (hrange : rs.all (recInRange (some m)) = true) (hstage : stageAll m (stagedOf m) rs = .ok st) (hobjs : st.objs.length ≤ 1048576)
    (htris : total (st.objs.map fun o => o.2.tris.length) ≤ 16777216) (hbytes : st.bytes ≤ 67108864)
    (hstore : storeFull d (st.bytes - m.staged.bytes) = false) (hquota : quotaFull d m.owner (st.bytes - m.staged.bytes) = false) :
    fxMapUpdate d c = ok (modMap d (fld c.block 0 2) fun m => { m with
      staged := st, build := if rs.any (fun r => r.1 ≤ 3) then .start (d.time.turn + 1) else m.build }) c rs.length := by
  have hblock : ¬ (c.block.length < 8 || !allZero (slice c.block 3 5) || fld c.block 0 2 > 63 || !rs.all (recInRange (some m))) = true := by
    simp only [hzero, hrange, Bool.not_true, Bool.or_false, Bool.or_eq_true, decide_eq_true_eq]
    omega
  have hcount : ¬ (st.objs.length > 1048576 || total (st.objs.map fun o => o.2.tris.length) > 16777216) = true := by
    simp only [Bool.or_eq_true, decide_eq_true_eq]
    omega
  simp only [fxMapUpdate, hrecs, hget]
  rw [if_neg hblock, if_neg (takesChanges hlive hlocal), if_neg (not_not.2 hown), hstage]
  dsimp only
  rw [if_neg hcount, if_neg (Nat.not_lt.2 hbytes), hstore, hquota]
  rfl

/-- What MAP_COMMIT asks of its block and its map (R110). -/
structure CommitPasses (d : Dev) (c : Cmd) (m : MapRec) : Prop where
  length : c.block.length = 4
  zeros : allZero (slice c.block 2 2) = true
  range : fld c.block 0 2 ≤ 63
  map : tget d.world.maps (fld c.block 0 2) = some m
  live : m.removed = false
  notMirror : isMirrorLocal d (fld c.block 0 2) = false
  owner : m.owner = c.polder

/-- A MAP_COMMIT of voxels alone is an event of the next formation (R110, R114). -/
theorem fxMapCommit_voxels (h : CommitPasses d c m) (hvoxels : m.staged.statics = false) :
    fxMapCommit d c = ok (modMap d (fld c.block 0 2) fun x => { x with
      events := x.events ++ [(2, .commit m.staged.vox none)], staged := default }) c (nextVer m) := by
  simp only [fxMapCommit, if_neg (handleBlock_passes h.length h.zeros h.range), h.map]
  rw [if_neg (takesChanges h.live h.notMirror), if_neg (not_not.2 h.owner), hvoxels]

/-- A MAP_COMMIT of static geometry takes the tree of its finished build with it (R102, R110, R111). -/
theorem fxMapCommit_statics {prims : List Prim} {bvh : List BvhNode} (h : CommitPasses d c m) (hstatics : m.staged.statics = true)
    (hready : m.build = .ready prims bvh) :
    fxMapCommit d c = ok (modMap d (fld c.block 0 2) fun x => { x with
      events := x.events ++ [(2, .commit m.staged.vox (some (m.staged.touched, m.staged.objs, prims, bvh)))], staged := default, build := .idle })
      c (nextVer m) := by
  simp only [fxMapCommit, if_neg (handleBlock_passes h.length h.zeros h.range), h.map]
  rw [if_neg (takesChanges h.live h.notMirror), if_neg (not_not.2 h.owner), hstatics, hready]

/-- A MAP_GRANT or its revoke by the map's owner or the physical function (R118). -/
theorem fxMapGrant_changes (revoke : Bool) (hlen : c.block.length = 4) (hmap : fld c.block 0 1 ≤ 63) (hpolder : fld c.block 1 1 ≤ 16)
    (hform : fld c.block 2 1 ≤ 1) (hzero : fld c.block 3 1 = 0) (hget : tget d.world.maps (fld c.block 0 1) = some m) (hlive : m.removed = false)
    (hmay : m.owner = c.polder ∨ c.polder = 0) :
    fxMapGrant d c revoke = ok (modMap d (fld c.block 0 1) fun x => { x with
      grantNext := if revoke then x.grantNext.filter (· != fld c.block 1 1) else x.grantNext.filter (· != fld c.block 1 1) ++ [fld c.block 1 1] }) c := by
  have hblock : ¬ (c.block.length ≠ 4 || fld c.block 0 1 > 63 || fld c.block 1 1 > 16 || fld c.block 2 1 > 1 || fld c.block 3 1 ≠ 0) = true := by
    simp [hlen, hmap, hpolder, hform, hzero]
  have howner : ¬ (m.owner ≠ c.polder ∧ c.polder ≠ 0) := fun h => hmay.elim h.1 h.2
  simp only [fxMapGrant, if_neg hblock, hget, hlive, Bool.false_eq_true, if_false, Bool.and_eq_true, decide_eq_true_eq, if_neg howner]

/-- A MAP_DESTROY by the owner of a map that nothing holds (R119). -/
theorem fxMapDestroy_marks (hlen : c.block.length = 4) (hzero : allZero (slice c.block 2 2) = true) (hmax : fld c.block 0 2 ≤ 63)
    (hget : tget d.world.maps (fld c.block 0 2) = some m) (hlive : m.removed = false) (hown : m.owner = c.polder)
    (hfree : mapHeld d (fld c.block 0 2) m = false) :
    fxMapDestroy d c = ok (modMap d (fld c.block 0 2) fun m => { m with removed := true }) c := by
  simp only [fxMapDestroy, if_neg (handleBlock_passes hlen hzero hmax), hget, hlive, hfree, Bool.false_eq_true, if_false]
  rw [if_neg (not_not.2 hown)]

end

/-- Settles O6: each command on a map that passes its tests. -/
theorem mapCommandsRun : Obligations.MapCommandsRun := by
  intro c s m
  refine ⟨fun h => ?_, fun rs st hrecs hlen hzero hget hlive hlocal hown hmax hrange hstage hobjs htris hbytes hstore hquota => ?_,
    fun hlen hzero hmax hget hlive hlocal hown => ?_, fun hlen hmap hpolder hform hzero hget hlive hmay => ⟨fun hgrant => ?_, ?_⟩,
    fun hlen hzero hmax hget hlive hown hfree => ?_⟩
  · rw [exec_mapCreate, execMapCreate, onDev_withDev, fxMapCreate_creates h]
  · rw [exec_mapUpdate, execMapUpdate, onDev_withDev,
      fxMapUpdate_stages hrecs hlen hzero hget hlive hlocal hown hmax hrange hstage hobjs htris hbytes hstore hquota]
  · have hcommit : CommitPasses s.dev c m := ⟨hlen, hzero, hmax, hget, hlive, hlocal, hown⟩
    rw [exec_mapCommit, execMapCommit, onDev_withDev]
    refine ⟨fun hvoxels => ?_, fun prims bvh hstatics hready => ?_⟩
    · rw [fxMapCommit_voxels hcommit hvoxels]
    · rw [fxMapCommit_statics hcommit hstatics hready]
  · have hbit : bitAt (fld c.block 2 1) 0 = false := by rw [hgrant]; rfl
    rw [exec_mapGrant, execMapGrant, onDev_withDev, hbit, fxMapGrant_changes _ hlen hmap hpolder hform hzero hget hlive hmay]
    rfl
  · rw [exec_mapGrantRevoke, execMapGrantRevoke, onDev_withDev, fxMapGrant_changes _ hlen hmap hpolder hform hzero hget hlive hmay]
    rfl
  · rw [exec_mapDestroy, execMapDestroy, onDev_withDev, fxMapDestroy_marks hlen hzero hmax hget hlive hown hfree]

end Sys2Proof.Machine

/-! PROOFS. Work on maps (O20): predictor passes that start, are skipped, join a formation or are dropped, and builds. -/
namespace Sys2Proof.Machine

/-- A record that is changed reads as it was changed. -/
theorem tget_tmod_self {α : Type} {t : Tab α} {k : Nat} {v : α} (h : tget t k = some v) (f : α → α) : tget (tmod t k f) k = some (f v) := by
  rw [tmod, h]
  exact tget_tput_self t k (f v)

/-- A change of one record leaves every other. -/
theorem tget_tmod_ne {α : Type} (t : Tab α) {k j : Nat} (f : α → α) (h : j ≠ k) : tget (tmod t k f) j = tget t j := by
  unfold tmod
  split
  · exact tget_tput_ne t k j _ h
  · rfl

/-- Work entered at a core leaves every part of the device that register writes leave (R184, R217). -/
theorem addWork_leaves {β : Type} (g : Dev → β) (h : ∀ d o v, g (rset d o v) = g d) (d : Dev) (die core : Nat) (w : Work) :
    g (addWork d die core w) = g d := by
  refine foldl_leaves g (fun d x => ?_) w d
  cases x.2.2.1 with
  | add =>
    dsimp only
    unfold engCnt cntWrap
    split_ifs
    · rfl
    · rfl
    · exact h _ _ _
  | pair =>
    dsimp only
    unfold engCnt64 cnt64
    split_ifs
    · rfl
    · rfl
    · exact (h _ _ _).trans (h _ _ _)
  | last =>
    dsimp only
    unfold engSet
    split_ifs
    · rfl
    · exact h _ _ _

/-! ### Predictor passes -/

section
variable {d : Dev} {h k : Nat} {m : MapRec} {p : PredPass}

/-- A pass that is due and not in flight starts with its end turn and uses the map's frames up; the other maps, the engines and the queries stand (R112, R214,
R216). -/
theorem fxPassStart_starts (hget : tget d.world.maps h = some m) (hpass : m.pass = some p) (hmodel : m.model = some k) (hrun : running d = true)
    (hdue : passDue d m = true) (hidle : p.ends = 0) :
    ∃ p', (tget (fxPassStart d h).world.maps h).bind (·.pass) = some p' ∧ p'.slot = p.slot ∧ p'.start = d.time.turn ∧
      p'.ends = d.time.turn + max 1 (predSlot (actImg d) p.slot).lp ∧ (fxPassStart d h).world.frames = tdel d.world.frames h ∧
      (fxPassStart d h).eng = d.eng ∧ (fxPassStart d h).q = d.q ∧ ∀ j, j ≠ h → tget (fxPassStart d h).world.maps j = tget d.world.maps j := by
  have hgoes : ¬ (!running d || !passDue d m || (p.ends ≠ 0 && p.start = d.time.turn)) = true := by simp [hrun, hdue, hidle]
  generalize hstart : fxPassStart d h = started
  unfold fxPassStart at hstart
  rw [hget] at hstart
  dsimp -zeta only at hstart
  rw [hpass, hmodel] at hstart
  dsimp -zeta only at hstart
  rw [if_neg hgoes, if_neg (not_not.2 hidle)] at hstart
  extract_lets raw sl boxes region hist outs raised pass counted changed at hstart
  have hraised : raised.world = d.world ∧ raised.eng = d.eng ∧ raised.q = d.q ∧ raised.time = d.time := by
    unfold raised
    split_ifs <;> exact ⟨rfl, rfl, rfl, rfl⟩
  obtain ⟨hworld, heng, hq, htime⟩ := hraised
  have hcounted : ∀ {β : Type} (g : Dev → β), (∀ d o v, g (rset d o v) = g d) → g counted = g raised := fun g hg =>
    foldl_leaves g (fun d x => addWork_leaves g hg d _ _ _) _ _
  replace hworld : counted.world = d.world := (hcounted Dev.world rset_world).trans hworld
  replace heng : counted.eng = d.eng := (hcounted Dev.eng rset_eng).trans heng
  replace hq : counted.q = d.q := (hcounted Dev.q rset_q).trans hq
  clear_value counted
  have hmaps : started.world.maps = tmod d.world.maps h fun m => { m with hist := hist, pass := some pass } := by
    rw [← hstart]
    exact congrArg (fun w : World => tmod w.maps h fun m => { m with hist := hist, pass := some pass }) hworld
  refine ⟨pass, ?_, rfl, ?_, ?_, ?_, ?_, ?_, fun j hj => ?_⟩
  · rw [hmaps, tget_tmod_self hget, Option.bind_some]
  · exact congrArg (·.turn) htime
  · exact congrArg (fun x => x.turn + max 1 sl.lp) htime
  · rw [← hstart]
    exact congrArg (fun w => tdel w.frames h) hworld
  · rw [← hstart]
    exact heng
  · rw [← hstart]
    exact hq
  · rw [hmaps, tget_tmod_ne _ _ hj]

/-- A start that finds the pass of an earlier turn in flight is skipped and counted (R216). -/
theorem fxPassStart_skips (hget : tget d.world.maps h = some m) (hpass : m.pass = some p) (hmodel : m.model = some k) (hrun : running d = true)
    (hdue : passDue d m = true) (hflight : p.ends ≠ 0) (hearlier : p.start ≠ d.time.turn) :
    fxPassStart d h = modMap d h fun m => { m with predSkip := satInc m.predSkip 1 } := by
  have hgoes : ¬ (!running d || !passDue d m || (p.ends ≠ 0 && p.start = d.time.turn)) = true := by simp [hrun, hdue, hearlier]
  unfold fxPassStart
  rw [hget]
  dsimp -zeta only
  rw [hpass, hmodel]
  dsimp -zeta only
  rw [if_neg hgoes, if_pos hflight]

/-- A pass in flight that is at its end turn or past it does not wait (R215). -/
theorem passEnd_reached (hends : p.ends ≠ 0) (hover : p.ends ≤ d.time.turn) : ¬ (p.ends = 0 || d.time.turn < p.ends) = true := by
  simp [hends, hover]

/-- A pass without a fault and with all its tiles done joins the formation, with the blind fills that follow it (R128, R215). -/
theorem fxPassEnd_joins (hget : tget d.world.maps h = some m) (hpass : m.pass = some p) (hends : p.ends ≠ 0) (hover : p.ends ≤ d.time.turn)
    (hsound : p.fault = false) (hdone : passLate d p = false) (hexact : p.sat = false) (hboxes : p.boxes ≠ []) :
    fxPassEnd d h = modMap d h fun m => { m with
      pass := some { (default : PredPass) with slot := p.slot }, events := m.events ++ [(1, .pred p.boxes (p.words.getD []))] ++ refills d h p.start } := by
  have hboxes : p.boxes.isEmpty = false := by simp [hboxes]
  unfold fxPassEnd
  rw [hget]
  dsimp -zeta only
  rw [hpass]
  dsimp -zeta only
  rw [if_neg (passEnd_reached hends hover)]
  simp only [hsound, hdone, hexact, hboxes, Bool.or_self, Bool.false_eq_true, if_false]

/-- A pass with tiles left is dropped (R216). -/
theorem fxPassEnd_late (hget : tget d.world.maps h = some m) (hpass : m.pass = some p) (hends : p.ends ≠ 0) (hover : p.ends ≤ d.time.turn)
    (hsound : p.fault = false) (hlate : passLate d p = true) : fxPassEnd d h = dropPass d h := by
  unfold fxPassEnd
  rw [hget]
  dsimp -zeta only
  rw [hpass]
  dsimp -zeta only
  rw [if_neg (passEnd_reached hends hover)]
  simp only [hsound, hlate, Bool.or_true, Bool.false_eq_true, if_false, if_true]

/-- A build of the staged statics that has started is ready with its tree (R102). -/
theorem fxBvhEnd_ready {t : Nat} (hget : tget d.world.maps h = some m) (hbuild : m.build = .start t) (hover : t ≤ d.time.turn) :
    fxBvhEnd d h = modMap d h fun x => { x with
      build := .ready (allPrims m.staged.objs) (bvhBuild m.boxMin m.boxMax (allPrims m.staged.objs)) } := by
  unfold fxBvhEnd
  rw [hget]
  dsimp -zeta only
  rw [hbuild]
  exact if_neg (Nat.not_lt.2 hover)

end

/-- Settles O20: each pass by where it stands at its turn, and a build. -/
theorem mapWorkRuns : Obligations.MapWorkRuns := by
  intro h m s hget
  refine ⟨fun p k hpass hmodel hrun hdue => ⟨fun hidle => ?_, fun hflight hearlier => ?_⟩,
    fun p hpass hends hover hsound hdone hexact hboxes => ?_, fun p hpass hends hover hsound hlate => ?_, fun t hbuild hover => ?_⟩
  · obtain ⟨p', hstarts⟩ := fxPassStart_starts hget hpass hmodel hrun hdue hidle
    exact ⟨fxPassStart s.dev h, p', rfl, hstarts⟩
  · rw [exec_predictorPassStart, execPredictorPassStart, onDev_withDev, fxPassStart_skips hget hpass hmodel hrun hdue hflight hearlier]
  · rw [exec_predictorPassEnd, execPredictorPassEnd, onDev_withDev, fxPassEnd_joins hget hpass hends hover hsound hdone hexact hboxes]
  · rw [exec_predictorPassEnd, execPredictorPassEnd, onDev_withDev, fxPassEnd_late hget hpass hends hover hsound hlate]
  · rw [exec_bvhBuildEnd, execBvhBuildEnd, onDev_withDev, fxBvhEnd_ready hget hbuild hover]

end Sys2Proof.Machine

/-! PROOFS. The field ports (O51): frames that reach the checks of their stream, frames that only count, requests, and what the checks of R127 lead to. -/
namespace Sys2Proof.Machine

/-- A meaning over `onFz` answers the state with the new device. -/
theorem onFz_withDev (s : State) (f : Fuses → Dev → Dev) : onFz s f = .next (s.withDev (f s.fuses s.dev)) := rfl

section
variable {fz : Fuses} {d : Dev} {port src t n : Nat} {f : Bytes} {x : StreamRec}

/-! ### Frames of streams and agents -/

/-- The record size that a frame's header is checked against: that of its kind, or of the model of its stream's agent (R126, R149). -/
def recordSize (d : Dev) (n : Nat) (f : Bytes) : Nat :=
  match fld f 1 1 with
  | 1 => 40
  | 2 => 8
  | _ => (((d.world.agents.find? fun a => a.2.bind.stream == n).map (·.2)).map fun a => 32 + 8 * kinN (curModelRaw d a.bind.model)).getD (fld f 16 2)

/-- What every field frame that is read passes first: its port, its length, its version and its own check (R125, R558). -/
structure FieldFrame (d : Dev) (port : Nat) (f : Bytes) : Prop where
  enabled : portEn d port = true
  notReplay : d.ldg.replay = false
  short : f.length ≤ 1500
  version : bits (fld f 0 1) 3 0 = 1
  crc : frameCrcOk f = true

/-- An enabled port outside a replay reads its frames (R87, R558). -/
theorem FieldFrame.read (h : FieldFrame d port f) : ¬ (!portEn d port || d.ldg.replay) = true := by
  simp [h.enabled, h.notReplay]

/-- What checks 1 and 2 of R127 and R149 ask of a frame, an agent's state included, up to its stream. -/
structure StreamFrame (d : Dev) (port src t : Nat) (f : Bytes) (x : StreamRec) : Prop extends FieldFrame d port f where
  kindLow : 1 ≤ fld f 1 1
  kindHigh : fld f 1 1 ≤ 3
  size : fld f 16 2 = fld f 18 2 * recordSize d (fld f 2 1 % 128) f
  single : fld f 1 1 = 3 → fld f 18 2 = 1
  stream : tget d.world.streams (fld f 2 1 % 128) = some x
  opened : x.openTurn < entryTurn (fldCnt (atTime d t) port 0) t
  notClosed : x.closeTurn = none
  samePort : x.port = port
  sender : x.srcMac = 0 ∨ x.srcMac = src
  sameKind : x.kind = fld f 1 1
  bound : fld f 1 1 = 3 → (d.world.agents.find? fun a => a.2.bind.stream == fld f 2 1 % 128).isSome = true

/-- A frame that passes checks 1 and 2 is judged by the later ones (R127, R149). -/
theorem fxFrame_judged (h : StreamFrame d port src t f x) :
    fxFrame fz d port src t f = streamAccept fz (fldCnt (atTime d t) port 0) (fld f 2 1 % 128) x
      ((d.world.agents.find? fun a => a.2.bind.stream == fld f 2 1 % 128).map (·.2)) t f := by
  have hform : ¬ (bits (fld f 0 1) 3 0 ≠ 1 || fld f 1 1 < 1 || fld f 1 1 > 3 || frameLong f) = true := by
    have hlow := h.kindLow
    have hhigh := h.kindHigh
    have hshort := h.short
    simp only [h.version, frameLong, Bool.or_eq_true, decide_eq_true_eq]
    omega
  have hwhole : ¬ (!frameCrcOk f || fld f 16 2 ≠ fld f 18 2 * recordSize d (fld f 2 1 % 128) f || (fld f 1 1 = 3 && fld f 18 2 ≠ 1)) = true := by
    have hsingle := h.single
    simp only [h.crc, ← h.size, ne_eq, not_true_eq_false, decide_false, Bool.not_true, Bool.or_self, Bool.false_or, Bool.and_eq_true, decide_eq_true_eq]
    tauto
  unfold fxFrame
  rw [if_neg h.read]
  extract_lets d' ty n s ag size
  have hsize : size = recordSize d n f := rfl
  have hs : s = some x := h.stream
  have hopen : decide (x.openTurn < entryTurn d' t) = true := decide_eq_true h.opened
  have hsender : (x.srcMac ≠ 0 && x.srcMac ≠ src) = false := by rcases h.sender with hany | hsame <;> simp [*]
  have hbound : (ty = 3 && ag.isNone) = false := by
    by_cases hstate : ty = 3
    · have hag : ag.isSome = true := (Option.isSome_map (f := (·.2))).trans (h.bound hstate)
      rw [← Option.not_isSome, hag, Bool.not_true, Bool.and_false]
    · rw [decide_eq_false hstate, Bool.false_and]
  have hreach : ¬ (!(true && true) || x.port ≠ port || (x.srcMac ≠ 0 && x.srcMac ≠ src) || x.kind ≠ ty || (ty = 3 && ag.isNone)) = true := by
    rw [hsender, hbound]
    simp [h.samePort, h.sameKind, ty]
  rw [if_neg hform, hsize, if_neg hwhole, hs]
  dsimp only
  rw [h.notClosed, hopen]
  exact if_neg hreach

/-- A frame of records or of voxel runs that reaches its stream passes checks 1 and 2 (R127). -/
theorem streamFrame_of_reaches (h : frameReaches d port src t f x) : StreamFrame d port src t f x := by
  obtain ⟨henabled, hreplay, hshort, hversion, hkind, hlow, hhigh, hcrc, hsize, hget, hopened, hclosed, hport, hsender⟩ := h
  have hrecord : recordSize d (fld f 2 1 % 128) f = if fld f 1 1 = 1 then 40 else 8 := by
    unfold recordSize
    obtain hone | htwo : fld f 1 1 = 1 ∨ fld f 1 1 = 2 := by omega
    · rw [hone]
      rfl
    · rw [htwo]
      rfl
  exact {
    enabled := henabled, notReplay := hreplay, short := hshort, version := hversion, crc := hcrc, kindLow := hlow, kindHigh := by omega,
    size := hrecord ▸ hsize, single := by omega, stream := hget, opened := hopened, notClosed := hclosed, samePort := hport, sender := hsender,
    sameKind := hkind.symm, bound := by omega }

/-- A frame of no known kind or with a bad frame check sequence is counted as received and as what it is (R542). -/
theorem fxUnmatched_counts (hport : portEn d port = true) (fcs : Bool) : fxUnmatched d port fcs = fldCnt (fldCnt d port 0) port (if fcs then 3 else 2) := by
  unfold fxUnmatched
  rw [hport]
  cases fcs <;> rfl

/-! ### Requests -/

/-- The ledger entry of an inline request of class 0 (R64, R376). -/
def requestEntry (port t : Nat) (a : AgentRec) (c : Cmd) (f packet : Bytes) : Entry :=
  { (default : Entry) with kind := kindOf c.op, source := srcField port a.bind.stream, ctr := fld f 4 4, ts := t / 4 * 4, polder := a.polder,
                           cls := 0, payload := packet }

/-- The entry of a STOP_VERIFY lies in the share of the class-0 queries (R61). -/
theorem shareOf_requestEntry (port t : Nat) (a : AgentRec) {c : Cmd} (f packet : Bytes) (hop : c.op = 0x501) :
    shareOf (requestEntry port t a c f packet) = 1 := by
  unfold requestEntry
  rw [hop]
  rfl

/-- What R376 asks of an inline STOP_VERIFY of agent `n` up to its command. -/
structure RequestFrame (d : Dev) (port src t n : Nat) (f packet : Bytes) (a : AgentRec) : Prop extends FieldFrame d port f where
  kind : fld f 1 1 = 0x10
  agent : tget d.world.agents n = some a
  inline : isIndirect packet = false
  size : fld f 16 2 = 64
  allowed : bitAt (rget (fldCnt (atTime d t) port 0) 0x700000) 1 = true
  samePort : a.bind.ctrlPort = port
  sender : a.bind.ctrlMac = src
  opcode : fld packet 0 2 = 0x501
  counter : ctrOk a.reqCtr (fld f 4 4) = true
  clock : timeOk (fld f 8 8) t = true

/-- An inline STOP_VERIFY of the agent that sends it, whose command is fetched, is placed in the ledger of its arrival (R376). -/
theorem fxRequest_places {a : AgentRec} (h : RequestFrame d port src t (fld f 2 2 % 4096) f (slice f 24 64) a) :
    let n := fld f 2 2 % 4096; let packet := slice f 24 64; let blk := slice packet 20 (min 36 (blockLen packet))
    let d' := modAgent (fldCnt (atTime d t) port 0) n fun a => { a with reqCtr := some (fld f 4 4) }
    let c := cmdOf (.field port n) a.polder packet blk
    let r := fetchCheck d' (entryTurn d' t) t c packet none
    fld blk 0 2 = n → c.cls = 0 → r.1 = none →
      fxRequest fz d port src t f = placeEntry (cnt r.2 0x70001C) (entryTurn d' t) (requestEntry port t a c f packet) := by
  intro n packet blk d' c r hnamed hcls hpasses
  have hform : ¬ (bits (fld f 0 1) 3 0 ≠ 1 || fld f 1 1 ≠ 0x10 || frameLong f) = true := by
    simp [h.version, h.kind, frameLong, h.short]
  have hwhole : ¬ (!frameCrcOk f || fld f 16 2 ≠ (if false then 64 + blockLen packet else 64) || (false && blockLen packet > 1408)) = true := by
    simp [h.crc, h.size]
  have hsender : ¬ (!bitAt (rget (fldCnt (atTime d t) port 0) 0x700000) 1 || a.bind.ctrlPort ≠ port || a.bind.ctrlMac ≠ src) = true := by
    simp [h.allowed, h.samePort, h.sender]
  have hcommand : ¬ (!(fld packet 0 2 == 0x500 || fld packet 0 2 == 0x501 || fld packet 0 2 == 0x502)) = true := by simp [packet, h.opcode]
  have hcounter : ¬ (!ctrOk a.reqCtr (fld f 4 4)) = true := by simp [h.counter]
  have hclock : ¬ (!timeOk (fld f 8 8) t) = true := by simp [h.clock]
  generalize hplaced : placeEntry _ _ _ = placed
  unfold fxRequest
  rw [if_neg h.read]
  extract_lets dc ind len drop blk' dm turn
  have hind : ind = false := h.inline
  clear_value ind
  subst hind
  have hblk : blk' = blk := rfl
  clear_value blk'
  subst hblk
  have hagent : tget dc.world.agents n = some a := h.agent
  rw [if_neg hform, hagent]
  dsimp -zeta only
  rw [if_neg hwhole, if_neg hsender, if_neg hcommand, if_neg hcounter, if_neg hclock]
  extract_lets other r' e'
  have hother : other = false := by simp [other, hnamed]
  have hr : r' = (none, r.2) := by
    unfold r'
    rw [hother]
    exact Prod.ext hpasses rfl
  have hentry : e' = requestEntry port t a c f packet := by
    have hclass : (if isQuery c.op then c.cls else 0) = 0 := by rw [hcls, ite_self]
    unfold e'
    rw [hclass, if_neg Bool.false_ne_true, List.append_nil]
    rfl
  have hroom : ¬ ((shareOf e' = 2 && entryBytes e' > fieldOpen fz r.2 turn) || (shareOf e' = 3 && entryBytes e' > hostOpen fz r.2 turn)) = true := by
    rw [hentry, shareOf_requestEntry port t a f packet h.opcode]
    simp
  rw [hr]
  dsimp -zeta only
  rw [if_neg hroom, hentry]
  exact hplaced

/-! ### The checks of R127 -/

/-- A frame in order, in time and in range, that finds a token and room, takes the token, counts as accepted and is placed (R127). -/
theorem streamAccept_places {ag : Option AgentRec} (hfollow : d.twin.role ≠ .follow) (hattach : d.twin.role ≠ .attaching)
    (htoken : 1000000000 ≤ min 16000000000 (x.bucket + (t - x.bucketAt) * x.rate)) (hfirst : x.lastCtr = none)
    (htime : timeOk (fld f 8 8 + offsFor d (entryTurn d t) n x) t = true) (hrange : rangeOk d x ag f = true) :
    let e : Entry := { (default : Entry) with kind := if x.kind = 3 then 2 else 1, source := srcField x.port n, ctr := fld f 4 4, ts := t / 4 * 4,
                                              polder := x.polder, payload := f }
    entryBytes e ≤ fieldOpen fz d (entryTurn d t) → streamAccept fz d n x ag t f = placeEntry (modStream d n fun _ => { x with
      bucket := min 16000000000 (x.bucket + (t - x.bucketAt) * x.rate) - 1000000000, bucketAt := max t x.bucketAt, lastCtr := some (fld f 4 4), lastArr := t,
      timeoutSince := false, accepted := satInc x.accepted 1 }) (entryTurn d t) e := by
  intro e hroom
  have hkeeps : ¬ (d.twin.role = .follow || d.twin.role = .attaching) = true := by simp [hfollow, hattach]
  have hctr : ¬ (!ctrOk x.lastCtr (fld f 4 4)) = true := by rw [hfirst]; exact Bool.false_ne_true
  have htime : ¬ (!timeOk (fld f 8 8 + offsFor d (entryTurn d t) n x) t) = true := by simp [htime]
  have hrange : ¬ (!rangeOk d x ag f) = true := by simp [hrange]
  unfold streamAccept
  extract_lets turn level metered put blank e' taken gap counted d'
  have hput : ∀ y, put d y = modStream d n fun _ => y := fun _ => if_neg hkeeps
  have hgap : gap = false := by
    unfold gap
    rw [hfirst]
    rfl
  have hroom : ¬ entryBytes e' > fieldOpen fz d turn := Nat.not_lt.2 hroom
  rw [if_neg (Nat.not_lt.2 htoken), if_neg hctr, if_neg htime, if_neg hrange, if_neg hroom, hgap, if_neg Bool.false_ne_true]
  unfold d'
  rw [hput]
  unfold counted
  rw [hgap]
  rfl

/-- A frame that finds no whole token is dropped, and counts as the polder's violation (R127). -/
theorem streamAccept_drops {ag : Option AgentRec} (hfollow : d.twin.role ≠ .follow) (hattach : d.twin.role ≠ .attaching)
    (hempty : min 16000000000 (x.bucket + (t - x.bucketAt) * x.rate) < 1000000000) :
    streamAccept fz d n x ag t f = modPolder (modStream d n fun _ => { x with
        bucket := min 16000000000 (x.bucket + (t - x.bucketAt) * x.rate), bucketAt := max t x.bucketAt, rateDrop := satInc x.rateDrop 1 })
      x.polder fun y => { y with violStream := satInc y.violStream 1 } := by
  have hkeeps : ¬ (d.twin.role = .follow || d.twin.role = .attaching) = true := by simp [hfollow, hattach]
  unfold streamAccept
  extract_lets turn level x' put e
  have hput : ∀ y, put d y = modStream d n fun _ => y := fun _ => if_neg hkeeps
  rw [if_pos hempty, hput]

end

/-- What each frame at a field port leads to. -/
theorem fieldFramesRun : FieldFramesRun := by
  intro port src t f s
  refine ⟨fun x hreaches => ?_, fun x n a henabled hreplay hshort hversion hkind hcrc hsingle hget hstate hopened hclosed hport hsender hagent hsize => ?_,
    fun fcs hport => ?_, fun a => ?_⟩
  · rw [exec_streamFrameIngress, execStreamFrameIngress, onFz_withDev, fxFrame_judged (streamFrame_of_reaches hreaches)]
  · have hrecord : recordSize s.dev (fld f 2 1 % 128) f = 32 + 8 * kinN (curModelRaw s.dev a.bind.model) := by
      unfold recordSize
      rw [hkind, hagent]
      rfl
    have hframe : StreamFrame s.dev port src t f x := {
      enabled := henabled, notReplay := hreplay, short := hshort, version := hversion, crc := hcrc, kindLow := by omega, kindHigh := by omega,
      size := by rw [hrecord, hsingle, hsize, Nat.one_mul], single := fun _ => hsingle, stream := hget, opened := hopened, notClosed := hclosed,
      samePort := hport, sender := hsender, sameKind := hstate.trans hkind.symm, bound := fun _ => by rw [hagent, Option.isSome_some] }
    rw [exec_agentStateIngress, execAgentStateIngress, onFz_withDev, fxFrame_judged hframe, hagent, Option.map_some]
  · rw [exec_unmatchedFrame, execUnmatchedFrame, onDev_withDev, fxUnmatched_counts hport]
  · intro n packet blk henabled hreplay hshort hversion hkind hget hcrc hdirect hsize hallowed hport hmac hop hctr htime _ d c _ hnamed hcls r hpasses e _
    have hframe : RequestFrame s.dev port src t n f packet a := {
      enabled := henabled, notReplay := hreplay, short := hshort, version := hversion, crc := hcrc, kind := hkind, agent := hget, inline := hdirect,
      size := hsize, allowed := hallowed, samePort := hport, sender := hmac, opcode := hop, counter := hctr, clock := htime }
    rw [exec_requestIngress, execRequestIngress, onFz_withDev, fxRequest_places hframe hnamed hcls hpasses]
    rfl

/-- What the checks of R127 lead to. -/
theorem streamFrameAccepted : StreamFrameAccepted := by
  intro fz d n t x ag f hfollow hattach level e
  exact ⟨fun htoken hfirst htime hrange hroom => streamAccept_places hfollow hattach htoken hfirst htime hrange hroom,
    fun hempty => streamAccept_drops hfollow hattach hempty⟩

/-- Settles O51: what each frame leads to, and when a stream's frame is accepted. -/
theorem fieldPortsRun : Obligations.FieldPortsRun := ⟨fieldFramesRun, streamFrameAccepted⟩

end Sys2Proof.Machine

/-! PROOFS. The sweep engine (O22): halves that are staged and dropped, and the batches of candidates that are checked against them. -/
namespace Sys2Proof.Machine

/-! ### What the counters and faults of an engine leave of the device -/

/-- Blocked accesses are counted in the bank registers of the die: a part that writes of those leave stands (R335). -/
theorem countBlocked_leaves {β : Type} (g : Dev → β) {die : Nat} (h : ∀ d b v, b < 16 → g (rset d (dieWin die + 0x10008 + 0x100 * b) v) = g d)
    (d : Dev) (who : Nat) (regs : List (Nat × Nat)) : g (countBlocked d die who regs) = g d := by
  refine foldl_leaves g (fun d r => ?_) regs d
  unfold cnt
  split_ifs
  · rfl
  · rfl
  · exact h _ _ _ (Nat.mod_lt _ (by decide))

section
variable {β : Type} (g : Dev → β) (hset : ∀ d o v, g (rset d o v) = g d) (d : Dev)
include hset

/-- The cycles lost in the banks are counted in registers (R336, R346). -/
theorem bankConf_leaves (m : Mem) (die e c operand : Nat) : g (bankConf m d die e c operand) = g d := by
  unfold bankConf
  split_ifs
  · rfl
  · refine foldl_leaves g (fun d b => ?_) _ d
    unfold cntWrap
    split_ifs
    · rfl
    · exact hset _ _ _

theorem engSet_leaves (die e c o v : Nat) : g (engSet d die e c o v) = g d := by
  unfold engSet
  split_ifs
  · rfl
  · exact hset _ _ _

/-- A fault of an engine writes a register and sends a message to the warden (R169). -/
theorem engFault_leaves (hraise : ∀ d src die origin detail, g (raise d src die origin detail) = g d) (die e c mask operand : Nat) :
    g (engFault d die e c mask operand) = g d := (hraise _ _ _ _ _).trans (hset _ _ _)

end

/-- A part that a change leaves, its repetition leaves. -/
theorem repeat_leaves {β : Type} (g : Dev → β) {f : Dev → Dev} (h : ∀ d, g (f d) = g d) (n : Nat) (d : Dev) : g (Nat.repeat f n d) = g d := by
  induction n with
  | zero => rfl
  | succ n ih => exact (h _).trans ih

/-! ### The registers of an engine -/

theorem bitAt_eq_testBit (v i : Nat) : bitAt v i = v.testBit i := by
  rw [Nat.testBit_eq_decide_div_mod_eq]
  rfl

/-- A fault of an engine sets its sticky bits (R169). -/
theorem engFault_sticks {mask i : Nat} (hbit : bitAt mask i = true) (hi : i < 32) (d : Dev) (die e c operand : Nat) :
    bitAt (rget (engFault d die e c mask operand) (engReg die e c 8)) i = true := by
  have hreg : rget (engFault d die e c mask operand) (engReg die e c 8) = (rget d (engReg die e c 8) ||| mask) % 2 ^ 32 := rget_rset_self ..
  rw [bitAt_eq_testBit] at hbit
  rw [hreg, bitAt_eq_testBit, Nat.testBit_mod_two_pow, Nat.testBit_or, hbit, Bool.or_true, Bool.and_true, decide_eq_true hi]

/-- The registers of an engine lie behind those of the banks, where blocked accesses are counted. -/
theorem rget_countBlocked_engReg (d : Dev) (die who : Nat) (regs : List (Nat × Nat)) (e c o : Nat) :
    rget (countBlocked d die who regs) (engReg die e c o) = rget d (engReg die e c o) :=
  countBlocked_leaves (fun x => rget x (engReg die e c o)) (fun _ b _ hb => rget_rset_ne _ _ _ _ (by unfold engReg; omega)) d who regs

/-- While cnt_freeze is clear the register takes the length of the operation (R184). -/
theorem rget_engSet {d : Dev} {die e c : Nat} (hfree : bitAt (rget d (engReg die e c 0)) 1 = false) (o v : Nat) :
    rget (engSet d die e c o v) (engReg die e c o) = v % 2 ^ 32 := by
  rw [engSet, hfree, if_neg Bool.false_ne_true, rget_rset_self]

/-! ### Staging a half -/

/-- What a descriptor stages follows from the world store and the memory (R105, R157). -/
theorem stageBulk_congr {d d' : Dev} (h : d'.world = d.world) (m : Mem) (die : Nat) (bs : Bytes) : stageBulk m d' die bs = stageBulk m d die bs := by
  simp only [stageBulk, bulkSrc, brickWords, brickAt, bulkGets_congr h, h]

/-- The device with a half staged. -/
def putHalf (d : Dev) (k : Nat) (h : Half) : Dev := { d with eng := { d.eng with halves := tput d.eng.halves k h } }

theorem countBlocked_append (d : Dev) (die who : Nat) (regs regs' : List (Nat × Nat)) :
    countBlocked d die who (regs ++ regs') = countBlocked (countBlocked d die who regs) die who regs' := List.foldl_append

section
variable {m : Mem} {d : Dev} {die core operand : Nat}

/-- The staging descriptor of an operand, as its core reads it. -/
def stageDesc (m : Mem) (d : Dev) (die core operand : Nat) : Bytes := mgets (bankView d core m) (rowField die (opLoc operand)) 320

/-- Counting the descriptor's blocked rows does not change what it stages. -/
theorem stageBulk_countBlocked (who : Nat) (regs : List (Nat × Nat)) : let x := countBlocked d die who regs
    stageBulk (bankView x core m) x die (stageDesc m x die core operand) = stageBulk (bankView d core m) d die (stageDesc m d die core operand) := by
  dsimp only
  rw [stageBulk_congr (countBlocked_world ..), stageDesc, bankView_congr (countBlocked_eng ..)]
  rfl

/-- A descriptor in range: with its blocked rows counted, the half and the length of the staging enter the device (R157, R164, R335). -/
theorem opStage_of_some {h : Half} {m' : Mem} {len : Nat} (hstage : stageBulk (bankView d core m) d die (stageDesc m d die core operand) = some (h, m', len)) :
    ∃ regs, opStage m d die core operand =
      (bankMerge d core m m', engSet (putHalf (countBlocked d die core regs) (halfKey die core operand) h) die 0 core 0x38 len, len) := by
  generalize hr : opStage m d die core operand = r
  unfold opStage at hr
  extract_lets counted k v bs desc at hr
  have hstage : stageBulk v counted die bs = some (h, m', len) := (stageBulk_countBlocked ..).trans hstage
  rw [hstage] at hr
  dsimp -zeta only at hr
  extract_lets counted' at hr
  have heng : counted'.eng = d.eng := (countBlocked_eng ..).trans (countBlocked_eng ..)
  obtain ⟨regs, hregs⟩ : ∃ regs, counted' = countBlocked d die core regs := ⟨_, (countBlocked_append ..).symm⟩
  refine ⟨regs, ?_⟩
  rw [← hregs, ← bankMerge_congr heng]
  exact hr.symm

/-- A descriptor out of range: its blocked rows are counted, the half is dropped, and the fault is raised (log entry 40). -/
theorem opStage_of_none (hstage : stageBulk (bankView d core m) d die (stageDesc m d die core operand) = none) :
    ∃ regs, opStage m d die core operand =
      (m, engFault (dropHalf (countBlocked d die core regs) (halfKey die core operand)) die 0 core 1 operand, 1600) := by
  generalize hr : opStage m d die core operand = r
  unfold opStage at hr
  extract_lets counted k v bs at hr
  have hstage : stageBulk v counted die bs = none := (stageBulk_countBlocked ..).trans hstage
  rw [hstage] at hr
  exact ⟨_, hr.symm⟩

/-! ### Checking candidates -/

/-- A check with no window error leaves every part of the device that register writes and messages to the warden leave. -/
theorem opCheck_leaves {β : Type} (g : Dev → β) (hset : ∀ d o v, g (rset d o v) = g d)
    (hraise : ∀ d src die origin detail, g (raise d src die origin detail) = g d) : g (opCheck m d die core operand none).2.1 = g d := by
  have hfault : ∀ mask d, g (engFault d die 0 core mask operand) = g d := fun mask d => engFault_leaves g hset d hraise ..
  unfold opCheck
  extract_lets k addr v hd count s half counted r st res loss worked described faulted dropped jobs
  have hworked : g worked = g d :=
    (addWork_leaves g hset ..).trans ((bankConf_leaves g hset ..).trans (countBlocked_leaves g (fun _ _ _ _ => hset _ _ _) ..))
  have hdescribed : g described = g worked := by
    unfold described
    split_ifs
    · exact hfault 1 worked
    · rfl
  have hfaulted : g faulted = g described := repeat_leaves g (hfault 2) ..
  exact hfaulted.trans (hdescribed.trans hworked)

/-- A check leaves its results where its core may write (R168, R335). -/
theorem opCheck_mem : (opCheck m d die core operand none).1 = bankMerge d core m
    (sweepCheck (bankView d core m) die (rowField die (opLoc operand)) (tget d.eng.halves (halfKey die core operand)) none).1 := by
  have heng : (opCheck m d die core operand none).2.1.eng = d.eng := opCheck_leaves Dev.eng rset_eng raise_eng
  rw [← bankMerge_congr heng]
  rfl

end

/-! ### The commands -/

/-- A unit operation of a live core does its work. -/
theorem runUnit_eq {s : State} {die core : Nat} (hup : coreUp s die core) (f : Mem → Dev → UnitRes) :
    runUnit s die core f = .next (s.withMem (f s.mem s.dev).1 (f s.mem s.dev).2.1) := by
  obtain ⟨hdie, hcore, hpop, hlive⟩ := hup
  rw [runUnit, onCore_pop hdie hcore hpop, onMem_eq, if_pos hlive]
  rfl

/-- Settles O22: a half staged or, with its descriptor out of range, dropped; a batch checked; a half dropped by command. -/
theorem sweepOperationsRun : Obligations.SweepOperationsRun := by
  intro die core operand s hup v k desc
  refine ⟨fun h m len hstage => ?_, fun hstage => ?_, ?_, ?_⟩
  · obtain ⟨regs, hop⟩ := opStage_of_some hstage
    refine ⟨engSet (putHalf (countBlocked s.dev die core regs) k h) die 0 core 0x38 len,
      by rw [exec_swpStage, execSwpStage, runUnit_eq hup, hop], ?_, ?_, ?_, ?_, fun hfree => ?_⟩
    · rw [engSet_leaves Dev.eng rset_eng, putHalf, countBlocked_eng]
    · rw [engSet_leaves Dev.world rset_world, putHalf, countBlocked_world]
    · rw [engSet_leaves Dev.q rset_q]
      exact countBlocked_leaves Dev.q (fun _ _ _ _ => rfl) ..
    · rw [engSet_leaves Dev.eng rset_eng, putHalf, countBlocked_eng]
    · have hctl : rget (putHalf (countBlocked s.dev die core regs) k h) (engReg die 0 core 0) = rget s.dev (engReg die 0 core 0) :=
        rget_countBlocked_engReg ..
      exact rget_engSet (hctl ▸ hfree) ..
  · obtain ⟨regs, hop⟩ := opStage_of_none hstage
    refine ⟨engFault (dropHalf (countBlocked s.dev die core regs) k) die 0 core 1 operand,
      by rw [exec_swpStage, execSwpStage, runUnit_eq hup, hop]; rfl, ?_, engFault_sticks rfl (by decide) ..⟩
    rw [engFault_leaves Dev.eng rset_eng _ raise_eng, dropHalf, countBlocked_eng]
  · have heng : (opCheck s.mem s.dev die core operand none).2.1.eng = s.dev.eng := opCheck_leaves Dev.eng rset_eng raise_eng
    refine ⟨_, by rw [exec_swpCheck, execSwpCheck, runUnit_eq hup, opCheck_mem], by rw [heng], by rw [heng],
      opCheck_leaves Dev.world rset_world raise_world, opCheck_leaves Dev.q rset_q raise_q⟩
  · rw [exec_swpInval, execSwpInval, runUnit_eq hup]
    rfl

end Sys2Proof.Machine

/-! PROOFS. The tensor engine (O23): weights that are loaded, tables that are taken, layers that run and layers with a fault. -/
namespace Sys2Proof.Machine

/-! ### What the counters of an operation leave of the device -/

/-- The banks that a code owns follow from the engines' state (R332). -/
theorem ownedBy_congr {d d' : Dev} (h : d'.eng = d.eng) : ownedBy d' = ownedBy d := by
  funext die who b
  rw [ownedBy, ownedBy, bankOwner, bankOwner, h]

section
variable {β : Type} (g : Dev → β) (hset : ∀ d o v, g (rset d o v) = g d)
include hset

/-- A counter of an engine is a register (R184). -/
theorem engCnt_leaves (d : Dev) (die e c o n : Nat) : g (engCnt d die e c o n) = g d := by
  unfold engCnt cntWrap
  split_ifs
  · rfl
  · rfl
  · exact hset _ _ _

/-- The cycles lost at a port are counted in registers (R331, R336). -/
theorem conflicts_leaves (m : Mem) (d : Dev) (die e c operand o : Nat) (reads : Option (List (List Nat))) :
    g (conflicts m d die e c operand o reads).2 = g d := by
  unfold conflicts
  extract_lets alone n
  refine (engCnt_leaves g hset ..).trans ?_
  split
  · rfl
  · exact bankConf_leaves g hset ..

end

/-- A length shown or an event counted in one register of an engine leaves another. -/
theorem rget_engSet_ne (d : Dev) (die e c v : Nat) {o p : Nat} (h : p ≠ o) :
    rget (engSet d die e c o v) (engReg die e c p) = rget d (engReg die e c p) := by
  unfold engSet
  split_ifs
  · rfl
  · exact rget_rset_ne _ _ _ _ (by unfold engReg; omega)

theorem rget_engCnt_ne (d : Dev) (die e c n : Nat) {o p : Nat} (h : p ≠ o) :
    rget (engCnt d die e c o n) (engReg die e c p) = rget d (engReg die e c p) := by
  unfold engCnt cntWrap
  split_ifs
  · rfl
  · rfl
  · exact rget_rset_ne _ _ _ _ (by unfold engReg; omega)

section
variable (m : Mem) (d : Dev) (die core operand : Nat)

/-! ### Loading weights and tables -/

/-- The 16 bytes of a load's descriptor, as its core reads them. -/
def loadDesc : Bytes := mgets (bankView d core m) (rowField die (opLoc operand)) 16

variable {m d die core operand}

/-- A load within its bounds: its blocked rows are counted, the bytes enter the staging rows the core may write, the length shows (R203, R335). -/
theorem opLoad_of_bounds {a n row : Nat} (ha : a = fld (loadDesc m d die core operand) 0 8) (hn : n = fld (loadDesc m d die core operand) 8 4)
    (hrow : row = fld (loadDesc m d die core operand) 12 4) (halign : a % 64 = 0) (hrows : n % 64 = 0) (hlo : 64 ≤ n) (hhi : n ≤ 8388608)
    (hend : row + n / 64 ≤ 131072) (hbulk : bulkOk die a n = true) :
    ∃ regs, opLoad m d die core operand = (bankMerge d core m (mputs m (rowAddr die core row) (bulkGets m d die a n)),
      engSet (countBlocked d die core regs) die 1 core 0x24 (1600 + (n + 47) / 48), 1600 + (n + 47) / 48) := by
  have heng : ∀ regs, (countBlocked d die core regs).eng = d.eng := countBlocked_eng d die core
  have hdesc : mgets (bankView (countBlocked d die core [(opLoc operand, 1)]) core m) (rowField die (opLoc operand)) 16 = loadDesc m d die core operand := by
    rw [bankView_congr (heng _), loadDesc]
  have hpasses : ¬ (a % 64 ≠ 0 || n % 64 ≠ 0 || n < 64 || n > 8388608 || row ≥ 131072 || row + n / 64 > 131072 || !bulkOk die a n) = true := by
    simp [halign, hrows, hbulk]
    omega
  refine ⟨[(opLoc operand, 1)] ++ [(core * 2 ^ 18, n / 64)], ?_⟩
  unfold opLoad
  dsimp only
  rw [hdesc, ← ha, ← hn, ← hrow, if_neg hpasses, countBlocked_append, bulkGets_congr (countBlocked_world ..),
    bankMerge_congr ((countBlocked_eng ..).trans (heng _))]

/-- Rows of one bank of the core enter the table that the operand names (R195, R203). -/
theorem opTable_of_rows (hloc : locOk (opLoc operand) 16 = true) (hown : ownedBy d die core (bits (opLoc operand) 21 18) = true) :
    opTable m d die core operand = (m, { d with eng := { d.eng with
      tables := tput d.eng.tables ((die * 16 + core) * 8 + bits operand 23 22) (mgets m (rowField die (opLoc operand)) 1024) } }, 24) := by
  have hpasses : ¬ (!locOk (opLoc operand) 16 || !ownedBy d die core (bits (opLoc operand) 21 18)) = true := by simp [hloc, hown]
  exact if_neg hpasses

/-! ### Layers -/

variable (m d die core operand)

/-- The layer that an operand names, as its core reads it (R188). -/
def layerAt : Layer := parseLayer (mgets (bankView d core m) (rowField die (opLoc operand)) 64)

/-- The fault code of that layer on its core (R202). -/
def layerFaultAt : Nat := layerFault (ownedBy d die core) (bankView d core m) die core (layerAt m d die core operand)

/-- The output of that layer with the entries of a table (R192 to R199). -/
def layerOutAt (entry : Nat → Nat) : LayerOut :=
  let l := layerAt m d die core operand
  layerRun (bankView d core m) l entry (rowField die l.inLoc) (rowAddr die core l.wLoc) (rowAddr die core l.scLoc) (rowField die l.auxLoc)

/-- Its status block lies in a bank of the core (R201). -/
def statusFits : Prop := let l := layerAt m d die core operand; ownedBy d die core (bits l.stLoc 21 18) = true ∧ locOk l.stLoc 1 = true

variable {m d die core operand}

/-- The layer, its fault code and its output follow from the engines' state and the memory. -/
theorem layerAt_congr {d' : Dev} (h : d'.eng = d.eng) : layerAt m d' die core operand = layerAt m d die core operand := by
  rw [layerAt, layerAt, bankView_congr h]

theorem layerFaultAt_congr {d' : Dev} (h : d'.eng = d.eng) : layerFaultAt m d' die core operand = layerFaultAt m d die core operand := by
  rw [layerFaultAt, layerFaultAt, layerAt_congr h, ownedBy_congr h, bankView_congr h]

theorem layerOutAt_congr {d' : Dev} (h : d'.eng = d.eng) : layerOutAt m d' die core operand = layerOutAt m d die core operand := by
  funext entry
  rw [layerOutAt, layerOutAt, layerAt_congr h, bankView_congr h]

/-- A status block in a bank of the core is written, whatever counters and faults the device has taken in (R201). -/
theorem ite_mputs_status {d' : Dev} (h : d'.eng = d.eng) (hst : statusFits m d die core operand) (b : Bytes) (x : Mem) : let l := layerAt m d' die core operand
    (if ownedBy d' die core (bits l.stLoc 21 18) && locOk l.stLoc 1 then mputs x (rowField die l.stLoc) b else x) =
      mputs x (rowField die (layerAt m d die core operand).stLoc) b := by
  obtain ⟨hown, hloc⟩ := hst
  rw [layerAt_congr h, ownedBy_congr h]
  exact if_pos (by rw [hown, hloc]; rfl)

/-- A layer leaves every part of the device that register writes, messages to the warden and free values leave. -/
theorem opLayer_leaves {β : Type} (g : Dev → β) (hset : ∀ d o v, g (rset d o v) = g d)
    (hraise : ∀ d src die origin detail, g (raise d src die origin detail) = g d) (hfree : ∀ d n, g { d with free := n } = g d) :
    g (opLayer m d die core operand).2.1 = g d := by
  have hcounted : ∀ regs, g (countBlocked d die core regs) = g d := countBlocked_leaves g (fun _ _ _ _ => hset _ _ _) d core
  unfold opLayer
  extract_lets counted v l own f st z c base tab src taken entry o cyc m'
  split
  · exact (engSet_leaves g hset ..).trans ((engCnt_leaves g hset ..).trans ((engFault_leaves g hset _ hraise ..).trans (hcounted _)))
  · have hconf : g c.2 = g d := (conflicts_leaves g hset ..).trans (hcounted _)
    have htaken : g taken = g c.2 := by
      unfold taken
      split_ifs
      · exact hfree _ _
      · rfl
    exact (addWork_leaves g hset ..).trans (htaken.trans hconf)

/-- The device after a layer with a fault: its blocked rows counted, the fault raised and counted, the length shown (R202). -/
def layerFaulted (d : Dev) (die core operand : Nat) : Dev :=
  engSet (engCnt (engFault (countBlocked d die core [(opLoc operand, 1)]) die 1 core 1 operand) die 1 core 0xC 1) die 1 core 0x28 64

/-- A fault shows as bad_desc: the count and the length go to other registers. -/
theorem layerFaulted_sticks : bitAt (rget (layerFaulted d die core operand) (engReg die 1 core 8)) 0 = true := by
  rw [layerFaulted, rget_engSet_ne _ _ _ _ _ (by decide), rget_engCnt_ne _ _ _ _ _ (by decide)]
  exact engFault_sticks rfl (by decide) ..

/-- A layer with a fault leaves zeros as its output, and its fault code in its status block (R201, R202). -/
theorem opLayer_of_fault (hfault : layerFaultAt m d die core operand ≠ 0) (hst : statusFits m d die core operand)
    (hout : ownedBy d die core (bits (layerAt m d die core operand).outLoc 21 18) = true) : let l := layerAt m d die core operand
    opLayer m d die core operand =
      (mputs (mfill m (rowField die l.outLoc) (64 * min (tensorRows l.outFmt l.cOut l.m) (bankRows - bits l.outLoc 17 0)) 0) (rowField die l.stLoc)
        (layerStatus false (layerFaultAt m d die core operand) 0 0 64), layerFaulted d die core operand, 64) := by
  intro layer
  unfold opLayer
  extract_lets counted v l own f st z
  have heng : counted.eng = d.eng := countBlocked_eng ..
  have hl : l = layer := layerAt_congr heng
  have hf : f = layerFaultAt m d die core operand := layerFaultAt_congr heng
  have hbanks : own = ownedBy d die core := congrFun (congrFun (ownedBy_congr heng) die) core
  have hz : z = mfill m (rowField die layer.outLoc) (64 * min (tensorRows layer.outFmt layer.cOut layer.m) (bankRows - bits layer.outLoc 17 0)) 0 := by
    unfold z
    rw [hl, hbanks, if_pos hout]
  have hst : ∀ b x, st b x = mputs x (rowField die layer.stLoc) b := ite_mputs_status heng hst
  rw [if_pos (hf ▸ hfault), hst, hz, hf]
  rfl

/-- A layer without a fault writes its outputs and its status block, with the entries of the table it names (R192 to R201). -/
theorem opLayer_mem_of_ok {t : Bytes} (hfault : layerFaultAt m d die core operand = 0) (hst : statusFits m d die core operand)
    (htable : (layerAt m d die core operand).act = 0xff ∨ tget d.eng.tables ((die * 16 + core) * 8 + (layerAt m d die core operand).act) = some t) :
    let l := layerAt m d die core operand
    ∃ entry : Nat → Nat, (l.act ≠ 0xff → entry = fun i => fld t (4 * i) 4) ∧ ∃ lost, let o := layerOutAt m d die core operand entry
      (opLayer m d die core operand).1 =
        mputs (mputs m (rowField die l.outLoc) o.out) (rowField die l.stLoc) (layerStatus o.accSat 0 o.sat o.clamp (l.cycles + lost)) := by
  intro layer
  unfold opLayer
  extract_lets counted v l own f st z c base tab src taken entry o cyc m'
  have heng : counted.eng = d.eng := countBlocked_eng ..
  have hl : l = layer := layerAt_congr heng
  have hf : f = layerFaultAt m d die core operand := layerFaultAt_congr heng
  have ho : o = layerOutAt m d die core operand entry := congrFun (layerOutAt_congr heng) entry
  have hst : ∀ b x, st b x = mputs x (rowField die layer.stLoc) b := ite_mputs_status heng hst
  refine ⟨entry, fun hact => ?_, c.1, ?_⟩
  · have htab : tab = some t := by
      unfold tab
      rw [heng, hl]
      exact htable.resolve_left hact
    unfold entry
    rw [htab]
  · rw [if_neg (hf ▸ not_not.2 hfault)]
    unfold m' cyc
    rw [hst, ho, hl]

end

/-! ### The commands -/

/-- Settles O23: a load within its bounds, a table of rows of the core, a layer without a fault and one with. -/
theorem tensorOperationsRun : Obligations.TensorOperationsRun := by
  intro die core operand s hup v at_
  refine ⟨fun a n row ha hn hrow halign hrows hlo hhi hend hbulk => ?_, fun hloc hown => ?_, fun t => ?_, ?_⟩
  · obtain ⟨regs, hop⟩ := opLoad_of_bounds ha hn hrow halign hrows hlo hhi hend hbulk
    refine ⟨engSet (countBlocked s.dev die core regs) die 1 core 0x24 (1600 + (n + 47) / 48),
      by rw [exec_tnsLoad, execTnsLoad, runUnit_eq hup, hop], ?_, ?_, ?_, fun hfree => ?_⟩
    · rw [engSet_leaves Dev.eng rset_eng, countBlocked_eng]
    · rw [engSet_leaves Dev.world rset_world, countBlocked_world]
    · rw [engSet_leaves Dev.q rset_q]
      exact countBlocked_leaves Dev.q (fun _ _ _ _ => rfl) ..
    · rw [← rget_countBlocked_engReg s.dev die core regs] at hfree
      rw [rget_engSet hfree]
      exact Nat.mod_eq_of_lt (by omega)
  · rw [exec_tnsTable, execTnsTable, runUnit_eq hup, opTable_of_rows hloc hown]
    rfl
  · intro l hfault htable hown hloc
    obtain ⟨entry, hentry, lost, hmem⟩ := opLayer_mem_of_ok hfault ⟨hown, hloc⟩ htable
    exact ⟨entry, hentry, _, lost, by rw [exec_tnsLayer, execTnsLayer, runUnit_eq hup, hmem]; rfl,
      opLayer_leaves Dev.eng rset_eng raise_eng fun _ _ => rfl, opLayer_leaves Dev.world rset_world raise_world fun _ _ => rfl⟩
  · intro l f hfault hout hown hloc
    have hl : l = layerAt s.mem s.dev die core operand := rfl
    have hf : f = layerFaultAt s.mem s.dev die core operand := rfl
    have hop := opLayer_of_fault hfault ⟨hown, hloc⟩ hout
    refine ⟨(opLayer s.mem s.dev die core operand).2.1, ?_, by rw [hop]; exact layerFaulted_sticks,
      opLayer_leaves Dev.eng rset_eng raise_eng fun _ _ => rfl, opLayer_leaves Dev.world rset_world raise_world fun _ _ => rfl⟩
    rw [exec_tnsLayer, execTnsLayer, runUnit_eq hup, hop, hl, hf]

end Sys2Proof.Machine

/-! PROOFS. The frontier unit (O26): queues that open and close, entries that are pushed and popped in order, and the refill from a tile store. -/
namespace Sys2Proof.Machine

/-! ### Tables -/

/-- Storing again at a key leaves the later value only. -/
theorem tput_tput {α : Type} (t : Tab α) (k : Nat) (v w : α) : tput (tput t k v) k w = tput t k w := by
  induction t with
  | nil => simp [tput]
  | cons p t ih =>
    obtain ⟨j, x⟩ := p
    by_cases hlt : k < j
    · simp [tput, hlt]
    · by_cases heq : j = k
      · simp [tput, heq]
      · simp [tput, hlt, heq, ih]

/-- Storing what the table holds changes nothing. -/
theorem tput_of_tget {α : Type} {t : Tab α} {k : Nat} {v : α} (h : tget t k = some v) : tput t k v = t := by
  induction t with
  | nil => simp [tget] at h
  | cons p t ih =>
    obtain ⟨j, x⟩ := p
    by_cases heq : j = k
    · simp_all [tget, tput]
    · by_cases hlt : k < j
      · simp [tget, heq, hlt] at h
      · simp only [tget, heq, hlt, if_false] at h
        simp [tput, heq, hlt, ih h]

theorem total_eq_sum (l : List Nat) : total l = l.sum := List.sum_eq_foldl.symm

/-- Over the keys that `p` picks, a new value moves a sum by what it weighs more or less than the value it replaces. -/
theorem total_filter_tput {α : Type} {t : Tab α} {k : Nat} {v : α} (p : Nat → Bool) (f : α → Nat) (w : α) (h : tget t k = some v) (hp : p k = true) :
    total (((tput t k w).filter fun e => p e.1).map fun e => f e.2) + f v = total ((t.filter fun e => p e.1).map fun e => f e.2) + f w := by
  simp only [total_eq_sum]
  induction t with
  | nil => simp [tget] at h
  | cons e t ih =>
    obtain ⟨j, x⟩ := e
    by_cases heq : j = k
    · subst heq
      have hv : x = v := by simpa [tget] using h
      simp [tput, hp, hv]
      omega
    · by_cases hlt : k < j
      · simp [tget, heq, hlt] at h
      · simp only [tget, heq, hlt, if_false] at h
        have ih := ih h
        by_cases hj : p j = true
        · simp [tput, heq, hlt, hj]
          omega
        · simpa [tput, heq, hlt, hj] using ih

theorem length_insertBy {α : Type} (le : α → α → Bool) (x : α) (l : List α) : (insertBy le x l).length = l.length + 1 := by
  induction l with
  | nil => rfl
  | cons y t ih =>
    unfold insertBy
    split
    · simp [ih]
    · rfl

/-- Who may touch a bank follows from the owners alone (R332, R335): a frontier queue that changes leaves it. -/
theorem bankMerge_of_owner {d d' : Dev} (h : d'.eng.owner = d.eng.owner) : bankMerge d' = bankMerge d ∧ bankView d' = bankView d := by
  have htouch : mayTouch d' = mayTouch d := by
    funext who a
    simp only [mayTouch, ownedBy, bankOwner, h]
  exact ⟨funext fun who => funext fun m => funext fun m' => by simp only [bankMerge, htouch],
    funext fun who => funext fun m => by simp only [bankView, htouch]⟩

/-! ### A device that differs in one queue -/

/-- The device is `d₀` with `x` as queue `k`, in all that the frontier unit reads beside its registers, and in the world store. -/
structure HasFrn (d₀ : Dev) (k : Nat) (x : FrnQueue) (d : Dev) : Prop where
  eng : d.eng = (putFrn d₀ k x).eng
  q : d.q = d₀.q
  pkg : d.pkg = d₀.pkg
  world : d.world = d₀.world

section
variable {d₀ d d' : Dev} {k : Nat} {x y : FrnQueue}

theorem HasFrn.refl (h : tget d.eng.frn k = some x) : HasFrn d k x d := by
  refine ⟨?_, rfl, rfl, rfl⟩
  rw [putFrn, tput_of_tget h]

theorem HasFrn.get (h : HasFrn d₀ k x d) : tget d.eng.frn k = some x := by
  rw [h.eng]
  exact tget_tput_self ..

theorem HasFrn.put (h : HasFrn d₀ k x d) (y : FrnQueue) : HasFrn d₀ k y (putFrn d k y) := by
  refine ⟨?_, h.q, h.pkg, h.world⟩
  simp only [putFrn, h.eng, tput_tput]

/-- What leaves every part but the registers leaves the queue. -/
theorem HasFrn.of_leaves (h : HasFrn d₀ k x d) (hd : ∀ {β : Type} (g : Dev → β), (∀ d o v, g (rset d o v) = g d) → g d' = g d) : HasFrn d₀ k x d' :=
  ⟨(hd Dev.eng rset_eng).trans h.eng, (hd Dev.q rset_q).trans h.q, (hd Dev.pkg rset_pkg).trans h.pkg, (hd Dev.world rset_world).trans h.world⟩

end

/-! ### What a frontier operation shows before it begins -/

section
variable {d : Dev} {die core operand : Nat} {needs : Bool}

/-- An operand whose row lies outside the bank raises FRN_DESC (R253, R310). -/
theorem frnBad_of_row (hrow : locOk (opLoc operand) 1 = false) : frnBad d die core operand needs = some (engFault d die 4 core 0 operand) := by
  simp [frnBad, hrow]

/-- A queue that is not open raises FRN_DESC and sets bad_queue (R253). -/
theorem frnBad_of_closed (hrow : locOk (opLoc operand) 1 = true) (hclosed : thas d.eng.frn (frnKey die core (bits operand 31 22)) = false) :
    frnBad d die core operand true = some (engFault d die 4 core 2 operand) := by
  simp [frnBad, hrow, hclosed]

theorem frnBad_of_open (hrow : locOk (opLoc operand) 1 = true) (hopen : thas d.eng.frn (frnKey die core (bits operand 31 22)) = true) :
    frnBad d die core operand needs = none := by
  simp [frnBad, hrow, hopen]

theorem frnBad_new (hrow : locOk (opLoc operand) 1 = true) : frnBad d die core operand false = none := by
  simp [frnBad, hrow]

end

theorem thas_of_tget {α : Type} {t : Tab α} {k : Nat} {v : α} (h : tget t k = some v) : thas t k = true := by
  rw [thas, h]
  rfl

/-! ### Pushing entries -/

/-- The queue that an operand names lies in its core's unit. -/
theorem frnKey_unit (die core operand : Nat) : frnKey die core (bits operand 31 22) / 1024 = die * 16 + core := by
  unfold frnKey bits
  omega

/-- How one entry enters a queue (R222): a full unit spills first. -/
def pushEntry (die core k : Nat) (d : Dev) (e : Nat × Nat × Nat) : Dev :=
  let d := frnSpill d die core
  let q := tgetD d.eng.frn k default
  frnPeak (match q.inStore with
    | [] => putFrn d k { q with inUnit := insertBy entLe e q.inUnit }
    | s :: _ => if entLe s e then putFrn d k { q with inStore := insertBy entLe e q.inStore } else putFrn d k { q with inUnit := insertBy entLe e q.inUnit }) die core

theorem opPush_of_open {d : Dev} {die core operand : Nat} (m : Mem) (u : UnitDesc) (h : frnBad d die core operand true = none) :
    opPush m d die core operand u = (m, engCnt64 (u.entries.foldl (pushEntry die core (frnKey die core (bits operand 31 22))) d) die 4 core 0xC u.entries.length,
      4 + u.entries.length) := by
  unfold opPush
  rw [h]
  rfl

theorem engCnt64_leaves {β : Type} (g : Dev → β) (hset : ∀ d o v, g (rset d o v) = g d) (d : Dev) (die e c o n : Nat) :
    g (engCnt64 d die e c o n) = g d := addWork_leaves g hset d die c [(e, o, .pair, n)]

section
variable {d₀ d : Dev} {die core k : Nat} {x y : FrnQueue}

theorem HasFrn.peak (h : HasFrn d₀ k x d) (die core : Nat) : HasFrn d₀ k x (frnPeak d die core) :=
  h.of_leaves fun g hset => engSet_leaves g hset ..

/-- One entry more in a queue of the unit is at most one more held (R222). -/
theorem frnHeld_putFrn_le (hk : k / 1024 = die * 16 + core) (hget : tget d.eng.frn k = some x) (hlen : y.inUnit.length = x.inUnit.length + 1) :
    frnHeld (putFrn d k y) die core ≤ frnHeld d die core + 1 := by
  have hsum : total ((frnQueues (putFrn d k y) die core).map fun p => p.2.inUnit.length) + x.inUnit.length =
      total ((frnQueues d die core).map fun p => p.2.inUnit.length) + y.inUnit.length :=
    total_filter_tput (fun j => j / 1024 == die * 16 + core) (fun q : FrnQueue => q.inUnit.length) y hget (by simp [hk])
  have hsearch : searchQueues (putFrn d k y) die core = searchQueues d die core := rfl
  rw [frnHeld, frnHeld, hsearch]
  omega

/-- While the unit is not full, an entry takes its place in a queue without a tile store; one entry more is held. -/
theorem pushEntry_inUnit (hk : k / 1024 = die * 16 + core) (h : HasFrn d₀ k x d) (hstore : x.inStore = []) (hroom : frnHeld d die core < 65536)
    (e : Nat × Nat × Nat) : HasFrn d₀ k { x with inUnit := insertBy entLe e x.inUnit } (pushEntry die core k d e) ∧
      frnHeld (pushEntry die core k d e) die core ≤ frnHeld d die core + 1 := by
  have hone : pushEntry die core k d e = frnPeak (putFrn d k { x with inUnit := insertBy entLe e x.inUnit }) die core := by
    simp only [pushEntry, frnSpill, if_pos hroom, tgetD, h.get, Option.getD_some, hstore]
  have hheld : frnHeld (frnPeak (putFrn d k { x with inUnit := insertBy entLe e x.inUnit }) die core) die core =
      frnHeld (putFrn d k { x with inUnit := insertBy entLe e x.inUnit }) die core := engSet_leaves (fun d => frnHeld d die core) (fun _ _ _ => rfl) ..
  rw [hone, hheld]
  exact ⟨(h.put _).peak die core, frnHeld_putFrn_le hk h.get (length_insertBy ..)⟩

/-- Entries for which the unit has room take their places one by one (R222, R225). -/
theorem foldl_pushEntry (hk : k / 1024 = die * 16 + core) (h : HasFrn d₀ k x d) (hstore : x.inStore = []) (es : List (Nat × Nat × Nat))
    (hroom : frnHeld d die core + es.length ≤ 65536) :
    HasFrn d₀ k { x with inUnit := es.foldl (fun t e => insertBy entLe e t) x.inUnit } (es.foldl (pushEntry die core k) d) := by
  induction es generalizing d x with
  | nil => exact h
  | cons e es ih =>
    rw [List.length_cons] at hroom
    obtain ⟨hput, hheld⟩ := pushEntry_inUnit hk h hstore (by omega) e
    exact ih hput hstore (by omega)

end

/-! ### Popping entries -/

/-- One step of a pop: the smallest entry, where there is one, follows those taken before it (R222). -/
def popEntry (die core q : Nat) (acc : List (Nat × Nat × Nat) × Dev) : List (Nat × Nat × Nat) × Dev :=
  match frnPop acc.2 die core q with
  | (some e, d) => (acc.1 ++ [e], d)
  | (none, d) => (acc.1, d)

section
variable {d₀ d : Dev} {die core q : Nat} {x : FrnQueue}

/-- A queue without a tile store takes nothing from it. -/
theorem frnRefill_of_noStore (hget : tget d.eng.frn (frnKey die core q) = some x) (hstore : x.inStore = []) : frnRefill d die core q = d := by
  simp [frnRefill, hget, hstore]

/-- A queue that runs low takes up to 256 entries from its tile store (R222). -/
theorem frnRefill_of_low (hget : tget d.eng.frn (frnKey die core q) = some x) (hlow : x.inUnit.length < 64) (hstore : x.inStore ≠ []) :
    frnRefill d die core q = frnPeak (engCnt (putFrn d (frnKey die core q)
      { inUnit := (x.inStore.take 256).foldl (fun t e => insertBy entLe e t) x.inUnit, inStore := x.inStore.drop 256 }) die 4 core 0x20 1) die core := by
  have hrefills : ¬ (decide (x.inUnit.length ≥ 64) || x.inStore.isEmpty) = true := by simp [hlow, hstore]
  simp only [frnRefill, hget, if_neg hrefills]

/-- A queue without a tile store gives its entries in order, as many as are asked for and it has. -/
theorem foldl_popEntry {α : Type} (l : List α) (h : HasFrn d₀ (frnKey die core q) x d) (hstore : x.inStore = []) (acc : List (Nat × Nat × Nat)) :
    ∃ d', l.foldl (fun a _ => popEntry die core q a) (acc, d) = (acc ++ x.inUnit.take l.length, d') ∧
      HasFrn d₀ (frnKey die core q) { x with inUnit := x.inUnit.drop l.length } d' := by
  induction l generalizing d x acc with
  | nil => exact ⟨d, by simp, h⟩
  | cons a l ih =>
    have hidle := frnRefill_of_noStore h.get hstore
    cases hunit : x.inUnit with
    | nil =>
      have hone : popEntry die core q (acc, d) = (acc, d) := by simp only [popEntry, frnPop, hidle, h.get, hunit]
      obtain ⟨d', hfold, hd'⟩ := ih h hstore acc
      rw [List.foldl_cons, hone]
      exact ⟨d', by simpa [hunit] using hfold, by simpa [hunit] using hd'⟩
    | cons e t =>
      have hone : popEntry die core q (acc, d) = (acc ++ [e], putFrn d (frnKey die core q) { x with inUnit := t }) := by
        simp only [popEntry, frnPop, hidle, h.get, hunit]
      obtain ⟨d', hfold, hd'⟩ := ih (h.put { x with inUnit := t }) hstore (acc ++ [e])
      rw [List.foldl_cons, hone]
      exact ⟨d', by simpa using hfold, by simpa using hd'⟩

/-- Without a tile store a pop waits for none: entries are taken, counted and written (R222, R254). -/
theorem opPop_eq_popEntry {operand : Nat} (m : Mem) (u : UnitDesc) (h : frnBad d die core operand true = none)
    (hget : tget d.eng.frn (frnKey die core (bits operand 31 22)) = some x) (hstore : x.inStore = []) :
    opPop m d die core operand u =
      let r := (List.range u.pops).foldl (fun a _ => popEntry die core (bits operand 31 22) a) ([], d)
      let counted := engCnt64 r.2 die 4 core 0x14 r.1.length
      (bankMerge counted core m (mputs (bankView counted core m) (rowAddr die u.bank u.row) (r.1.flatMap frnBytes)), counted, 4 + u.pops) := by
  unfold opPop
  simp only [h, hget, hstore, Option.map_some, List.isEmpty_nil, Bool.not_true, Option.getD_some, Bool.false_eq_true, if_false]
  rfl

/-- A pop of a queue without a tile store: its entries in order go to the row that the descriptor names, and leave the queue (R222, R223). -/
theorem opPop_of_noStore {operand : Nat} (m : Mem) (u : UnitDesc) (hrow : locOk (opLoc operand) 1 = true)
    (hget : tget d.eng.frn (frnKey die core (bits operand 31 22)) = some x) (hstore : x.inStore = []) :
    (opPop m d die core operand u).1 =
        bankMerge d core m (mputs (bankView d core m) (rowAddr die u.bank u.row) ((x.inUnit.take u.pops).flatMap frnBytes)) ∧
      HasFrn d (frnKey die core (bits operand 31 22)) { x with inUnit := x.inUnit.drop u.pops } (opPop m d die core operand u).2.1 := by
  obtain ⟨d', hfold, hd'⟩ := foldl_popEntry (List.range u.pops) (HasFrn.refl hget) hstore []
  rw [List.nil_append, List.length_range] at hfold
  rw [List.length_range] at hd'
  have hcounted := hd'.of_leaves (fun g hset => engCnt64_leaves g hset d' die 4 core 0x14 (x.inUnit.take u.pops).length)
  obtain ⟨hmerge, hview⟩ := bankMerge_of_owner (d := d) (by rw [hcounted.eng]; rfl)
  simp only [opPop_eq_popEntry m u (frnBad_of_open hrow (thas_of_tget hget)) hget hstore, hfold, hmerge, hview]
  exact ⟨trivial, hcounted⟩

end

/-! ### The commands -/

section
variable {s : State} {die core operand : Nat} {d : Dev} (hup : coreUp s die core)
include hup

/-- An operation that is bad from the start leaves its fault alone (R253). -/
theorem exec_frnOpen_of_bad (h : frnBad s.dev die core operand false = some d) : exec (.frnOpen die core operand) s = .next (s.withDev d) := by
  rw [exec_frnOpen, execFrnOpen, runUnit_eq hup, opOpen, h]
  rfl

theorem exec_frnPushb_of_bad (u : UnitDesc) (h : frnBad s.dev die core operand true = some d) :
    exec (.frnPushb die core operand u) s = .next (s.withDev d) := by
  rw [exec_frnPushb, execFrnPushb, runUnit_eq hup, opPush, h]
  rfl

theorem exec_frnPopb_of_bad (u : UnitDesc) (h : frnBad s.dev die core operand true = some d) :
    exec (.frnPopb die core operand u) s = .next (s.withDev d) := by
  rw [exec_frnPopb, execFrnPopb, runUnit_eq hup, opPop, h]
  rfl

theorem exec_frnClose_of_bad (h : frnBad s.dev die core operand true = some d) : exec (.frnClose die core operand) s = .next (s.withDev d) := by
  rw [exec_frnClose, execFrnClose, runUnit_eq hup, opClose, h]
  rfl

end

/-- Settles O26: the four operations on an open queue, their faults, and the refill. -/
theorem frontierOperationsRun : Obligations.FrontierOperationsRun := by
  intro die core operand u s hup q k row
  refine ⟨fun hrow => ?_, fun hrow i hi => ?_, fun x hrow hsome hget hstore hroom => ?_, fun x hrow hget hstore => ?_, fun hrow hopen => ?_,
    fun hrow hclosed => ?_, fun x hget hlow hstore => ?_⟩
  · rw [exec_frnOpen, execFrnOpen, runUnit_eq hup, opOpen, frnBad_new hrow]
    rfl
  · simp only [List.mem_cons, List.not_mem_nil, or_false] at hi
    obtain rfl | rfl | rfl | rfl := hi
    · exact exec_frnOpen_of_bad hup (frnBad_of_row hrow)
    · exact exec_frnPushb_of_bad hup u (frnBad_of_row hrow)
    · exact exec_frnPopb_of_bad hup u (frnBad_of_row hrow)
    · exact exec_frnClose_of_bad hup (frnBad_of_row hrow)
  · have hpush := opPush_of_open s.mem u (frnBad_of_open hrow (thas_of_tget hget))
    have hfrn := (foldl_pushEntry (frnKey_unit die core operand) (HasFrn.refl hget) hstore u.entries hroom).of_leaves
      (fun g hset => engCnt64_leaves g hset _ die 4 core 0xC u.entries.length)
    exact ⟨_, by rw [exec_frnPushb, execFrnPushb, runUnit_eq hup, hpush]; rfl, hfrn.eng, hfrn.world⟩
  · obtain ⟨hmem, hfrn⟩ := opPop_of_noStore s.mem u hrow hget hstore
    exact ⟨_, by rw [exec_frnPopb, execFrnPopb, runUnit_eq hup, hmem], hfrn.get, hfrn.world⟩
  · rw [exec_frnClose, execFrnClose, runUnit_eq hup, opClose, frnBad_of_open hrow hopen]
    rfl
  · have hbad := frnBad_of_closed hrow hclosed
    exact ⟨exec_frnPushb_of_bad hup u hbad, exec_frnPopb_of_bad hup u hbad, exec_frnClose_of_bad hup hbad⟩
  · obtain ⟨hdie, hcore, hpop, -⟩ := hup
    rw [exec_frontierRefill, execFrontierRefill, onCore_pop hdie hcore hpop, onMem_eq, frnRefill_of_low hget hlow hstore]
    rfl

end Sys2Proof.Machine

/-! PROOFS. The stages of a plan (O21): the start node pushed, the steps of the search, the closing stop, stage 6 and the cover. -/
namespace Sys2Proof.Machine

/-! ### A device that differs in one query -/

/-- The device has `q` as query `n`, and otherwise the queries and the world store of `d₀`. -/
structure HasQuery (d₀ : Dev) (n : Nat) (q : QueryRec) (d : Dev) : Prop where
  get : tget d.q.recs n = some q
  others : ∀ j, j ≠ n → tget d.q.recs j = tget d₀.q.recs j
  world : d.world = d₀.world

section
variable {d₀ d d' : Dev} {n : Nat} {q : QueryRec}

theorem HasQuery.refl (h : tget d.q.recs n = some q) : HasQuery d n q d := ⟨h, fun _ _ => rfl, rfl⟩

theorem HasQuery.mod (h : HasQuery d₀ n q d) (f : QueryRec → QueryRec) : HasQuery d₀ n (f q) (modQ d n f) :=
  ⟨tget_tmod_self h.get f, fun j hj => (tget_tmod_ne _ f hj).trans (h.others j hj), h.world⟩

/-- What leaves every part but the registers and the warden leaves the queries. -/
theorem HasQuery.of_leaves (h : HasQuery d₀ n q d) (hd : ∀ {β : Type} (g : Dev → β), (∀ d o v, g (rset d o v) = g d) →
    (∀ d src die origin detail, g (raise d src die origin detail) = g d) → g d' = g d) : HasQuery d₀ n q d' := by
  have hq : d'.q = d.q := hd Dev.q rset_q raise_q
  have hworld : d'.world = d.world := hd Dev.world rset_world raise_world
  refine ⟨?_, fun j hj => ?_, hworld.trans h.world⟩
  · rw [hq, h.get]
  · rw [hq, h.others j hj]

end

section
variable {β : Type} (g : Dev → β)

theorem cnt_leaves (hset : ∀ d o v, g (rset d o v) = g d) (d : Dev) (o n : Nat) : g (cnt d o n) = g d := by
  unfold cnt
  split_ifs
  · rfl
  · exact hset _ _ _

/-- A source raised several times sends messages to the warden only. -/
theorem raiseN_leaves (hraise : ∀ d src die origin detail, g (raise d src die origin detail) = g d) (k : Nat) (d : Dev) (src die detail : Nat) :
    g (raiseN k d src die detail) = g d := repeat_leaves g (fun _ => hraise _ _ _ _ _) k d

/-- The cut-backs of stage 6 count their work and raise the faults of their checks (R275). -/
theorem finishLoop_leaves (hset : ∀ d o v, g (rset d o v) = g d) (hraise : ∀ d src die origin detail, g (raise d src die origin detail) = g d)
    (id fuel cuts : Nat) (d : Dev) (q : QueryRec) : g (finishLoop id fuel cuts d q).1 = g d := by
  induction fuel generalizing cuts d q with
  | zero => rfl
  | succ fuel ih =>
    have hwork : ∀ d t w, g (tileWork d t w) = g d := fun _ _ _ => addWork_leaves g hset ..
    unfold finishLoop
    extract_lets path m r q' t0 k axes worked
    split
    · rfl
    · split
      · exact hwork ..
      · split
        · exact hwork ..
        · exact (ih ..).trans ((raiseN_leaves g hraise ..).trans ((cnt_leaves g hset ..).trans ((hwork ..).trans (hwork ..))))

end

/-! ### The stages -/

section
variable {d : Dev} {n : Nat} {q : QueryRec}

/-- Stage 2 is skipped without a goal pose (R272). -/
theorem fxGoalSolve_skips (hq : tget d.q.recs n = some q) (hgoes : stuck d q = false) (hkind : q.kind = .plan) (hstage : q.stage = .goal)
    (hpose : (searchEnv d q).p.eeGoal = false) : fxGoalSolve d n = beginSearch d n q := by
  simp [fxGoalSolve, hq, hgoes, hkind, hstage, hpose]

/-- A query that is in a stage, with its tiles on live dies, does not wait. -/
theorem not_waits {stage : QStage} (hgoes : stuck d q = false) (hstage : q.stage = stage) : ¬ (q.stage ≠ stage || stuck d q) = true := by
  simp [hstage, hgoes]

/-- The nodes that a step of a search pops, within pop_b and the budget, and the tiles that they leave (R228, R229). -/
def stepPops (d : Dev) (q : QueryRec) : List (Nat × Nat × Node) × Tab TileStore :=
  popNodes (total (q.tiles.map fun t => t.2.queue.length) + 1) (min (searchEnv d q).p.popB (q.cmd.budget - q.expansions)) q.tiles

/-- A step of a search that goes on: with no node to pop the search ends; otherwise the popped nodes count as expansions (R228 to R231). -/
theorem fxSearchStep_searches {pop : List (Nat × Nat × Node) × Tab TileStore} (hq : tget d.q.recs n = some q) (hgoes : stuck d q = false)
    (hstage : q.stage = .search) (hpop : stepPops d q = pop) :
    (pop.1 = [] → fxSearchStep d n = endBudget (modQ d n fun q => { q with tiles := pop.2 }) n { q with tiles := pop.2 }) ∧
    (pop.1 ≠ [] → ∃ q', HasQuery d n q' (fxSearchStep d n) ∧ q'.expansions = q.expansions + pop.1.length ∧ q'.cmd = q.cmd ∧ q'.pinMaps = q.pinMaps) := by
  unfold fxSearchStep
  extract_lets begun stored
  have hbegun : begun = d := by simp [begun, hq, hstage]
  rw [hbegun, hq]
  split
  · contradiction
  next r hr =>
  cases hr
  rw [if_neg (not_waits hgoes hstage)]
  extract_lets e popped ex all key arr pops arrived q' expanded pushed dropped peaked raised tile goals
  have hpopped : popped = pop := hpop
  subst hpopped
  refine ⟨fun hnone => ?_, fun hsome => ?_⟩
  · exact if_pos (List.isEmpty_iff.2 hnone)
  · have hpushed : HasQuery d n q pushed := (HasQuery.refl hq).of_leaves fun g hset _ =>
      (foldl_leaves g (fun _ _ => addWork_leaves g hset ..) _ _).trans (foldl_leaves g (fun _ _ => addWork_leaves g hset ..) _ _)
    have hraised : HasQuery d n q' raised := (hpushed.mod fun _ => q').of_leaves fun g hset hraise =>
      (raiseN_leaves g hraise ..).trans ((foldl_leaves g (fun _ _ => engSet_leaves g hset ..) _ _).trans
        (foldl_leaves g (fun _ _ => cnt_leaves g hset ..) _ _))
    have hgoesOn : ¬ popped.1.isEmpty = true := mt List.isEmpty_iff.1 hsome
    rw [if_neg hgoesOn]
    cases goals with
    | cons goal _ => exact ⟨_, hraised.mod _, rfl, rfl, rfl⟩
    | nil =>
      dsimp only
      split_ifs
      · exact ⟨_, hraised.mod _, rfl, rfl, rfl⟩
      · exact ⟨_, hraised, rfl, rfl, rfl⟩

/-- The closing stop of a path: the query goes on to stage 6 (R233). -/
theorem fxClosingStop_closes (hq : tget d.q.recs n = some q) (hgoes : stuck d q = false) (hstage : q.stage = .closing) :
    ∃ q', HasQuery d n q' (fxClosingStop d n) ∧ q'.stage = .finish ∧ q'.cmd = q.cmd := by
  simp only [fxClosingStop, hq, if_neg (not_waits hgoes hstage)]
  have hchecked : ∀ k t w src die detail, HasQuery d n q (raiseN k (tileWork d t w) src die detail) := fun _ _ _ _ _ _ =>
    (HasQuery.refl hq).of_leaves fun g hset hraise => (raiseN_leaves g hraise ..).trans (addWork_leaves g hset ..)
  exact ⟨_, (hchecked ..).mod _, rfl, rfl⟩

/-- Stage 6 leaves a plan to cover (R275). -/
theorem fxStageFinish_finishes (hq : tget d.q.recs n = some q) (hgoes : stuck d q = false) (hstage : q.stage = .finish) :
    ∃ q', HasQuery d n q' (fxStageFinish d n) ∧ q'.stage = .cover := by
  simp only [fxStageFinish, hq, if_neg (not_waits hgoes hstage)]
  have hloop : HasQuery d n q (finishLoop n 6 0 d q).1 := (HasQuery.refl hq).of_leaves fun g hset hraise => finishLoop_leaves g hset hraise ..
  exact ⟨_, hloop.mod _, rfl⟩

/-- Without a stop motion there is nothing to cover: the query is ready (R245). -/
theorem fxCover_readies (hq : tget d.q.recs n = some q) (hgoes : stuck d q = false) (hstage : q.stage = .cover) (hmotion : planMotion d q = none)
    (hlead : needsTl d q = false) : fxCover d n = modQ d n fun q => { q with stage := .ready, foots := [] } := by
  simp [fxCover, hq, hgoes, hstage, hmotion, hlead]

end

/-- Settles O21: by the query's stage. -/
theorem planStagesRun : Obligations.PlanStagesRun := by
  intro n q s hq hgoes
  refine ⟨fun hkind hstage hpose => ?_, fun hstage => ?_, fun hstage => ?_, fun hstage => ?_, fun hstage hmotion hlead => ?_⟩
  · rw [exec_goalSolveEnd, execGoalSolveEnd, onDev_withDev, fxGoalSolve_skips hq hgoes hkind hstage hpose]
  · intro e pop
    rw [exec_searchStep, execSearchStep, onDev_withDev]
    obtain ⟨hends, hgoesOn⟩ := fxSearchStep_searches hq hgoes hstage (pop := pop) rfl
    refine ⟨fun hnone => ?_, fun hsome => ?_⟩
    · rw [hends hnone]
    · obtain ⟨q', hrec, hcount, hcmd, hpins⟩ := hgoesOn hsome
      exact ⟨_, q', rfl, hrec.get, hcount, hcmd, hpins, hrec.others, hrec.world⟩
  · obtain ⟨q', hrec, hnext, hcmd⟩ := fxClosingStop_closes hq hgoes hstage
    exact ⟨_, q', rfl, hrec.get, hnext, hcmd, hrec.others, hrec.world⟩
  · obtain ⟨q', hrec, hnext⟩ := fxStageFinish_finishes hq hgoes hstage
    exact ⟨_, q', rfl, hrec.get, hnext, hrec.others, hrec.world⟩
  · rw [exec_footprintCover, execFootprintCover, onDev_withDev, fxCover_readies hq hgoes hstage hmotion hlead]

end Sys2Proof.Machine

/-! PROOFS. The square-root unit (O44): the root found bit by bit is the floor. -/
namespace Sys2Proof.Machine

/-- From a root that is not too large and lies less than 2^k below, the k bits that are left find the floor of the root. -/
theorem isqrtFrom_isFloor {k n acc : Nat} (hle : acc * acc ≤ n) (hlt : n < (acc + 2 ^ k) * (acc + 2 ^ k)) :
    isqrtFrom k n acc * isqrtFrom k n acc ≤ n ∧ n < (isqrtFrom k n acc + 1) * (isqrtFrom k n acc + 1) := by
  induction k generalizing acc with
  | zero => exact ⟨hle, hlt⟩
  | succ k ih =>
    unfold isqrtFrom
    extract_lets c
    have hc : acc + 2 ^ (k + 1) = c + 2 ^ k := by
      unfold c
      ring
    split_ifs with htaken
    · exact ih htaken (hc ▸ hlt)
    · exact ih hle (not_le.1 htaken)

/-- Settles O44: 64 bits find the root of every number below 2^128. -/
theorem squareRootIsFloor : Obligations.SquareRootIsFloor := fun _ hx => isqrtFrom_isFloor (Nat.zero_le _) (by omega)

end Sys2Proof.Machine

/-! PROOFS. The solver unit (O24): batches and jobs of rows that pass their tests and ones that do not. -/
namespace Sys2Proof.Machine

/-! ### A batch and a job of rows -/

section
variable {m : Mem} {d : Dev} {die core operand : Nat} {u : UnitDesc}

/-- An operation's blocked rows, lost cycles and work are counted in registers (R184, R331, R335). -/
theorem counted_leaves {β : Type} (g : Dev → β) (hset : ∀ d o v, g (rset d o v) = g d) (e o : Nat) (regs : List (Nat × Nat)) (w : Work) :
    g (addWork (conflicts m (countBlocked d die core regs) die e core operand o).2 die core w) = g d :=
  (addWork_leaves g hset ..).trans ((conflicts_leaves g hset ..).trans (countBlocked_leaves g (fun _ _ _ _ => hset _ _ _) ..))

variable (m d die core operand u)

/-- The job of the batch that an operand names, as its core reads it (R282). -/
def batchAt : BatchJob := batchJob (ownedBy d die core) (bankView d core m) d.world.agents die operand

/-- The job of the rows that an operand names, as its core reads it (R267). -/
def rowsAt : RowsJob := rowsJob (ownedBy d die core) (bankView d core m) die operand u

/-- The device after work of the solver: the descriptor's blocked row, the cycles lost and the work counted. -/
def solverWorked (w : Work) : Dev := addWork (conflicts m (countBlocked d die core [(opLoc operand, 1)]) die 2 core operand 0x2C).2 die core w

/-- The device after a job of the solver that fails its tests: the descriptor's blocked row counted, bad_desc and bad_loc set as the tests say. -/
def solverFaulted (badDesc badLoc : Bool) : Dev :=
  engFault (countBlocked d die core [(opLoc operand, 1)]) die 2 core (b2n badDesc + 4 * b2n badLoc) operand

variable {m d die core operand u}

theorem solverFaulted_eng (badDesc badLoc : Bool) : (solverFaulted d die core operand badDesc badLoc).eng = d.eng :=
  (engFault_leaves Dev.eng rset_eng _ raise_eng ..).trans (countBlocked_eng ..)

theorem solverFaulted_world (badDesc badLoc : Bool) : (solverFaulted d die core operand badDesc badLoc).world = d.world :=
  (engFault_leaves Dev.world rset_world _ raise_world ..).trans (countBlocked_world ..)

/-- A descriptor out of order shows as bad_desc, with and without bad_loc. -/
theorem solverFaulted_badDesc {badDesc : Bool} (h : badDesc = true) (badLoc : Bool) :
    bitAt (rget (solverFaulted d die core operand badDesc badLoc) (engReg die 2 core 8)) 0 = true := by
  subst h
  exact engFault_sticks (by cases badLoc <;> rfl) (by decide) ..

/-- A location out of order shows as bad_loc, with and without bad_desc. -/
theorem solverFaulted_badLoc {badLoc : Bool} (h : badLoc = true) (badDesc : Bool) :
    bitAt (rget (solverFaulted d die core operand badDesc badLoc) (engReg die 2 core 8)) 2 = true := by
  subst h
  exact engFault_sticks (by cases badDesc <;> rfl) (by decide) ..

/-- A batch that passes its tests leaves the outcomes of its problems, in order, at its result location (R282). -/
theorem opBatch_of_ok (hloc : (batchAt m d die core operand).badLoc = false) (hdesc : (batchAt m d die core operand).badDesc = false) :
    let j := batchAt m d die core operand
    ∃ w len, opBatch m d die core operand =
      (mputs m j.res ((batchOuts j).flatMap fun o => solveRecord o false false 0), solverWorked m d die core operand w, len) := by
  have hpasses : ¬ ((batchAt m d die core operand).badLoc || (batchAt m d die core operand).badDesc) = true := by simp [hloc, hdesc]
  exact ⟨_, _, if_neg hpasses⟩

/-- A batch that fails one leaves its result records degraded where the core may write them (R282). -/
theorem opBatch_of_bad (hbad : (batchAt m d die core operand).badLoc = true ∨ (batchAt m d die core operand).badDesc = true) :
    let j := batchAt m d die core operand
    opBatch m d die core operand = (batchRefused (ownedBy d die core) m j, solverFaulted d die core operand j.badDesc j.badLoc, 64) := by
  intro j
  have hfails : (j.badLoc || j.badDesc) = true := Bool.or_eq_true_iff.2 hbad
  rw [← ownedBy_congr (countBlocked_eng d die core [(opLoc operand, 1)])]
  exact if_pos hfails

/-- Rows that pass their tests leave their limit samples and sphere rows (R267). -/
theorem opRows_of_ok (hloc : (rowsAt m d die core operand u).badLoc = false) (hdesc : (rowsAt m d die core operand u).badDesc = false) :
    ∃ w len, opRows m d die core operand u = (rowsWrite m die u (rowsAt m d die core operand u), solverWorked m d die core operand w, len) := by
  have hpasses : ¬ ((rowsAt m d die core operand u).badDesc || (rowsAt m d die core operand u).badLoc) = true := by simp [hloc, hdesc]
  exact ⟨_, _, if_neg hpasses⟩

/-- Rows that fail one change no memory (R267). -/
theorem opRows_of_bad (hbad : (rowsAt m d die core operand u).badLoc = true ∨ (rowsAt m d die core operand u).badDesc = true) :
    let r := rowsAt m d die core operand u
    opRows m d die core operand u = (m, solverFaulted d die core operand r.badDesc r.badLoc, 64) := by
  intro r
  have hfails : (r.badDesc || r.badLoc) = true := Bool.or_eq_true_iff.2 hbad.symm
  exact if_pos hfails

end

/-! ### The commands -/

/-- Settles O24: a batch and a job of rows, each in order and out of order. -/
theorem solverOperationsRun : Obligations.SolverOperationsRun := by
  intro die core operand u s hup v j r
  refine ⟨fun hloc hdesc => ?_, fun hbad => ?_, fun hloc hdesc => ?_, fun hbad => ?_⟩
  · obtain ⟨w, len, hop⟩ := opBatch_of_ok hloc hdesc
    exact ⟨solverWorked s.mem s.dev die core operand w, by rw [exec_slvBatch, execSlvBatch, runUnit_eq hup, hop]; rfl,
      counted_leaves Dev.eng rset_eng .., counted_leaves Dev.world rset_world .., counted_leaves Dev.q rset_q ..⟩
  · have hop : opBatch s.mem s.dev die core operand = (batchRefused (ownedBy s.dev die core) s.mem j, solverFaulted s.dev die core operand j.badDesc j.badLoc, 64) :=
      opBatch_of_bad hbad
    exact ⟨solverFaulted s.dev die core operand j.badDesc j.badLoc, by rw [exec_slvBatch, execSlvBatch, runUnit_eq hup, hop],
      solverFaulted_eng .., solverFaulted_world .., fun hdesc => solverFaulted_badDesc hdesc _, fun hloc => solverFaulted_badLoc hloc _⟩
  · obtain ⟨w, len, hop⟩ := opRows_of_ok hloc hdesc
    exact ⟨solverWorked s.mem s.dev die core operand w, by rw [exec_slvRows, execSlvRows, runUnit_eq hup, hop]; rfl,
      counted_leaves Dev.eng rset_eng .., counted_leaves Dev.world rset_world .., counted_leaves Dev.q rset_q ..⟩
  · have hop : opRows s.mem s.dev die core operand u = (s.mem, solverFaulted s.dev die core operand r.badDesc r.badLoc, 64) := opRows_of_bad hbad
    exact ⟨solverFaulted s.dev die core operand r.badDesc r.badLoc, by rw [exec_slvRows, execSlvRows, runUnit_eq hup, hop]; rfl,
      solverFaulted_eng .., fun hdesc => solverFaulted_badDesc hdesc _, fun hloc => solverFaulted_badLoc hloc _⟩

end Sys2Proof.Machine

/-! PROOFS. The select engine (O25): its four operations, with operand and descriptor in order and not. -/
namespace Sys2Proof.Machine

/-! ### The registers of the engine -/

section
variable (d : Dev) (die core : Nat)

/-- The registers of an engine lie behind those of the banks, where the cycles that the select engine loses there are counted (R336). -/
theorem rget_bankConf_engReg (m : Mem) (operand c o : Nat) :
    rget (bankConf m d die 3 core operand) (engReg die 3 c o) = rget d (engReg die 3 c o) := by
  unfold bankConf
  split_ifs
  · rfl
  · refine List.foldlRecOn (motive := fun x => rget x (engReg die 3 c o) = rget d (engReg die 3 c o)) _ _ rfl fun x hx b hb => ?_
    have hbank : b < 16 := List.mem_range.1 (List.mem_filter.1 hb).1
    unfold cntWrap
    split_ifs
    · exact hx
    · refine (rget_rset_ne _ _ _ _ ?_).trans hx
      simp only [engReg, List.getD_cons_succ, List.getD_cons_zero]
      omega

/-- A pair that counts leaves the other registers of its engine. -/
theorem rget_engCnt64_ne (e c n : Nat) {o p : Nat} (hlo : p ≠ o) (hhi : p ≠ o + 4) :
    rget (engCnt64 d die e c o n) (engReg die e c p) = rget d (engReg die e c p) := by
  unfold engCnt64 cnt64
  split_ifs
  · rfl
  · rfl
  · rw [rget_rset_ne _ _ _ _ (by unfold engReg; omega), rget_rset_ne _ _ _ _ (by unfold engReg; omega)]

/-- A select operation counts in SEL_OP_CNT, SEL_ELEM and SEL_SAT_CNT, and shows its length in SEL_LAST_CYC (R302). -/
theorem addWork_selWork (n cyc : Nat) (sat : Bool) : addWork d die core (selWork n sat cyc) =
    engSet (engCnt (engCnt64 (engCnt d die 3 core 0xC 1) die 3 core 0x10 n) die 3 core 0x18 (b2n sat)) die 3 core 0x20 cyc := rfl

/-- What a select operation counts leaves SEL_CTL, SEL_STAT and SEL_ERR. -/
theorem rget_addWork_selWork_of_lt (n cyc : Nat) (sat : Bool) {p : Nat} (hlow : p < 0xC) :
    rget (addWork d die core (selWork n sat cyc)) (engReg die 3 core p) = rget d (engReg die 3 core p) := by
  rw [addWork_selWork, rget_engSet_ne _ _ _ _ _ (by omega), rget_engCnt_ne _ _ _ _ _ (by omega),
    rget_engCnt64_ne _ _ _ _ _ (by omega) (by omega), rget_engCnt_ne _ _ _ _ _ (by omega)]

variable {d die core}

/-- While cnt_freeze is clear, SEL_LAST_CYC shows the length of the operation (R302). -/
theorem rget_addWork_selWork_lastCyc (hfree : bitAt (rget d (engReg die 3 core 0)) 1 = false) (n cyc : Nat) (sat : Bool) :
    rget (addWork d die core (selWork n sat cyc)) (engReg die 3 core 0x20) = cyc % 2 ^ 32 := by
  rw [addWork_selWork]
  refine rget_engSet ?_ ..
  rwa [rget_engCnt_ne _ _ _ _ _ (by decide), rget_engCnt64_ne _ _ _ _ _ (by decide) (by decide), rget_engCnt_ne _ _ _ _ _ (by decide)]

end

/-! ### A select operation -/

section
variable (m : Mem) (d : Dev) (die core op operand : Nat)

/-- The cycles that the operation of an operand loses at the row port, and the device that has counted them (R292, R302). -/
def selLost : Nat × Dev :=
  conflicts m d die 3 core operand 0x1C (selReads op (parseSel op (mgets (bankView d core m) (rowField die (opLoc operand)) 64)))

/-- What the operation of an operand gives on the banks of its core (R288 to R296). -/
def selAt : Mem × SelDesc × SelOut × Bool × Nat :=
  selUnit (bankView d core m) (ownedBy d die core) die op (rowField die (opLoc operand)) (selLost m d die core op operand).1

/-- The operand names a bank of the core and its reserved bits are 0 (R294). -/
def selOperandOk : Prop := ownedBy d die core (bits (opLoc operand) 21 18) = true ∧ bits operand 47 22 = 0

/-- The device after an operation that faults: bad_desc and SEL_DESC, and 16 cycles of length (R295). -/
def selFaulted : Dev := addWork (engFault d die 3 core 1 operand) die core (selWork 0 false 16)

/-- The device with its lost cycles counted and, where a list broke its order, with unsorted set and SEL_UNSORTED_CNT raised (R290, R302). -/
def selChecked : Dev :=
  let lost := (selLost m d die core op operand).2
  if (selAt m d die core op operand).2.2.1.broke.isSome then cnt (stick lost (engReg die 3 core 8) 4) (dieWin die + 0x131004) else lost

/-- The device after an operation that does not fault: its elements, its saturation and its length are counted (R302). -/
def selDone : Dev :=
  let r := selAt m d die core op operand
  addWork (selChecked m d die core op operand) die core (selWork r.2.1.n r.2.2.1.sat r.2.2.2.2)

variable {m d die core op operand}

/-- The lost cycles and unsorted are counted and set in registers. -/
theorem selChecked_leaves {β : Type} (g : Dev → β) (hset : ∀ d o v, g (rset d o v) = g d) : g (selChecked m d die core op operand) = g d := by
  have hlost : g (selLost m d die core op operand).2 = g d := conflicts_leaves g hset ..
  unfold selChecked
  extract_lets lost
  split_ifs
  · exact (cnt_leaves g hset ..).trans ((hset ..).trans hlost)
  · exact hlost

/-- With its operand in order, an operation whose descriptor is in order leaves its memory as the core may write it, and its length. -/
theorem opSel_of_ok (hin : selOperandOk d die core operand) (hok : (selAt m d die core op operand).2.2.2.1 = false) :
    let r := selAt m d die core op operand
    opSel m d die core op operand = (bankMerge d core m r.1, selDone m d die core op operand, r.2.2.2.2) := by
  obtain ⟨hown, hres⟩ := hin
  have hpasses : ¬ ((selAt m d die core op operand).2.2.2.1 || !ownedBy d die core (bits (opLoc operand) 21 18) || bits operand 47 22 ≠ 0) = true := by
    simp [hok, hown, hres]
  have heng : (selChecked m d die core op operand).eng = d.eng := selChecked_leaves Dev.eng rset_eng
  rw [← bankMerge_congr heng]
  exact if_neg hpasses

/-- An operation of known code that is not in order ends in a fault; one whose descriptor is at fault leaves what the engine gives of memory (R295). -/
theorem opSel_of_bad (hcode : 1 ≤ op ∧ op ≤ 4)
    (hbad : (selAt m d die core op operand).2.2.2.1 = true ∨ ¬ selOperandOk d die core operand) :
    ∃ m', opSel m d die core op operand = (bankMerge d core m m', selFaulted d die core operand, 16) ∧
      ((selAt m d die core op operand).2.2.2.1 = true → m' = (selAt m d die core op operand).1) := by
  have hfails : ((selAt m d die core op operand).2.2.2.1 || !ownedBy d die core (bits (opLoc operand) 21 18) || bits operand 47 22 ≠ 0) = true := by
    simpa [selOperandOk, or_assoc, imp_iff_not_or] using hbad
  have hmask : (if (op = 0 || op > 4) = true then 2 else 1) = 1 := if_neg (by simp; omega)
  unfold opSel
  extract_lets own v addr c r o st m'
  exact ⟨m', (if_pos hfails).trans (by rw [hmask, selFaulted]), fun hfault => if_pos hfault⟩

/-- The counters of an operation that does not fault leave every part of the device that register writes leave. -/
theorem selDone_leaves {β : Type} (g : Dev → β) (hset : ∀ d o v, g (rset d o v) = g d) : g (selDone m d die core op operand) = g d :=
  (addWork_leaves g hset ..).trans (selChecked_leaves g hset)

/-- An operation that faults also sends a message to the warden. -/
theorem selFaulted_leaves {β : Type} (g : Dev → β) (hset : ∀ d o v, g (rset d o v) = g d)
    (hraise : ∀ d src die origin detail, g (raise d src die origin detail) = g d) : g (selFaulted d die core operand) = g d :=
  (addWork_leaves g hset ..).trans (engFault_leaves g hset _ hraise ..)

/-- What an operation counts and sets before its work leaves SEL_CTL. -/
theorem rget_selChecked_ctl : rget (selChecked m d die core op operand) (engReg die 3 core 0) = rget d (engReg die 3 core 0) := by
  have hlost : rget (selLost m d die core op operand).2 (engReg die 3 core 0) = rget d (engReg die 3 core 0) := by
    unfold selLost conflicts
    extract_lets alone n
    rw [rget_engCnt_ne _ _ _ _ _ (by decide)]
    split_ifs
    · rfl
    · exact rget_bankConf_engReg ..
  unfold selChecked cnt stick
  extract_lets lost
  split_ifs
  · contradiction
  · rw [rget_rset_ne _ _ _ _ (by unfold engReg; omega), rget_rset_ne _ _ _ _ (by unfold engReg; omega), hlost]
  · exact hlost

/-- SEL_LAST_CYC shows the length of an operation that does not fault, while cnt_freeze is clear (R302). -/
theorem selDone_lastCyc (hfree : bitAt (rget d (engReg die 3 core 0)) 1 = false) :
    rget (selDone m d die core op operand) (engReg die 3 core 0x20) = (selAt m d die core op operand).2.2.2.2 % 2 ^ 32 :=
  rget_addWork_selWork_lastCyc (by rwa [rget_selChecked_ctl]) ..

/-- SEL_LAST_CYC shows the 16 cycles of an operation that faults, while cnt_freeze is clear (R302). -/
theorem selFaulted_lastCyc (hfree : bitAt (rget d (engReg die 3 core 0)) 1 = false) :
    rget (selFaulted d die core operand) (engReg die 3 core 0x20) = 16 := by
  have hctl : rget (engFault d die 3 core 1 operand) (engReg die 3 core 0) = rget d (engReg die 3 core 0) :=
    rget_rset_ne _ _ _ _ (by unfold engReg; omega)
  exact rget_addWork_selWork_lastCyc (by rwa [hctl]) ..

/-- A fault shows as bad_desc: what the operation counts goes to other registers (R295). -/
theorem selFaulted_badDesc : bitAt (rget (selFaulted d die core operand) (engReg die 3 core 8)) 0 = true := by
  rw [selFaulted, rget_addWork_selWork_of_lt _ _ _ _ _ _ (by decide)]
  exact engFault_sticks rfl (by decide) ..

end

/-! ### The commands -/

/-- Each of the four commands runs the operation of its code on its core (R294). -/
theorem exec_of_selOp {die core operand op : Nat} {i : Instr} {s : State} (hup : coreUp s die core)
    (hi : (i, op) ∈ [(Instr.selSort die core operand, 1), (.selTopk die core operand, 2), (.selUniq die core operand, 3), (.selMerge die core operand, 4)]) :
    (1 ≤ op ∧ op ≤ 4) ∧ exec i s = .next (s.withMem (opSel s.mem s.dev die core op operand).1 (opSel s.mem s.dev die core op operand).2.1) := by
  simp only [List.mem_cons, List.not_mem_nil, or_false, Prod.mk.injEq] at hi
  rw [← runUnit_eq hup fun m d => opSel m d die core op operand]
  obtain ⟨rfl, rfl⟩ | ⟨rfl, rfl⟩ | ⟨rfl, rfl⟩ | ⟨rfl, rfl⟩ := hi <;> exact ⟨by decide, rfl⟩

/-- Settles O25: with the operand in order, by whether the descriptor is; with it out of order, a fault. -/
theorem selectOperationsRun : Obligations.SelectOperationsRun := by
  intro die core operand op i s hup hi
  obtain ⟨hcode, hexec⟩ := exec_of_selOp hup hi
  refine ⟨fun hown hres => ?_, fun hbad => ?_⟩
  · refine ⟨(opSel s.mem s.dev die core op operand).2.1, (selLost s.mem s.dev die core op operand).1, ?_⟩
    intro r
    have hr : r = selAt s.mem s.dev die core op operand := rfl
    rw [hr, hexec]
    cases hfault : (selAt s.mem s.dev die core op operand).2.2.2.1 with
    | false =>
      rw [opSel_of_ok ⟨hown, hres⟩ hfault]
      exact ⟨rfl, selDone_leaves Dev.eng rset_eng, selDone_leaves Dev.world rset_world, selDone_leaves Dev.q rset_q, selDone_lastCyc, nofun⟩
    | true =>
      obtain ⟨m', hop, hmem⟩ := opSel_of_bad hcode (.inl hfault)
      rw [hop, hmem hfault]
      exact ⟨rfl, selFaulted_leaves Dev.eng rset_eng raise_eng, selFaulted_leaves Dev.world rset_world raise_world,
        selFaulted_leaves Dev.q rset_q raise_q, selFaulted_lastCyc, fun _ => selFaulted_badDesc⟩
  · have hoperand : ¬ selOperandOk s.dev die core operand := fun ⟨hown, hres⟩ => hbad.elim (by simp [hown]) (absurd hres)
    obtain ⟨m', hop, -⟩ := opSel_of_bad hcode (.inr hoperand)
    exact ⟨selFaulted s.dev die core operand, bankMerge s.dev core s.mem m', by rw [hexec, hop], selFaulted_badDesc,
      selFaulted_leaves Dev.eng rset_eng raise_eng, selFaulted_leaves Dev.world rset_world raise_world⟩

end Sys2Proof.Machine

/-! PROOFS. Bundle streams (O28): a plan that is sealed, and the cycle at which its next bundle is issued. -/
namespace Sys2Proof.Machine

/-! ### Sorting -/

section
variable {α : Type} (le : α → α → Bool)

theorem insertBy_perm (x : α) (l : List α) : (insertBy le x l).Perm (x :: l) := by
  induction l with
  | nil => exact .refl _
  | cons y t ih =>
    unfold insertBy
    split
    · exact (ih.cons y).trans (.swap x y t)
    · exact .refl _

/-- A list sorted holds what the list holds. -/
theorem mem_sortBy {x : α} {l : List α} : x ∈ sortBy le l ↔ x ∈ l := by
  suffices h : ∀ acc, x ∈ l.foldl (fun acc y => insertBy le y acc) acc ↔ x ∈ l ∨ x ∈ acc by simpa [sortBy] using h []
  induction l with
  | nil => simp
  | cons y l ih =>
    intro acc
    rw [List.foldl_cons, ih, (insertBy_perm le y acc).mem_iff, List.mem_cons, List.mem_cons]
    tauto

/-- A first element that no other precedes stays first. -/
theorem sortBy_cons_of_least {a : α} {l : List α} (h : ∀ x ∈ l, le a x = true) : ∃ t, sortBy le (a :: l) = a :: t := by
  refine List.foldlRecOn (motive := fun acc => ∃ t, acc = a :: t) l _ ⟨[], rfl⟩ fun acc hacc x hx => ?_
  obtain ⟨t, rfl⟩ := hacc
  exact ⟨insertBy le x t, if_pos (h x hx)⟩

end

/-! ### Room in the queues (R314) -/

section
variable {d : Dev} {die c0 : Nat} {ops : List (Nat × OpEnt)}

/-- Where every unit has room at the first cycle, that is the cycle. -/
theorem roomFrom_now (hroom : ∀ o ∈ ops, queuedAt (unitOf d die o.1) c0 + (ops.filter fun p => p.1 == o.1).length ≤ 16) : roomFrom d die c0 ops = some c0 := by
  unfold roomFrom
  extract_lets units roomy
  have hroomy : roomy c0 = true := by
    refine List.all_eq_true.2 fun u hu => decide_eq_true ?_
    obtain ⟨o, ho, rfl⟩ := List.mem_map.1 (List.mem_eraseDups.1 hu)
    exact hroom o ho
  obtain ⟨t, ht⟩ := sortBy_cons_of_least (fun a b => decide (a ≤ b)) (a := c0)
    (l := units.flatMap fun u => (unitOf d die u).starts.filter fun s => decide (c0 < s)) fun x hx => by
      obtain ⟨u, -, hx⟩ := List.mem_flatMap.1 hx
      exact decide_eq_true (Nat.le_of_lt (of_decide_eq_true (List.mem_filter.1 hx).2))
  rw [ht, List.find?_cons_of_pos hroomy]

/-- No cycle before the first is one at which the units have room. -/
theorem le_of_roomFrom {f : Nat} (h : roomFrom d die c0 ops = some f) : c0 ≤ f := by
  obtain rfl | hf := List.mem_cons.1 ((mem_sortBy _).1 (List.mem_of_find?_eq_some h))
  · exact Nat.le_refl _
  · obtain ⟨u, -, hf⟩ := List.mem_flatMap.1 hf
    exact Nat.le_of_lt (of_decide_eq_true (List.mem_filter.1 hf).2)

/-- A unit whose queue is full now leaves no cycle with room. -/
theorem roomFrom_full {o : Nat × OpEnt} (ho : o ∈ ops) (hfull : 16 < (unitOf d die o.1).ops.length + (ops.filter fun p => p.1 == o.1).length) :
    roomFrom d die c0 ops = none := by
  refine List.find?_eq_none.2 fun t _ hroomy => ?_
  have hroom := of_decide_eq_true (List.all_eq_true.1 hroomy o.1 (List.mem_eraseDups.2 (List.mem_map_of_mem ho)))
  unfold queuedAt at hroom
  omega

end

/-! ### The next bundle -/

section
variable {d d' : Dev} {die cyc e len S c0 : Nat} {l : LatheRec} {ops : List (Nat × OpEnt)}

/-- The place of a unit follows from the tile map and the slot mapping. -/
theorem unitPlace_congr (h : d'.pkg = d.pkg) : unitPlace d' = unitPlace d := by
  funext die unit
  simp only [unitPlace, coresUsed, slotList, h]

/-- Counters of a lathe are registers. -/
theorem latheCnt_leaves {β : Type} (g : Dev → β) (hset : ∀ d o v, g (rset d o v) = g d) (d : Dev) (die o n : Nat) : g (latheCnt d die o n) = g d := by
  unfold latheCnt cntWrap
  split_ifs
  · rfl
  · rfl
  · exact hset ..

theorem latheCnt_zero (o : Nat) : latheCnt d die o 0 = d := by
  unfold latheCnt
  split_ifs
  · rfl
  · rfl

/-- An operation is put at the end of its unit's queue (R311). -/
def queueOp (die : Nat) (d : Dev) (o : Nat × OpEnt) : Dev := modUnit d die o.1 fun q => { q with ops := q.ops ++ [o.2] }

/-- Operations whose units are all there enter their queues, and none is an error. -/
theorem foldl_queueOp (hplaced : ∀ o ∈ ops, (unitPlace d die o.1).isSome = true) :
    ops.foldl (fun d o => if (unitPlace d die o.1).isSome then modUnit d die o.1 fun q => { q with ops := q.ops ++ [o.2] } else latheErr d die 1 0x036 o.1) d =
      ops.foldl (queueOp die) d := by
  induction ops generalizing d with
  | nil => rfl
  | cons o ops ih =>
    rw [List.foldl_cons, List.foldl_cons, if_pos (hplaced o List.mem_cons_self)]
    refine ih fun p hp => ?_
    rw [unitPlace_congr (modUnit_pkg ..)]
    exact hplaced p (List.mem_cons_of_mem _ hp)

variable (hon : latheOn d die = true) (hover : (latheOf d die).overrun = false) (hnext : nextBundle d die cyc = some (e, l, len, S, ops, c0))
  (hplaced : ∀ o ∈ ops, (unitPlace d die o.1).isSome = true)
include hon hover hnext hplaced

/-- At its first cycle a bundle is issued whose units all have room; no cycle is lost (R314). -/
theorem fxIssue_issues (hcyc : cyc = c0) (hroom : ∀ o ∈ ops, queuedAt (unitOf d die o.1) cyc + (ops.filter fun p => p.1 == o.1).length ≤ 16) :
    fxIssue d die cyc = latheCnt (ops.foldl (queueOp die) (modLathe (latheCnt d die 0x2C 0) die fun _ => nextPlace l e len cyc S)) die 0x28 1 := by
  subst hcyc
  have hgood := List.filter_eq_self.2 hplaced
  have hlost : cyc - max cyc l.stallTo = 0 := by omega
  simp only [fxIssue, hon, settle_no_overrun _ hover, hover, hnext, hgood, roomFrom_now hroom, hlost, latheCnt_zero, Bool.not_true, Bool.false_eq_true, if_false,
    ne_eq, not_true_eq_false]
  rw [foldl_queueOp (by rwa [unitPlace_congr (modLathe_pkg ..)])]

/-- Before its first cycle a bundle is not issued, whatever room there is (R314). -/
theorem fxIssue_early (hcyc : cyc < c0) : fxIssue d die cyc = d := by
  have hgood := List.filter_eq_self.2 hplaced
  simp only [fxIssue, hon, settle_no_overrun _ hover, hover, hnext, hgood, Bool.not_true, Bool.false_eq_true, if_false]
  cases hroom : roomFrom d die c0 ops with
  | none => exact if_pos hcyc
  | some f => exact if_pos (by have := le_of_roomFrom hroom; omega)

/-- From its first cycle on a bundle that finds a queue full is not issued, and the cycles lost count once (R314). -/
theorem fxIssue_stalls (hcyc : c0 ≤ cyc) (hfull : ∃ o ∈ ops, 16 < (unitOf d die o.1).ops.length + (ops.filter fun p => p.1 == o.1).length) :
    fxIssue d die cyc = modLathe (latheCnt d die 0x2C (cyc + 1 - max c0 l.stallTo)) die fun x => { x with stallTo := max x.stallTo (cyc + 1) } := by
  obtain ⟨o, ho, hfull⟩ := hfull
  have hgood := List.filter_eq_self.2 hplaced
  simp only [fxIssue, hon, settle_no_overrun _ hover, hover, hnext, hgood, roomFrom_full ho hfull, Bool.not_true, Bool.false_eq_true, if_false, Nat.not_lt.2 hcyc]

end

/-- Settles O28: the plan sealed, and the next bundle of a plan at its first cycle, before it, and at a full queue. -/
theorem bundlesRun : Obligations.BundlesRun := by
  intro die v cyc s ⟨h8, hdie⟩
  refine ⟨fun hv => ?_, fun e l hon hover hplan => ?_⟩
  · rw [exec_planSeal, execPlanSeal, onDie_withDev _ h8 hdie, fxPlanSeal, if_pos hv]
  · intro seg raw bs after S ops first hplaced
    have hnext : nextBundle s.dev die cyc = some (e, l, seg.2.1, S, ops, first) := by simp only [nextBundle, hplan]; rfl
    rw [exec_bundleIssue, execBundleIssue, onDie_withDev _ h8 hdie]
    refine ⟨fun hcyc hroom => ?_, fun hcyc => ?_, fun hcyc hfull => ?_⟩
    · rw [fxIssue_issues hon hover hnext hplaced hcyc hroom]
      rfl
    · rw [fxIssue_early hon hover hnext hplaced hcyc]
      rfl
    · rw [fxIssue_stalls hon hover hnext hplaced hcyc hfull]

end Sys2Proof.Machine

/-! PROOFS. Tokens and barriers (O52): tokens that are due, the common operations, barriers armed and released. -/
namespace Sys2Proof.Machine

/-! ### Lathes, units and barrier contexts of a device that has changed -/

section
variable (d : Dev) (die unit x : Nat)

@[simp] theorem latheOf_modLathe_self (f : LatheRec → LatheRec) : latheOf (modLathe d die f) die = f (latheOf d die) := by
  simp only [latheOf, modLathe, tgetD, tget_tput_self, Option.getD_some]

theorem latheOf_modLathe_ne {e : Nat} (h : e ≠ die) (f : LatheRec → LatheRec) : latheOf (modLathe d die f) e = latheOf d e := by
  simp only [latheOf, modLathe, tgetD, tget_tput_ne _ _ _ _ h]

@[simp] theorem unitOf_modUnit_self (f : UnitQ → UnitQ) : unitOf (modUnit d die unit f) die unit = f (unitOf d die unit) := by
  rw [unitOf, modUnit, latheOf_modLathe_self]
  simp only [tgetD, tget_tput_self, Option.getD_some]
  rfl

@[simp] theorem barOf_modBar_self (f : BarCtx → BarCtx) : barOf (modBar d die x f) die x = f (barOf d die x) := by
  rw [barOf, modBar, latheOf_modLathe_self]
  simp only [tgetD, tget_tput_self, Option.getD_some]
  rfl

theorem barOf_modBar_ne {e : Nat} (h : e ≠ die) (f : BarCtx → BarCtx) (y : Nat) : barOf (modBar d die x f) e y = barOf d e y := by
  rw [barOf, modBar, latheOf_modLathe_ne _ _ h, barOf]

/-- A unit's queues are no part of a barrier context. -/
@[simp] theorem barOf_modUnit (f : UnitQ → UnitQ) (e : Nat) : barOf (modUnit d die unit f) e x = barOf d e x := by
  by_cases h : e = die
  · subst h
    rw [barOf, modUnit, latheOf_modLathe_self, barOf]
  · rw [barOf, modUnit, latheOf_modLathe_ne _ _ h, barOf]

/-- A barrier context is no part of a unit's queues. -/
@[simp] theorem unitOf_modBar_self (f : BarCtx → BarCtx) : unitOf (modBar d die x f) die unit = unitOf d die unit := by
  rw [unitOf, modBar, latheOf_modLathe_self, unitOf]

@[simp] theorem modBar_regs (f : BarCtx → BarCtx) : (modBar d die x f).regs = d.regs := rfl

theorem barOf_congr {d d' : Dev} (h : d'.eng.lathes = d.eng.lathes) : barOf d' = barOf d := by
  funext die x
  simp only [barOf, latheOf, h]

end

/-! ### Tokens (R74, R320, R321) -/

section
variable {d : Dev} {die unit cyc : Nat} {t : Transit}

/-- The tokens on their way that are due at a unit. -/
def tokensDue (d : Dev) (die unit cyc : Nat) : List Transit := d.eng.transit.filter fun t => t.toDie == die && t.toUnit == unit && decide (t.due ≤ cyc)

/-- The device without the tokens that are due at a unit. -/
def tokensTaken (d : Dev) (die unit cyc : Nat) : Dev :=
  { d with eng := { d.eng with transit := d.eng.transit.filter fun t => !(t.toDie == die && t.toUnit == unit && decide (t.due ≤ cyc)) } }

/-- The queue of a unit that a token enters. -/
def tokQueue (d : Dev) (die unit : Nat) (t : Transit) : List Tok := if t.isData then (unitOf d die unit).data else (unitOf d die unit).credit

/-- A token enters its unit's queue, counted at cycle `seen`. -/
def tokEnters (d : Dev) (die unit : Nat) (t : Transit) (seen : Nat) : Dev := modUnit d die unit fun q =>
  if t.isData then { q with data := q.data ++ [{ t.tok with seen := seen }] } else { q with credit := q.credit ++ [{ t.tok with seen := seen }] }

/-- The one token that is due is taken off its way and counted or held. -/
theorem fxArrive_one (hdue : tokensDue d die unit cyc = [t]) : fxArrive d die unit cyc = takeToken (tokensTaken d die unit cyc) die unit cyc t := by
  simp only [tokensDue] at hdue
  simp only [fxArrive, hdue]
  rfl

variable (hfresh : t.held = none)
include hfresh

/-- A token of the same die, or one counted at its cycle, enters with the cycle at which it was due (R320). -/
theorem takeToken_due (hroom : (tokQueue d die unit t).length < 32) (hdue : t.tok.die = die ∨ t.due = cyc) :
    takeToken d die unit cyc t = tokEnters d die unit t t.due := by
  have hlate : (t.tok.die != die && decide (t.due < cyc)) = false := by
    obtain h | h := hdue <;> simp [h]
  unfold tokQueue at hroom
  simp only [takeToken, hfresh, ge_iff_le, Nat.not_le.2 hroom, hlate, Bool.true_and, Option.isNone_none, Option.isSome_none, Bool.or_self, Bool.false_eq_true, if_false]
  rfl

/-- A token of another die that is counted after its cycle raises LINK_LATE (R74). -/
theorem takeToken_late (hroom : (tokQueue d die unit t).length < 32) (hdie : t.tok.die ≠ die) (hdue : t.due < cyc) :
    takeToken d die unit cyc t = tokEnters (raise d 0x018 die unit t.tok.die) die unit t cyc := by
  have hlate : (t.tok.die != die && decide (t.due < cyc)) = true := by simp [hdie, hdue]
  unfold tokQueue at hroom
  simp only [takeToken, hfresh, ge_iff_le, Nat.not_le.2 hroom, hlate, Bool.true_and, Option.isNone_none, Option.isSome_none, Bool.or_true, Bool.false_eq_true, if_false,
    if_true]
  rfl

/-- A token that finds its queue full is held at its sender, which counts the cycles (R321). -/
theorem takeToken_full (hfull : 32 ≤ (tokQueue d die unit t).length) :
    takeToken d die unit cyc t =
      latheCnt { d with eng := { d.eng with transit := d.eng.transit ++ [{ t with held := some (cyc + 1) }] } } t.tok.die 0x30 (cyc + 1 - t.due) := by
  unfold tokQueue at hfull
  simp only [takeToken, hfresh, ge_iff_le, hfull, if_true, Option.getD_none]

end

/-! ### Barriers armed and waited for (R324, R325) -/

section
variable {d : Dev} {die unit operand cyc : Nat}

/-- A BAR_WAIT at a context that is not armed is held for it, and its unit waits (R325). -/
theorem fxBarWait_held (window : Nat) (used : List Tok) (harmed : (barOf d die (bits operand 2 0)).armed = false) :
    let x := bits operand 2 0; let d' := fxBarWait d die unit operand cyc window used
    (barOf d' die x).held = (barOf d die x).held ++ [(unit, cyc)] ∧ (unitOf d' die unit).waitBar = some (x, used) ∧
      (unitOf d' die unit).ops = (unitOf d die unit).ops ∧ d'.regs = d.regs := by
  simp [fxBarWait, harmed]

/-- A BAR_ARM of an armed context is an error (R324). -/
theorem fxArm_armed (harmed : (barOf d die (bits operand 2 0)).armed = true) : fxArm d die operand cyc = latheErr d die 2 0x039 (bits operand 2 0) := by
  simp only [fxArm, harmed, if_true]

/-- A BAR_ARM of a context at which nothing waits sets its masks (R324). -/
theorem fxArm_arms (harmed : (barOf d die (bits operand 2 0)).armed = false) (hheld : (barOf d die (bits operand 2 0)).held = [])
    (hmis : (barOf d die (bits operand 2 0)).mismatch = false) :
    fxArm d die operand cyc = modBar d die (bits operand 2 0) fun _ =>
      { armed := true, dieMask := bits operand 15 8, slotMask := bits operand 31 16, engMask := bits operand 36 32, armCyc := cyc, arrivals := [], held := [] } := by
  simp only [fxArm, harmed, hheld, hmis, Bool.false_eq_true, if_false, List.foldl_nil]

end

/-- Tokens that are due, the common operations, and barriers armed and waited for (R318 to R325). -/
theorem tokensMove : TokensMove := by
  intro die unit operand cyc s ⟨h8, hdie⟩ x
  refine ⟨fun t hdue hfresh => ?_, ?_, fun hrest => ⟨?_, fun harmed => ?_⟩, fun hdest hcount => ?_, ?_, fun harmed => ?_, fun harmed hheld hmis => ?_⟩
  · intro d enters
    rw [exec_tokenArrival, execTokenArrival, onDie_withDev _ h8 hdie, fxArrive_one hdue]
    refine ⟨fun hroom => ⟨fun hcyc => ?_, fun hother hlate => ?_⟩, fun hfull => ?_⟩
    · rw [takeToken_due (d := tokensTaken s.dev die unit cyc) hfresh hroom hcyc]
      rfl
    · rw [takeToken_late (d := tokensTaken s.dev die unit cyc) hfresh hroom hother hlate]
      rfl
    · rw [takeToken_full (d := tokensTaken s.dev die unit cyc) hfresh hfull]
      rfl
  · rw [exec_route, execRoute, onDie_withDev _ h8 hdie]
  · rw [exec_signal, execSignal, onDie_withDev _ h8 hdie, if_pos hrest]
  · rw [exec_barWait, execBarWait, onDie_withDev _ h8 hdie, if_pos hrest]
    exact ⟨_, rfl, fxBarWait_held 0 [] harmed⟩
  · rw [exec_grant, execGrant, onDie_withDev _ h8 hdie, fxGrant, if_neg hdest, Nat.min_eq_right hcount]
  · rw [exec_unitNop, execUnitNop, onDie_withDev _ h8 hdie]
    rfl
  · rw [exec_barArm, execBarArm, onDie_withDev _ h8 hdie, fxArm_armed harmed]
  · rw [exec_barArm, execBarArm, onDie_withDev _ h8 hdie, fxArm_arms harmed hheld hmis]

/-! ### The end of a wait (R316, R326) -/

section
variable {d : Dev} (die unit cyc : Nat)

theorem countLate_leaves {β : Type} (g : Dev → β) (hset : ∀ d o v, g (rset d o v) = g d) (d : Dev) (window ends : Nat) :
    g (countLate d die window cyc ends) = g d := by
  unfold countLate
  split_ifs
  · exact latheCnt_leaves g hset ..
  · rfl

/-- An operation that ends before the release phase is not late (R316). -/
theorem countLate_early {ends : Nat} (hends : ends ≤ workEnd d - 2000) (window : Nat) : countLate d die window cyc ends = d := by
  simp [countLate, Nat.not_lt.2 hends]

/-- Credits on their way back change nothing but the tokens on their way (R319). -/
theorem sendCredits_leaves {β : Type} (g : Dev → β)
    (hsend : ∀ d isData toDie toUnit cb, g (sendTok d die unit cyc isData toDie toUnit cb) = g d) (d : Dev) (used : List Tok) :
    g (sendCredits d die unit cyc used) = g d := foldl_leaves g (fun _ _ => hsend ..) _ d

/-- A wait that ends leaves what registers, its unit's queues and tokens on their way leave. -/
theorem endWait_leaves {β : Type} (g : Dev → β) (hset : ∀ d o v, g (rset d o v) = g d) (hunit : ∀ d f, g (modUnit d die unit f) = g d)
    (hsend : ∀ d isData toDie toUnit cb, g (sendTok d die unit cyc isData toDie toUnit cb) = g d) (d : Dev) : g (endWait d die unit cyc) = g d := by
  unfold endWait
  split
  · rfl
  · extract_lets late counted
    refine (sendCredits_leaves die unit cyc g hsend ..).trans ((hunit ..).trans ?_)
    unfold counted
    split_ifs
    · exact foldl_leaves g (fun _ _ => countLate_leaves die _ g hset ..) late d
    · rfl

/-- A wait that ends before the release phase counts in no register (R316). -/
theorem endWait_early (hcyc : cyc ≤ workEnd d - 2000) : (endWait d die unit cyc).regs = d.regs := by
  unfold endWait
  split
  · rfl
  · extract_lets late counted
    have hcounted : counted = d := by
      unfold counted
      rw [List.foldl_fixed' fun r => countLate_early die r.start hcyc r.window, ite_self]
    rw [hcounted]
    exact sendCredits_leaves die unit cyc Dev.regs (fun _ _ _ _ _ => rfl) ..

end

/-! ### Release (R326) -/

section
variable (x cyc : Nat) (d : Dev) (e : Nat)

/-- One die's context is released: its waits end and it keeps nothing but its mask. -/
def freeBar (d : Dev) (e : Nat) : Dev :=
  modBar ((barOf d e x).arrivals.foldl (fun d a => endWait d e a.1 cyc) d) e x fun b => { (default : BarCtx) with dieMask := b.dieMask }

theorem fxBarRelease_eq {die : Nat} (h : releaseCyc d die x = some cyc) :
    fxBarRelease d die x cyc = ((List.range 8).filter fun e => bitAt (barOf d die x).dieMask e).foldl (freeBar x cyc) d := if_neg (not_not.2 h)

/-- A wait that ends touches no context. -/
theorem barOf_endWait (unit y : Nat) : barOf (endWait d e unit cyc) y x = barOf d y x := by
  refine endWait_leaves e unit cyc (fun d => barOf d y x) (fun d o v => ?_) (fun d f => barOf_modUnit d e unit x f y) (fun d isData toDie toUnit cb => ?_) d
  · rw [barOf_congr (congrArg EngDev.lathes (rset_eng d o v))]
  · rw [barOf_congr (d := d) (d' := sendTok d e unit cyc isData toDie toUnit cb) rfl]

theorem barOf_endWaits (l : List (Nat × Nat)) (y : Nat) : barOf (l.foldl (fun d a => endWait d e a.1 cyc) d) y x = barOf d y x := by
  induction l generalizing d with
  | nil => rfl
  | cons a l ih => exact (ih _).trans (barOf_endWait x cyc d e a.1 y)

theorem barOf_freeBar_self : barOf (freeBar x cyc d e) e x = { (default : BarCtx) with dieMask := (barOf d e x).dieMask } := by
  rw [freeBar, barOf_modBar_self, barOf_endWaits]

theorem barOf_freeBar_ne {y : Nat} (h : y ≠ e) : barOf (freeBar x cyc d e) y x = barOf d y x := by
  rw [freeBar, barOf_modBar_ne _ _ _ h, barOf_endWaits]

theorem dieMask_freeBar (y : Nat) : (barOf (freeBar x cyc d e) y x).dieMask = (barOf d y x).dieMask := by
  by_cases h : y = e
  · rw [h, barOf_freeBar_self]
  · rw [barOf_freeBar_ne _ _ _ _ h]

theorem endWait_world (unit : Nat) : (endWait d e unit cyc).world = d.world :=
  endWait_leaves e unit cyc Dev.world rset_world (fun d f => modUnit_world d e unit f) (fun _ _ _ _ _ => rfl) d

theorem freeBar_world : (freeBar x cyc d e).world = d.world :=
  foldl_leaves Dev.world (fun (d : Dev) (a : Nat × Nat) => endWait_world cyc d e a.1) (barOf d e x).arrivals d

theorem workEnd_congr {d d' : Dev} (h : d'.regs = d.regs) : workEnd d' = workEnd d := by
  simp only [workEnd, turnCycles, turnLen, rget, h]

/-- A release before the release phase counts in no register (R316). -/
theorem freeBar_early (hcyc : cyc ≤ workEnd d - 2000) : (freeBar x cyc d e).regs = d.regs := by
  refine List.foldlRecOn (motive := fun d' : Dev => d'.regs = d.regs) (barOf d e x).arrivals (fun d a => endWait d e a.1 cyc) rfl fun d' hd' a _ => ?_
  exact (endWait_early e a.1 cyc (by rwa [workEnd_congr hd'])).trans hd'

/-- After the release no die of the mask is armed or has arrivals. -/
theorem released_idle {l : List Nat} {y : Nat} (hy : y ∈ l) :
    (barOf (l.foldl (freeBar x cyc) d) y x).armed = false ∧ (barOf (l.foldl (freeBar x cyc) d) y x).arrivals = [] := by
  refine foldl_establishes (P := fun d => (barOf d y x).armed = false ∧ (barOf d y x).arrivals = []) hy (fun d => ?_) (fun d e hd => ?_) d
  · rw [barOf_freeBar_self]
    exact ⟨rfl, rfl⟩
  · by_cases h : y = e
    · rw [h, barOf_freeBar_self]
      exact ⟨rfl, rfl⟩
    · rwa [barOf_freeBar_ne _ _ _ _ h]

end

/-- A barrier is released on every die of its mask (R326), and only waits that last into the release phase count (R316). -/
theorem barrierReleases : BarrierReleases := by
  intro die x cyc s ⟨h8, hdie⟩ hrel
  refine ⟨fxBarRelease s.dev die x cyc, ?_, ?_⟩
  · rw [exec_barrierRelease, execBarrierRelease, onDie_withDev _ h8 hdie]
  · rw [fxBarRelease_eq _ _ _ hrel]
    refine ⟨fun hcyc => ?_, foldl_leaves Dev.world (freeBar_world x cyc) _ _, fun e he hmask => ?_⟩
    · exact List.foldlRecOn (motive := fun d => d.regs = s.dev.regs) _ _ rfl fun d hd e _ => (freeBar_early x cyc d e (by rwa [workEnd_congr hd])).trans hd
    · obtain ⟨harmed, harrivals⟩ := released_idle x cyc s.dev (List.mem_filter.2 ⟨List.mem_range.2 he, hmask⟩)
      exact ⟨harmed, harrivals, foldl_leaves (fun d => (barOf d e x).dieMask) (fun d a => dieMask_freeBar x cyc d a e) _ _⟩

/-- Settles O52: tokens and barriers as they move, and the release. -/
theorem tokensAndBarriersRun : Obligations.TokensAndBarriersRun := ⟨tokensMove, barrierReleases⟩

end Sys2Proof.Machine

/-! PROOFS. The start of the head operation of a unit (O29): what each code does, and what leaves the unit with it. -/
namespace Sys2Proof.Machine

/-! ### The head operation -/

section
variable (fz : Fuses) (m : Mem) (d : Dev) (die unit cyc : Nat) (ue : Option Nat) (u : UnitDesc) (o : OpEnt) (rest : List OpEnt)

/-- The head operation has left its unit's queue with the tokens that it takes (R315, R319). -/
def headTaken : Dev := modUnit d die unit fun q =>
  { q with ops := rest, data := q.data.drop o.data, credit := q.credit.drop o.credit, runs := stillRuns q cyc, starts := (cyc :: q.starts).take 16 }

/-- The head operation runs for `len` cycles from `cyc` on. -/
def headRuns (len : Nat) : Dev := modUnit d die unit fun q =>
  { q with runs := q.runs ++ [{ code := o.code, operand := o.operand, window := o.window, ends := cyc + len, start := cyc }] }

/-- At the end of the head operation the credits of the data tokens `used` go back, and an operation that ends in the release phase counts (R316, R319). -/
def headEnds (used : List Tok) (len : Nat) : Dev := countLate (sendCredits d die unit (cyc + len) used) die o.window cyc (cyc + len)

/-- What the head operation does by its code, with its length (R323): one of the unit's own, ROUTE, SIGNAL with the unit's route, GRANT, NOP, or an error. -/
def headDoes (route : Nat) : UnitRes :=
  if o.code < 0xf0 then runOwn fz m d die unit o.code o.operand cyc ue u
  else if o.code = 0xf0 then (m, modUnit d die unit fun q => { q with route := o.operand }, 1)
  else if o.code = 0xf1 then (m, sendRoute d die unit (cyc + 1) route, 1)
  else if o.code = 0xf2 then (m, fxGrant d die unit o.operand (cyc + 1), 1)
  else if o.code = 0xff then (m, d, 1)
  else (m, latheErr d die 0 0x037 o.code, 1)

/-- A common operation moves no bulk memory and is not late (R330). -/
theorem bulkLate_common {code : Nat} (hcode : 0xf0 ≤ code) (len : Nat) : bulkLate d die unit code cyc len = (len, d) := by
  have h1 : (code == 1) = false := beq_false_of_ne (by omega)
  have h2 : (code == 2) = false := beq_false_of_ne (by omega)
  simp only [bulkLate, h1, h2, Bool.or_self, Bool.and_false, Bool.not_false, Bool.true_or, if_true]

variable {fz m d die unit cyc ue u o rest} (hops : (unitOf d die unit).ops = o :: rest) (hstart : startsNow m d die unit cyc = true)
include hops hstart

/-- A unit starts work only at a lathe that no overrun holds (R329). -/
theorem overrun_of_startsNow : (latheOf d die).overrun = false := by
  simp only [startsNow, hops, Bool.and_eq_true, Bool.not_eq_true'] at hstart
  exact hstart.1.2

/-- A BAR_WAIT takes its tokens and begins to wait (R325). -/
theorem fxStart_barWait (hcode : o.code = 0xf3) :
    fxStart fz m d die unit cyc ue u =
      (m, fxBarWait (headTaken d die unit cyc o rest) die unit o.operand cyc o.window ((unitOf d die unit).data.take o.data)) := by
  simp only [fxStart, hops, hstart, Bool.not_true, Bool.false_eq_true, if_false, hcode, if_true]
  rfl

/-- Any other operation does its work, and its data tokens and credits leave when it completes (R315, R318, R319). -/
theorem fxStart_does (hwait : o.code ≠ 0xf3) :
    fxStart fz m d die unit cyc ue u =
      let route := (unitOf d die unit).route
      let r := headDoes fz m (headTaken d die unit cyc o rest) die unit cyc ue u o route
      let late := bulkLate r.2.1 die unit o.code cyc r.2.2
      let runs := headRuns late.2 die unit cyc o late.1
      (r.1, headEnds (if o.code < 0xf0 then sendRoute runs die unit (cyc + late.1) route else runs) die unit cyc o ((unitOf d die unit).data.take o.data) late.1) := by
  simp only [fxStart, hops, hstart, Bool.not_true, Bool.false_eq_true, if_false, hwait]
  rfl

/-- One of the unit's own operations may be late, and sends its data tokens by its route (R318, R330). -/
theorem fxStart_own (hcode : o.code < 0xf0) :
    fxStart fz m d die unit cyc ue u =
      let r := runOwn fz m (headTaken d die unit cyc o rest) die unit o.code o.operand cyc ue u
      let late := bulkLate r.2.1 die unit o.code cyc r.2.2
      (r.1, headEnds (sendRoute (headRuns late.2 die unit cyc o late.1) die unit (cyc + late.1) (unitOf d die unit).route) die unit cyc o
        ((unitOf d die unit).data.take o.data) late.1) := by
  rw [fxStart_does hops hstart (by omega)]
  simp only [headDoes, hcode, if_true]

/-- A common operation but BAR_WAIT has its effect and completes a cycle later, with no data token (R323). -/
theorem fxStart_common (hcode : 0xf0 ≤ o.code) (hwait : o.code ≠ 0xf3) {d' : Dev}
    (heffect : headDoes fz m (headTaken d die unit cyc o rest) die unit cyc ue u o (unitOf d die unit).route = (m, d', 1)) :
    fxStart fz m d die unit cyc ue u = (m, headEnds (headRuns d' die unit cyc o 1) die unit cyc o ((unitOf d die unit).data.take o.data) 1) := by
  rw [fxStart_does hops hstart hwait]
  simp only [heffect, bulkLate_common _ _ _ _ hcode, Nat.not_lt.2 hcode, if_false]

end

/-- Where its head operation starts, OPERATION_START without bank errors is that start. -/
theorem exec_operationStart_starts {s : State} {die unit cyc : Nat} {u : UnitDesc} {o : OpEnt} {rest : List OpEnt} (hup : dieUp s die)
    (hstart : startsNow s.mem s.dev die unit cyc = true) (hops : (unitOf s.dev die unit).ops = o :: rest) :
    exec (.operationStart die unit cyc none none none u) s =
      .next (s.withMem (fxStart s.fuses s.mem s.dev die unit cyc none u).1 (fxStart s.fuses s.mem s.dev die unit cyc none u).2) := by
  rw [exec_operationStart, execOperationStart, onDie_pop hup.1 hup.2, onMem_eq]
  simp only [settle_no_overrun _ (overrun_of_startsNow hops hstart), hstart, if_true]
  rfl

/-- Settles O29: the head operation by its code. -/
theorem operationStartRuns : Obligations.OperationStartRuns := by
  intro die unit cyc u o rest s hup hstart hops x d0 started finish
  rw [exec_operationStart_starts hup hstart hops]
  have hcommon : ∀ {d}, 0xf0 ≤ o.code → o.code ≠ 0xf3 → headDoes s.fuses s.mem d0 die unit cyc none u o x.route = (s.mem, d, 1) →
      (Host.Outcome.next (s.withMem (fxStart s.fuses s.mem s.dev die unit cyc none u).1 (fxStart s.fuses s.mem s.dev die unit cyc none u).2) :
        Host.Outcome State Fault Refusal) = .next (s.withDev (finish (started d 1) 1)) := fun hcode hwait heffect => by
    rw [fxStart_common hops hstart hcode hwait heffect]
    rfl
  refine ⟨fun hcode => ?_, fun hcode => ?_, fun hcode => ?_, fun hcode => ?_, fun hcode => ?_, fun hcode => ?_, fun hlow hcode => ?_⟩
  · rw [fxStart_own hops hstart hcode]
    rfl
  · exact hcommon (by omega) (by omega) (by simp [headDoes, hcode])
  · exact hcommon (by omega) (by omega) (by simp [headDoes, hcode])
  · exact hcommon (by omega) (by omega) (by simp [headDoes, hcode])
  · rw [fxStart_barWait hops hstart hcode]
    rfl
  · exact hcommon (by omega) (by omega) (by simp [headDoes, hcode])
  · have hcodes : ¬ o.code < 0xf0 ∧ o.code ≠ 0xf0 ∧ o.code ≠ 0xf1 ∧ o.code ≠ 0xf2 := by omega
    exact hcommon (by omega) (by omega) (by simp [headDoes, hcode, hcodes])

end Sys2Proof.Machine

/-! PROOFS. Owners of banks and the background test of banks (O30). -/
namespace Sys2Proof.Machine

section
variable {d : Dev} {die b v : Nat}

/-- An owner is staged beside the bank's present one (R333). -/
theorem fxOwnerStage_stages (hin : bankRemoved d die b = false) :
    fxOwnerStage d die b v = { d with eng := { d.eng with owner := tput d.eng.owner (die * 16 + b) (bankOwner d die b, bits v 12 8, true) } } := by
  simp only [fxOwnerStage, hin, Bool.false_eq_true, if_false]

/-- A bank that is out of use takes no owner (R334). -/
theorem fxOwnerStage_removed (hout : bankRemoved d die b = true) : (fxOwnerStage d die b v).eng = d.eng := by
  simp only [fxOwnerStage, hout, if_true]
  split_ifs
  · rfl
  · exact cnt_eng ..

/-- The background test of a region that is due (R339). -/
theorem fxBankTest_tests {fail : Bool} (hon : bitAt (rget d (dieWin die + 0x11000)) 2 = true)
    (hdue : ∀ st, (tgetD d.eng.tests (die * 16 + b) default).started = some st → st + bits (rget d (dieWin die + 0x11004)) 15 0 ≤ d.time.turn) :
    fxBankTest d die b fail =
      let t := tgetD d.eng.tests (die * 16 + b) default; let w := dieWin die
      let d1 := rset d (w + 0x10004 + 0x100 * b) (t.region * 16)
      let d2 := if fail then raise (rset d1 (w + 0x10018 + 0x100 * b) (0x80000000 + t.region)) 0x021 die (0x90 + b) t.region else d1
      let d3 := if t.region = 2559 then cntWrap d2 (w + 0x10014 + 0x100 * b) else d2
      { d3 with eng := { d3.eng with
        tests := tput d3.eng.tests (die * 16 + b) { region := if t.region = 2559 then 0 else t.region + 1, started := some d3.time.turn } } } := by
  unfold fxBankTest
  cases hst : (tgetD d.eng.tests (die * 16 + b) default).started with
  | none => simp [hon, hst]
  | some st => simp [hon, hst, hdue st hst]

end

/-- Settles O30: owners of banks in use and out of use, and a region whose test is due. -/
theorem banksRun : Obligations.BanksRun := by
  intro die bank v s h8 hbank hdie t w
  refine ⟨fun hin => ?_, fun hout => ?_, fun fail hon hdue => ?_⟩
  · refine ⟨fxOwnerStage s.dev die bank v, onCore_pop h8 hbank hdie, ?_⟩
    rw [fxOwnerStage_stages hin]
    refine ⟨tget_tput_self .., ?_, rfl⟩
    simp only [bankOwner, tget_tput_self, Option.map_some, Option.getD_some]
  · exact ⟨_, onCore_pop h8 hbank hdie, fxOwnerStage_removed hout⟩
  · intro d1 d2 d3
    have hturn : d3.time.turn = s.dev.time.turn := by
      unfold d3 d2 d1
      split_ifs <;> simp
    rw [exec_bankTestRegion, execBankTestRegion, onCore_pop h8 hbank hdie, onMem_eq, fxBankTest_tests hon hdue, ← hturn]
    rfl

end Sys2Proof.Machine

/-! PROOFS. Program images and configuration bundles (O59). -/
namespace Sys2Proof.Machine

/-! ### Replies -/

section
variable {β : Type} (g : Dev → β) (hhost : ∀ (d : Dev) (x : HostDev), g { d with host := x } = g d)
include hhost

theorem replyTo_leaves (d : Dev) (p q seq : Nat) (r : Reply) : g (replyTo d p q seq r) = g d := by
  unfold replyTo
  split
  · rfl
  · split_ifs
    · rfl
    · exact hhost ..

theorem egress_leaves (d : Dev) (f : EgFrame) : g (egress d f) = g d := by
  unfold egress
  split_ifs
  · rfl
  · exact hhost ..

/-- A reply waits at a pair or leaves as a frame, and counts at its agent; it leaves the rest of the device (R361, R377). -/
theorem reply_leaves (hworld : ∀ (d : Dev) (x : World), g { d with world := x } = g d) (d : Dev) (c : Cmd) (status detail : Nat) (result : Option Bytes)
    (admitted released due idx : Nat) : g (reply d c status detail result admitted released due idx) = g d := by
  unfold reply
  extract_lets r
  split
  · exact replyTo_leaves g hhost ..
  · split_ifs
    · cases replayPair d with
      | none => rfl
      | some _ => exact replyTo_leaves g hhost ..
    · split
      · rfl
      · exact (egress_leaves g hhost ..).trans (hworld ..)
  · rfl

end

/-! ### Program images (R340 to R342) -/

section
variable {d : Dev} {c : Cmd}

/-- A LOAD_IMAGE in format and range fills the standby slot, or answers BAD_STATE where the image is for another firmware (R340). -/
theorem fxLoadImage_fills (hformat : imgFormatOk c.block = true) (hrange : imgRangeOk c.block = true) (hpreds : predsFit d c.block = true) (hat : d.img.at_ = none)
    (hidle : d.img.loading = none) :
    fxLoadImage d c = if fld c.block 16 1 = Config.fwMajor then { d with img := { d.img with
        standby := false, slots := tput d.img.slots (1 - d.img.active) { raw := c.block, ready := false }, loading := some (c, d.time.turn) } }
      else answer { d with img := { d.img with standby := false } } c stBadState 0 := by
  by_cases hfw : fld c.block 16 1 = Config.fwMajor
  · simp [fxLoadImage, hformat, hrange, hpreds, hat, hidle, hfw, modImg]
  · simp [fxLoadImage, hformat, hrange, hpreds, hat, hidle, hfw, modImg]

/-- The image unit with the verdict on the standby slot (R340). -/
def imgJudged (x : ImgDev) (good : Bool) : ImgDev :=
  { x with loading := none, standby := good, slots := tmod x.slots (1 - x.active) fun s => { s with ready := good } }

/-- The end of a load takes the signature's verdict, and leaves what its reply leaves (R340, R364). -/
theorem fxLoadImageEnd_leaves {turn : Nat} (hload : d.img.loading = some (c, turn)) {β : Type} (g : Dev → β)
    (hhost : ∀ (d : Dev) (x : HostDev), g { d with host := x } = g d) (hworld : ∀ (d : Dev) (x : World), g { d with world := x } = g d) :
    g (fxLoadImageEnd d) = g (modImg d (imgJudged · (Config.imageSigned (imgRaw d (1 - d.img.active))))) := by
  simp only [fxLoadImageEnd, hload]
  split_ifs
  · exact reply_leaves g hhost hworld ..
  · exact reply_leaves g hhost hworld ..

/-- An ACTIVATE_IMAGE of a standby image that fits the maps sets the activation turn (R341). -/
theorem fxActivateImage_sets (hlen : c.block.length = 8) (hzero : fld c.block 6 2 = 0) (hready : d.img.standby = true) (hturn : d.time.turn + 1 < fld c.block 0 6)
    (hslots : slotsHold d (imgRaw d (1 - d.img.active)) = true) (halone : fabricMember d = false) :
    fxActivateImage d c = ok { d with img := { d.img with at_ := some (fld c.block 0 6) } } c := by
  simp [fxActivateImage, hlen, hzero, hready, Nat.not_le.2 hturn, hslots, halone, modImg]

theorem dropPass_img (d : Dev) (h : Nat) : (dropPass d h).img = d.img := by
  unfold dropPass
  split
  · rfl
  · split_ifs
    · rfl
    · rw [cnt_img, modMap_img]

/-- A switch makes the standby slot the active one (R342). -/
theorem switchImage_img : (switchImage d).img = { d.img with active := 1 - d.img.active, standby := true, at_ := none } := by
  unfold switchImage
  dsimp only
  split_ifs
  · rfl
  · exact foldl_leaves Dev.img dropPass_img _ _

end

/-- The commands on program images (R340 to R342). -/
theorem imageCommandsRun : ImageCommandsRun := by
  intro c s hpf
  refine ⟨fun hformat hrange hpreds hat hidle => ?_, fun turn hload => ?_, fun hlen hzero hready hturn hslots halone => ?_, fun a hat hturn => ?_⟩
  · rw [exec_loadImage, execLoadImage, onDev_withDev, pfOnly_pf hpf, fxLoadImage_fills hformat hrange hpreds hat hidle]
  · have himg : (fxLoadImageEnd s.dev).img = imgJudged s.dev.img (Config.imageSigned (imgRaw s.dev (1 - s.dev.img.active))) :=
      fxLoadImageEnd_leaves hload Dev.img (fun _ _ => rfl) (fun _ _ => rfl)
    exact ⟨_, rfl, congrArg ImgDev.loading himg, congrArg ImgDev.standby himg, (congrArg ImgDev.active himg).trans rfl,
      fxLoadImageEnd_leaves hload Dev.regs (fun _ _ => rfl) (fun _ _ => rfl), fxLoadImageEnd_leaves hload Dev.ldg (fun _ _ => rfl) (fun _ _ => rfl)⟩
  · rw [exec_activateImage, execActivateImage, onDev_withDev, pfOnly_pf hpf, fxActivateImage_sets hlen hzero hready hturn hslots halone]
  · refine ⟨switchImage s.dev, ?_, rfl, ?_⟩
    · rw [exec_imageActivate, execImageActivate, onDev_withDev]
      simp only [fxImageActivate, hat, hturn, if_true]
    · rw [switchImage_img]
      exact ⟨rfl, rfl, rfl⟩

/-! ### Configuration bundles (R529 to R531) -/

section
variable {d : Dev} {c : Cmd}

/-- The header of a bundle's command is in range, its digest is that of its sections, which are `l`, and each passes its checks (R526, R529). -/
structure BundlePasses (d : Dev) (c : Cmd) (l : List (Nat × Nat × Nat × Bytes)) : Prop where
  length : 72 ≤ c.block.length
  op : fld c.block 0 2 = 0
  zero : allZero (slice c.block 3 5) = true
  flags : fld (c.block.drop 8) 6 2 = 0
  tail : allZero (slice (c.block.drop 8) 40 24) = true
  least : 1 ≤ fld (c.block.drop 8) 4 2
  most : fld (c.block.drop 8) 4 2 ≤ 2048
  gen : fld (c.block.drop 8) 0 4 = ((d.fab.cfg.map (·.gen)).getD 0 + 1) % 2 ^ 32
  digest : sha256 ((c.block.drop 8).drop 64) = slice (c.block.drop 8) 8 32
  secs : bundleSecs (fld (c.block.drop 8) 4 2) ((c.block.drop 8).drop 64) = some l
  once : ∀ k ∈ [1, 4, 5, 6], (l.filter fun s => s.1 == k).length ≤ 1
  each : l.findSome? (secFail d l) = none

/-- A bundle that passes its checks is verified, where no commit is due and there is room (R529). -/
theorem fxCfgStage_verifies {l : List (Nat × Nat × Nat × Bytes)} (h : BundlePasses d c l) (hcommit : d.fab.commitTurn = none) (hreplay : d.ldg.replay = false)
    (hstore : storeFull d (bundleStore d l) = false) (hidle : d.fab.staging = none) :
    fxCfgStage d c = modFab d fun x => { x with
      staging := some ({ gen := fld (c.block.drop 8) 0 4, digest := slice (c.block.drop 8) 8 32, secs := l }, c, d.time.turn) } := by
  have hgen := h.gen
  have hsome : fld (c.block.drop 8) 4 2 ≠ 0 := Nat.one_le_iff_ne_zero.1 h.least
  have honce := h.once
  simp only [List.mem_cons, List.not_mem_nil, or_false, forall_eq_or_imp, forall_eq] at honce
  unfold fxCfgStage
  extract_lets raw gen n secs one
  have hsecs : secs = some l := h.secs
  refine (if_neg ?_).trans ((if_neg (not_not.2 h.digest)).trans ?_)
  · simp [h.length, h.op, h.zero, h.flags, h.tail, hsome, h.most, hgen, raw, gen, n]
  · simp [hsecs, one, honce, h.each, hcommit, hreplay, hstore, fxCfgStageEnd, hidle, raw, gen]

/-- The verification of a bundle that is in progress ends with the bundle staged (R529, R364). -/
theorem fxCfgStageEnd_stages {b : BundleRec} {turn : Nat} (h : d.fab.staging = some (b, c, turn)) :
    fxCfgStageEnd d = reply { d with fab := { d.fab with staging := none, staged := some b } } c 0 b.gen none turn 0 0 0 := by
  simp only [fxCfgStageEnd, h, modFab]

/-- A CFG_COMMIT of the staged generation sets the commit turn (R530). -/
theorem fxCfgCommit_sets {b : BundleRec} (hlen : c.block.length = 12) (hzero : fld c.block 10 2 = 0) (hstaged : d.fab.staged = some b) (hgen : b.gen = fld c.block 0 4)
    (hturn : d.time.turn + 4 ≤ fld c.block 4 6) (hcommit : d.fab.commitTurn = none) (hreplay : d.ldg.replay = false) :
    fxCfgCommit d c = ok { d with fab := { d.fab with commitTurn := some (fld c.block 4 6) } } c (fld c.block 0 4) := by
  simp [fxCfgCommit, hlen, hzero, hstaged, hgen, Nat.not_lt.2 hturn, hcommit, hreplay, modFab]

variable {fz : Fuses} {b : BundleRec} {t : Nat} (hcommit : d.fab.commitTurn = some t) (hstaged : d.fab.staged = some b) (hturn : t ≤ d.time.turn)
include hcommit hstaged hturn

/-- In its turn a bundle that fits is applied and becomes the committed one (R531). -/
theorem fxCommit_applies (hfits : commitFits d b = true) :
    fxCommit fz d = modFab (applyObjects (applyImage (applyTable fz (applyPolders (applyRegs d b) b) b) b) b) fun x => { x with
      cfg := some b, staged := none, commitTurn := none } := by
  simp [fxCommit, hcommit, hstaged, Nat.not_lt.2 hturn, hfits]

/-- A bundle that does not fit marks the abort and signals vector 58 (R531). -/
theorem fxCommit_aborts (hfits : commitFits d b = false) :
    fxCommit fz d = irq (raise (modFab d fun x => { x with commitTurn := none, aborted := true }) 0x063 0 0xF0 0) 0 58 := by
  simp [fxCommit, hcommit, hstaged, Nat.not_lt.2 hturn, hfits]

end

/-- A warden source raised with an interrupt changes the warden, the host side and what was sent (R359, R450). -/
theorem irq_raise_leaves {β : Type} (g : Dev → β) (hhost : ∀ (d : Dev) (x : HostDev), g { d with host := x } = g d) (hsend : ∀ d o, g (send d o) = g d)
    (hraise : ∀ d src die origin detail, g (raise d src die origin detail) = g d) (d : Dev) (src die origin detail fn vec : Nat) :
    g (irq (raise d src die origin detail) fn vec) = g d := by
  refine Eq.trans ?_ (hraise d src die origin detail)
  unfold irq
  extract_lets k
  split_ifs
  · exact hhost ..
  · exact hhost ..
  · exact hsend ..

/-- The commands on configuration bundles (R529 to R531). -/
theorem bundleCommandsRun : BundleCommandsRun := by
  intro c s hpf
  refine ⟨?_, fun b turn h => ?_, fun b hlen hzero hstaged hgen hturn hcommit hreplay => ?_, fun b t hcommit hstaged hturn => ?_⟩
  · intro raw l hlen hop hzero hflags htail hsome hmost hgen hdigest hsecs honce heach hcommit hreplay hstore hidle
    have hpasses : BundlePasses s.dev c l := ⟨hlen, hop, hzero, hflags, htail, hsome, hmost, hgen, hdigest, hsecs, honce, heach⟩
    rw [exec_cfgStage, execCfgStage, onDev_withDev, pfOnly_pf hpf, fxCfgStage_verifies hpasses hcommit hreplay hstore hidle]
    rfl
  · rw [exec_cfgStageEnd, execCfgStageEnd, onDev_withDev, fxCfgStageEnd_stages h]
  · rw [exec_cfgCommit, execCfgCommit, onDev_withDev, pfOnly_pf hpf, fxCfgCommit_sets hlen hzero hstaged hgen hturn hcommit hreplay]
  · refine ⟨fxCommit s.fuses s.dev, rfl, ?_⟩
    cases hfits : commitFits s.dev b with
    | true =>
      rw [fxCommit_applies hcommit hstaged hturn hfits]
      exact ⟨rfl, fun _ => ⟨rfl, rfl⟩, nofun⟩
    | false =>
      rw [fxCommit_aborts hcommit hstaged hturn hfits]
      have hfab := irq_raise_leaves Dev.fab (fun _ _ => rfl) send_fab raise_fab (modFab s.dev fun x => { x with commitTurn := none, aborted := true }) 0x063 0 0xF0 0 0 58
      exact ⟨congrArg FabDev.commitTurn hfab, nofun, fun _ => ⟨(congrArg FabDev.cfg hfab).trans rfl, congrArg FabDev.aborted hfab,
        irq_raise_leaves Dev.regs (fun _ _ => rfl) send_regs raise_regs .., irq_raise_leaves Dev.pld (fun _ _ => rfl) send_pld raise_pld ..,
        irq_raise_leaves Dev.world (fun _ _ => rfl) send_world raise_world .., irq_raise_leaves Dev.img (fun _ _ => rfl) send_img raise_img ..⟩⟩

/-- Settles O59: the commands on program images and those on configuration bundles. -/
theorem imagesAndBundlesRun : Obligations.ImagesAndBundlesRun := ⟨imageCommandsRun, bundleCommandsRun⟩

end Sys2Proof.Machine

/-! PROOFS. NOP and QUERY_STATUS (O48), commands on models and primitive sets (O5), and commands on the twin and on dies (O13). -/
namespace Sys2Proof.Machine

/-! ### Commands that only ask (R366, R367, R375) -/

section
variable {d : Dev} {c : Cmd}

/-- The reply of a command of an enabled pair waits in the pair's list, unless the pair has lost it (R364). -/
theorem replyTo_waits {p q seq : Nat} {pr : PairRec} (r : Reply) (hlisted : tget d.host.pairs (pairKey p q) = some pr) (hon : pr.enabled = true)
    (hkept : lostReply pr seq = false) :
    replyTo d p q seq r = { d with host := { d.host with pairs := tput d.host.pairs (pairKey p q) { pr with waiting := queueReply pr.waiting r } } } := by
  have htakes : ¬ (!(pr.enabled || pr.busy) || lostReply pr seq) = true := by simp [hon, hkept]
  simp only [replyTo, hlisted, if_neg htakes]

/-- What an `ok` answers to the pair that the command came from: OK in the turn of its ledger (R364, R366). -/
def okReply (d : Dev) (c : Cmd) : Reply :=
  { tag := c.tag, status := 0, admitted := d.time.turn, released := 0, detail := 0, result := none, noIrq := c.noIrq, due := d.time.turn, idx := d.ldg.pos,
    replayed := d.ldg.replay }

theorem ok_host {p q : Nat} (h : c.origin = .host p q) : ok d c = replyTo d p q c.seq (okReply d c) := by
  simp [ok, answer, reply, h, okReply]

/-- In a turn QUERY_STATUS waits for the turn's end (R375). -/
theorem fxQueryStatus_waits (h : d.ldg.replay = false) :
    fxQueryStatus d c = { d with ldg := { d.ldg with asks := d.ldg.asks ++ [(c, d.ldg.pos)] } } := by
  simp [fxQueryStatus, h]

/-- In replay QUERY_STATUS of an object that the polder may see is answered at once with its record (R367, R375). -/
theorem fxQueryStatus_answers {o : Nat} {r : Bytes} (hreplay : d.ldg.replay = true) (hblock : askOk c = true) (hrecord : statusRecord d c = some (o, r))
    (hmay : o = c.polder ∨ c.polder = 0) : fxQueryStatus d c = reply d c 0 0 (some r) 0 0 0 0 := by
  have hown : ¬ (o ≠ c.polder && c.polder ≠ 0) = true := by
    rw [Bool.and_eq_true, decide_eq_true_eq, decide_eq_true_eq]
    exact fun h => hmay.elim h.1 h.2
  simp only [fxQueryStatus, answerAsk, hreplay, hblock, hrecord, if_neg hown, Bool.not_true, Bool.false_eq_true, if_true, if_false]

end

/-- NOP answers OK (R366). -/
theorem nopAnswersOk : NopAnswersOk := fun c s =>
  ⟨rfl, fun _ _ _ horigin hlisted hon hkept => ⟨okReply s.dev c, rfl, rfl, rfl, rfl, rfl, (ok_host horigin).trans (replyTo_waits _ hlisted hon hkept)⟩⟩

/-- QUERY_STATUS waits in a turn and answers in replay (R367, R375). -/
theorem queryStatusRuns : QueryStatusRuns := by
  intro c s
  refine ⟨fun hturn => ?_, fun o r hreplay hblock hrecord hmay => ?_⟩
  · rw [exec_queryStatus, execQueryStatus, onDev_withDev, fxQueryStatus_waits hturn]
  · rw [exec_queryStatus, execQueryStatus, onDev_withDev, fxQueryStatus_answers hreplay hblock hrecord hmay]

/-- Settles O48: NOP and QUERY_STATUS. -/
theorem statusCommandsRun : Obligations.StatusCommandsRun := ⟨nopAnswersOk, queryStatusRuns⟩

/-! ### Models and primitive sets -/

section
variable {d : Dev} {c : Cmd}

/-- A MODEL_DEFINE of no model that passes its tests takes the lowest free handle (R130). -/
theorem fxModelDefine_new (h : firstFail (modelDefineTests d c) = none) (hnew : fld c.block 0 2 = 0xffff) :
    let n := (lowestFree d.world.models 1024).getD 0
    let m : ModelRec := { (default : ModelRec) with
      owner := ownerOf c (fld c.block 2 1), kind := fld (c.block.drop 8) 0 1, due := some (c.block.drop 8) }
    fxModelDefine d c = ok { d with world := { d.world with models := tput d.world.models n m } } c n := by
  unfold fxModelDefine
  rw [h]
  exact if_pos hnew

/-- A MODEL_DEFINE of a model that passes its tests gives it a definition that is due (R134). -/
theorem fxModelDefine_redefines (h : firstFail (modelDefineTests d c) = none) (hold : fld c.block 0 2 ≠ 0xffff) :
    fxModelDefine d c = ok (modModel d (fld c.block 0 2) fun m => { m with due := some (c.block.drop 8) }) c (fld c.block 0 2) := by
  unfold fxModelDefine
  rw [h]
  exact if_neg hold

/-- A PRIMSET_LOAD that passes its tests takes the lowest free handle, or replaces the set of the handle that it names (R135). -/
theorem fxPrimsetLoad_loads (h : firstFail (primsetLoadTests d c) = none) :
    fxPrimsetLoad d c =
      ok { d with world := { d.world with sets := tput d.world.sets (primsetSlot d c) (primsetRec d c) } } c (primsetSlot d c) := by
  unfold fxPrimsetLoad
  rw [h]

/-- A MODEL_FREE by the owner of a model that nothing holds (R368). -/
theorem fxModelFree_removes {m : ModelRec} (hlen : c.block.length = 4) (hzero : allZero (slice c.block 2 2) = true) (hmax : fld c.block 0 2 ≤ 1023)
    (hget : tget d.world.models (fld c.block 0 2) = some m) (hown : m.owner = c.polder) (hfree : modelHeld d (fld c.block 0 2) m = false) :
    fxModelFree d c = ok (modModel d (fld c.block 0 2) fun m => { m with removed := true }) c := by
  simp only [fxModelFree, if_neg (handleBlock_passes hlen hzero hmax), hget, hfree, Bool.false_eq_true, if_false]
  rw [if_neg (not_not.2 hown)]

/-- A PRIMSET_FREE by the owner of a set that nothing holds (R368). -/
theorem fxPrimsetFree_removes {x : SetRec} (hlen : c.block.length = 4) (hzero : allZero (slice c.block 2 2) = true) (hmax : fld c.block 0 2 ≤ 255)
    (hget : tget d.world.sets (fld c.block 0 2) = some x) (hown : x.owner = c.polder) (hfree : setHeld d (fld c.block 0 2) x = false) :
    fxPrimsetFree d c = ok (modSet d (fld c.block 0 2) fun x => { x with removed := true }) c := by
  simp only [fxPrimsetFree, if_neg (handleBlock_passes hlen hzero hmax), hget, hfree, Bool.false_eq_true, if_false]
  rw [if_neg (not_not.2 hown)]

/-- A build that has taken its model's version ends with a version that is due (R140). -/
theorem fxSetBuildEnd_dues {h v : Nat} {raw : Bytes} {x : SetRec} {b : SetBuild} (hget : tget d.world.sets h = some x) (hbuild : x.build = some b)
    (hver : b.modelVer = some (v, raw)) :
    fxSetBuildEnd d h = modSet d h fun x =>
      { x with build := none, due := some { ver := 0, raw := b.raw, buildOf := x.model, buildVer := v, buildModel := raw } } := by
  simp only [fxSetBuildEnd, hget, hbuild, hver]

end

/-- Settles O5: each command on a model or a set that passes its tests, and a build. -/
theorem modelCommandsRun : Obligations.ModelCommandsRun := by
  intro c s
  refine ⟨fun h hnew => ?_, fun h hold => ?_, fun h => ?_, fun m hlen hzero hmax hget hown hfree => ?_, fun p hlen hzero hmax hget hown hfree => ?_,
    fun h v raw p b hget hbuild hver => ?_⟩
  · rw [exec_modelDefine, execModelDefine, onDev_withDev, fxModelDefine_new h hnew]
  · rw [exec_modelDefine, execModelDefine, onDev_withDev, fxModelDefine_redefines h hold]
  · rw [exec_primsetLoad, execPrimsetLoad, onDev_withDev, fxPrimsetLoad_loads h]
  · rw [exec_modelFree, execModelFree, onDev_withDev, fxModelFree_removes hlen hzero hmax hget hown hfree]
  · rw [exec_primsetFree, execPrimsetFree, onDev_withDev, fxPrimsetFree_removes hlen hzero hmax hget hown hfree]
  · rw [exec_setBuildEnd, execSetBuildEnd, onDev_withDev, fxSetBuildEnd_dues hget hbuild hver]

/-! ### The pair of packages and its dies -/

section
variable {d : Dev} {c : Cmd}

/-- A TWIN_ATTACH of a detached package whose twin can be heard sends its facts (R500). -/
theorem fxTwinAttach_checks (fz : Fuses) (htwin : d.pkg.twin = true) (hidle : d.twin.attachCmd = none) (hrole : d.twin.role = .detached)
    (hlink : d.twin.linkUp = true) (hup : d.twin.downIn = false) : fxTwinAttach fz d c = startCheck fz d c := by
  simp [fxTwinAttach, htwin, hidle, hrole, hlink, hup]

/-- A TWIN_DETACH is due at the turn's end (R501). -/
theorem fxTwinDetach_leaves (htwin : d.pkg.twin = true) : fxTwinDetach d c = ok { d with twin := { d.twin with leaving := true } } c d.twin.gen := by
  simp [fxTwinDetach, htwin, modTwin]

/-- What R370 asks of the block of TWIN_CONFIG. -/
structure TwinBlock (b : Bytes) : Prop where
  length : b.length = 12
  witness : fld b 0 1 ≤ 1
  id : fld b 1 1 ≤ 63
  prefer : fld b 2 1 ≤ 1
  zero : fld b 3 1 = 0
  least : 1 ≤ fld b 4 2
  most : fld b 4 2 ≤ 255
  zeros : fld b 6 2 = 0
  leastWindow : 1 ≤ fld b 8 4
  mostWindow : fld b 8 4 ≤ 1000000

/-- A TWIN_CONFIG whose block is in range writes TWN_CFG and TWN_WIN (R370). -/
theorem fxTwinConfig_writes (h : TwinBlock c.block) (htwin : d.pkg.twin = true) :
    fxTwinConfig d c = ok (rset (rset d 0x300000
      (fld c.block 4 2 * 2 ^ 24 + fld c.block 2 1 * 2 ^ 14 + fld c.block 1 1 * 2 ^ 8 + fld c.block 0 1)) 0x300004 (fld c.block 8 4)) c := by
  obtain ⟨hlen, hwit, hid, hpref, hzero, hlo, hhi, hzeros, hwlo, hwhi⟩ := h
  simp [fxTwinConfig, hlen, hwit, hid, hpref, hzero, hhi, hzeros, hwhi, htwin, Nat.ne_of_gt hlo, Nat.ne_of_gt hwlo]

/-- A die whose tables are current, in a package that has no twin at work, comes back live with its cores as its test left them (R504). -/
theorem fxDieReadmit_readmits (fz : Fuses) (hlen : c.block.length = 4) (hlo : 2 ≤ fld c.block 0 1) (hhi : fld c.block 0 1 ≤ 7)
    (hzero : allZero (slice c.block 1 3) = true) (hstate : dieSt d (fld c.block 0 1) = 4) (hlead : d.twin.role ≠ .lead) (hfollow : d.twin.role ≠ .follow) :
    ∃ e n, fxDieReadmit fz d c = ok e c n ∧ dieSt e (fld c.block 0 1) = 0 ∧ e.pkg.live = d.pkg.live ||| 2 ^ fld c.block 0 1 ∧ e.pkg.dirty = true ∧
      tget e.pkg.svc (fld c.block 0 1) = some (tgetD d.twin.coresFail (fld c.block 0 1) 0) := by
  have hblock : ¬ (c.block.length ≠ 4 || fld c.block 0 1 < 2 || fld c.block 0 1 > 7 || !allZero (slice c.block 1 3)) = true := by
    simp [hlen, Nat.not_lt.2 hlo, Nat.not_lt.2 hhi, hzero]
  have hready : ¬ (dieSt d (fld c.block 0 1) ≠ 4 || d.twin.role = .lead || d.twin.role = .follow) = true := by simp [hstate, hlead, hfollow]
  refine ⟨_, _, (if_neg hblock).trans (if_neg hready), ?_, rfl, rfl, tget_tput_self ..⟩
  exact congrArg (Option.getD · 0) (tget_tput_self d.twin.dieState _ 0)

end

/-- Settles O13: the commands on the pair, and each step by which a fenced die comes back. -/
theorem twinCommandsRun : Obligations.TwinCommandsRun := by
  intro c s
  refine ⟨fun hpf htwin hidle hrole hlink hup => ?_, fun hpf htwin => ?_,
    fun hpf htwin hlen hwit hid hpref hzero hlo hhi hzeros hwlo hwhi => ?_,
    fun die good bad => ⟨fun hstate => ?_, fun hstate => ?_, fun hstate => ?_, fun hpf hlen hdie hlo hhi hzero hstate hlead hfollow => ?_⟩⟩
  · rw [exec_twinAttach, execTwinAttach, onFz_withDev, pfOnly_pf hpf, fxTwinAttach_checks _ htwin hidle hrole hlink hup]
  · rw [exec_twinDetach, execTwinDetach, onDev_withDev, pfOnly_pf hpf, fxTwinDetach_leaves htwin]
  · rw [exec_twinConfig, execTwinConfig, onDev_withDev, pfOnly_pf hpf,
      fxTwinConfig_writes ⟨hlen, hwit, hid, hpref, hzero, hlo, hhi, hzeros, hwlo, hwhi⟩ htwin]
  · rw [exec_dieMessagesResume, execDieMessagesResume, onDev_withDev, fxDieResume, if_pos hstate]
  · rw [exec_dieBistEnd, execDieBistEnd, onDev_withDev, fxDieBist, if_neg (not_not.2 hstate)]
  · rw [exec_dieCopyCurrent, execDieCopyCurrent, onDev_withDev, fxDieCopy, if_pos hstate]
  · subst hdie
    obtain ⟨d, n, heq, hrest⟩ := fxDieReadmit_readmits s.fuses hlen hlo hhi hzero hstate hlead hfollow
    refine ⟨d, n, ?_, hrest⟩
    rw [exec_dieReadmit, execDieReadmit, onFz_withDev, pfOnly_pf hpf, heq]

end Sys2Proof.Machine

/-! PROOFS. Queue pairs and their replies (O58), and the fetch of a command (O16). -/
namespace Sys2Proof.Machine

/-! ### Doorbells and the life of a pair (R351 to R357) -/

section
variable {d : Dev} {p q v : Nat}

/-- Two changes of a pair that agree on its record are one. -/
theorem modPair_congr {f g : PairRec → PairRec} (h : f (pairOf d p q) = g (pairOf d p q)) : modPair d p q f = modPair d p q g :=
  congrArg (fun x => { d with host := { d.host with pairs := tput d.host.pairs (pairKey p q) x } }) h

/-- A tail below the SQ's size is taken (R352). -/
theorem fxSqTail_takes (h : v % 4096 < sqSize d p q) : fxSqTail d p q v = modPair d p q fun x => { x with sqTail := v % 4096 } :=
  if_neg (Nat.not_le.2 h)

/-- A tail at or above the SQ's size only sets HIF_DMA's bit (R352, R379). -/
theorem fxSqTail_refuses (h : sqSize d p q ≤ v % 4096) : fxSqTail d p q v = stick d 0x700008 1 := if_pos h

/-- The distance from an index to the one `k` further round a ring of `n` entries. -/
theorem ring_distance {n k host : Nat} (h : k < n) : ((host + k) % n + n - host % n) % n = k := by
  have hhost : host % n < n := Nat.mod_lt _ (by omega)
  rw [Nat.add_mod, Nat.mod_eq_of_lt h]
  rcases Nat.lt_or_ge (host % n + k) n with hin | hover
  · rw [Nat.mod_eq_of_lt hin, show host % n + k + n - host % n = k + n by omega, Nat.add_mod_right, Nat.mod_eq_of_lt h]
  · rw [Nat.mod_eq_sub_mod hover, Nat.mod_eq_of_lt (by omega : host % n + k - n < n),
      show host % n + k - n + n - host % n = k by omega, Nat.mod_eq_of_lt h]

/-- A head `k` entries further on, of those that the package has written, releases `k` entries (R354). -/
theorem fxCqHead_releases {k : Nat} (hin : v % 4096 < cqSize d p q) (hone : 1 ≤ k) (hlt : k < cqSize d p q)
    (hused : k ≤ (pairOf d p q).cqNext - (pairOf d p q).cqHost) (hat : v % 4096 = ((pairOf d p q).cqHost + k) % cqSize d p q) :
    fxCqHead d p q v = modPair d p q fun x => { x with cqHost := x.cqHost + k } := by
  have hdist : (v % 4096 + cqSize d p q - (pairOf d p q).cqHost % cqSize d p q) % cqSize d p q = k := hat ▸ ring_distance hlt
  refine (if_neg (Nat.not_le.2 hin)).trans (modPair_congr ?_)
  simp [hdist, Nat.ne_of_gt hone, hused]

/-- A pair that is neither enabled nor draining starts anew (R351, R354). -/
theorem fxPairEnable_starts (hbit : bitAt v 0 = true) (hoff : (pairOf d p q).enabled = false) (hidle : (pairOf d p q).busy = false) :
    fxPairEnable d p q v = modPair (rset (rset d (pageReg p q 0) (qCfg v)) (pageReg p q 0x24) 0) p q fun x =>
      { (default : PairRec) with enabled := true, phase := true, fetchCtr := x.fetchCtr, lost := x.lost } := by
  have hstarts : ¬ ((pairOf d p q).enabled || (pairOf d p q).busy || !bitAt v 0) = true := by simp [hoff, hidle, hbit]
  exact (if_neg hstarts).trans (modPair_congr rfl)

/-- A write to the configuration of a locked pair changes registers only (R570, R571). -/
theorem pairOf_qCfgLocked : pairOf (qCfgLocked d p q v) p q = pairOf d p q := by
  unfold qCfgLocked
  extract_lets o e
  have hhost : e.host = d.host := by
    unfold e
    split
    · rfl
    · exact cnt_host ..
  simp only [pairOf, rfield_host, hhost]

/-- A pair that is disabled drains (R11, R357). -/
theorem fxPairDisable_drains (hbit : bitAt v 0 = false) (hon : (pairOf d p q).enabled = true) :
    fxPairDisable d p q v = modPair (clearEnable (qCfgLocked d p q v) p q) p q fun x =>
      { x with enabled := false, busy := decide (0 < x.outstanding) || x.chunk.isSome } := by
  simp [fxPairDisable, hbit, hon]

/-- The record of a pair that has begun to drain. -/
theorem pairOf_fxPairDisable (hbit : bitAt v 0 = false) (hon : (pairOf d p q).enabled = true) :
    pairOf (fxPairDisable d p q v) p q =
      { pairOf d p q with enabled := false, busy := decide (0 < (pairOf d p q).outstanding) || (pairOf d p q).chunk.isSome } := by
  have hsame : pairOf (clearEnable (qCfgLocked d p q v) p q) p q = pairOf d p q := pairOf_qCfgLocked
  rw [fxPairDisable_drains hbit hon, pairOf_modPair_self, hsame]

/-- A draining pair of which nothing is outstanding has drained (R357). -/
theorem fxPairDrained_ends (hbusy : (pairOf d p q).busy = true) (hdone : (pairOf d p q).outstanding = 0) (hrun : (pairOf d p q).chunk = none) :
    fxPairDrained d p q = modPair d p q fun x => { x with busy := false } := by
  simp [fxPairDrained, hbusy, hdone, hrun]

end

/-- Doorbells, enable and disable of a queue pair (R351, R352, R354, R357, R379). -/
theorem queuePairsRun : QueuePairsRun := by
  intro p q v s
  refine ⟨fun hin => ?_, fun hout => ?_, fun k hin hone hlt hused hat => ?_, fun hbit hoff hidle => ?_, fun hbit hon => ?_, fun hbusy hdone hrun => ?_⟩
  · rw [exec_hifSqTail, execHifSqTail, onDev_withDev, fxSqTail_takes hin]
  · rw [exec_hifSqTail, execHifSqTail, onDev_withDev, fxSqTail_refuses hout]
  · rw [exec_hifCqHead, execHifCqHead, onDev_withDev, fxCqHead_releases hin hone hlt hused hat]
  · rw [exec_queuePairEnable, execQueuePairEnable, onDev_withDev, fxPairEnable_starts hbit hoff hidle]
  · have hpair := pairOf_fxPairDisable hbit hon
    refine ⟨fxPairDisable s.dev p q v, ?_, congrArg PairRec.enabled hpair, ?_, congrArg PairRec.busy hpair, (congrArg PairRec.waiting hpair).trans rfl⟩
    · rw [exec_queuePairDisable, execQueuePairDisable, onDev_withDev]
    · rw [fxPairDisable_drains hbit hon]
      exact bit0_cleared _ _
  · rw [exec_queuePairDrained, execQueuePairDrained, onDev_withDev, fxPairDrained_ends hbusy hdone hrun]

/-! ### A reply is written (R354 to R356, R364) -/

/-- The record of a pair, with a CQ of `n` entries, after the first of its replies is written, which leaves `rest`; no result was in it. -/
def writtenRec (n : Nat) (rest : List Reply) (x : PairRec) : PairRec :=
  { x with waiting := rest, cqNext := x.cqNext + 1, phase := decide ((x.cqNext + 1) / n % 2 = 0), outstanding := x.outstanding - 1 }

/-- The device after the CQ entry of a reply without a result is written, before the interrupt and the stall count. -/
def replyWritten (d : Dev) (p q : Nat) (r : Reply) (rest : List Reply) : Dev :=
  let x := pairOf d p q; let n := cqSize d p q
  let e := send d (.hostWrite (pairAddr d p q 0x10 + 32 * (x.cqNext % n)) (replyBytes d r (x.cqNext / n % 2 == 0) q 0xffffffff))
  let e := modPair e p q (writtenRec n rest)
  { e with q := { e.q with recs := tfilter (fun _ y => !(y.stage == .ended && y.cmd.tag == r.tag && y.cmd.origin == .host p q)) e.q.recs } }

section
variable {d : Dev} {p q : Nat} {r : Reply} {rest : List Reply}

theorem pairOf_replyWritten : pairOf (replyWritten d p q r rest) p q = writtenRec (cqSize d p q) rest (pairOf d p q) :=
  pairOf_modPair_self (send d _) p q (writtenRec (cqSize d p q) rest)

/-- A due reply without a result, when the CQ has room (R354, R364). -/
theorem fxReplyWrite_writes (hwaits : (pairOf d p q).waiting = r :: rest) (hdue : replyDue d r = true) (hroom : cqFull d p q = false)
    (hresult : r.result = none) : fxReplyWrite d p q = stallNow (coalesce (replyWritten d p q r rest) p q r.noIrq) p q := by
  simp only [fxReplyWrite, hwaits, hdue, hroom, hresult, Bool.not_true, Bool.or_false, Bool.false_eq_true, if_false]
  rfl

/-- A reply without an interrupt does not count towards one (R359). -/
theorem coalesce_noIrq : coalesce d p q true = d := if_pos rfl

/-- No reply that waits, no stall (R356). -/
theorem stallNow_of_none (h : (pairOf d p q).waiting = []) : stallNow d p q = d := by
  simp only [stallNow, h]

/-- A stall count changes the turn of the pair's latest stall and a counter, nothing else (R356). -/
theorem stallNow_leaves {β : Type} (g : Dev → β) (hstall : ∀ d n, g (modPair d p q fun x => { x with stalled := n }) = g d)
    (hset : ∀ d o v, g (rset d o v) = g d) : g (stallNow d p q) = g d := by
  unfold stallNow
  extract_lets x full
  split
  · rfl
  · extract_lets ring
    split
    · rfl
    · exact (cnt_leaves g hset ..).trans (hstall ..)

/-- A stall count leaves a pair's record but for the turn of its latest stall. -/
theorem pairOf_stallNow {β : Type} (g : PairRec → β) (hg : ∀ x n, g { x with stalled := n } = g x) : g (pairOf (stallNow d p q) p q) = g (pairOf d p q) :=
  stallNow_leaves (fun d => g (pairOf d p q)) (fun d n => by rw [pairOf_modPair_self, hg]) (fun _ _ _ => rfl)

end

/-- A due reply is written to its CQ entry (R354 to R356, R364). -/
theorem statusReplyWritten : StatusReplyWritten := by
  intro p q r rest s hwaits hdue hroom hresult hirq x n
  have hpair {β : Type} (g : PairRec → β) (hg : ∀ x n, g { x with stalled := n } = g x) :
      g (pairOf (stallNow (replyWritten s.dev p q r rest) p q) p q) = g (writtenRec (cqSize s.dev p q) rest (pairOf s.dev p q)) := by
    rw [pairOf_stallNow g hg, pairOf_replyWritten]
  refine ⟨stallNow (replyWritten s.dev p q r rest) p q, ?_, ?_, hpair PairRec.cqNext fun _ _ => rfl, hpair PairRec.waiting fun _ _ => rfl,
    hpair PairRec.outstanding fun _ _ => rfl, hpair PairRec.cqHost fun _ _ => rfl, fun hlast => ?_, ?_⟩
  · rw [exec_statusReplyWrite, execStatusReplyWrite, onDev_withDev, fxReplyWrite_writes hwaits hdue hroom hresult, hirq, coalesce_noIrq]
  · exact stallNow_leaves Dev.out (fun _ _ => rfl) (fun _ _ _ => rfl)
  · rw [stallNow_of_none ((congrArg PairRec.waiting pairOf_replyWritten).trans hlast)]
    rfl
  · exact stallNow_leaves Dev.world (fun _ _ => rfl) (fun _ _ _ => rfl)

/-- Settles O58: queue pairs, and the reply of one. -/
theorem repliesAndPairsRun : Obligations.RepliesAndPairsRun := ⟨queuePairsRun, statusReplyWritten⟩

/-! ### The fetch of a command (R59, R60, R62, R353, R362) -/

section
variable {fz : Fuses} {m : Mem} {d e : Dev} {p q t turn : Nat} {packet block : Bytes}

/-- A packet that passes the checks of R362 is 64 bytes long. -/
theorem length_of_fetchCheck {c : Cmd} {ring : Option Nat} (h : (fetchCheck d turn t c packet ring).1 = none) : packet.length = 64 := by
  by_contra hlen
  have hcheck : (crc32c (packet.take 60) ≠ fld packet 60 4 || packet.length ≠ 64) = true := by simp [hlen]
  rw [fetchCheck, if_pos hcheck] at h
  cases h

/-- The entry of a command whose block lies in its packet has 96 bytes, and is placed when the host share has room for them (R59, R62). -/
theorem placeCommand_places {d0 : Dev} {c : Cmd} (hlen : packet.length = 64) (hdirect : isIndirect packet = false)
    (hclass : ¬ (isQuery c.op = true ∧ c.cls = 0)) (hroom : 96 ≤ hostOpen fz d turn) :
    placeCommand fz d d0 p q turn t c packet block = placeEntry (takePacket d p q) turn
      { (default : Entry) with kind := kindOf c.op, source := srcHost p q, ctr := ((pairOf d p q).fetchCtr + 1) % 2 ^ 32, ts := t / 4 * 4, polder := p,
                               cls := if isQuery c.op then c.cls else 0, payload := packet } := by
  have hrest : ¬ (isQuery c.op && c.cls = 0) = true := by simpa using hclass
  simp [placeCommand, hdirect, hrest, hlen, entryBytes, hroom, stamp]

/-- What the checks of R362 make of the packet at the front of a pair's queue. -/
def packetChecked (d : Dev) (p q t : Nat) (packet block : Bytes) : Option (Nat × Nat × Nat) × Dev :=
  fetchCheck d (entryTurn d t) t (fetched d p q packet block) packet (some (ringSize d p q))

/-- A packet that fails a check is taken and answered with the check's status (R362). -/
theorem fxFetch_refuses {st det item : Nat} (hmay : mayFetch d p q = true) (hrun : (pairOf (atTime d t) p q).chunk = none)
    (hfail : packetChecked (atTime d t) p q t packet block = (some (st, det, item), e)) : fxFetch fz m d p q t packet block =
      stallNow (reply (cnt (takePacket e p q) 0x700010) (fetched (atTime d t) p q packet block) st det none 0 0 0 0) p q := by
  rw [packetChecked] at hfail
  simp only [fxFetch, hmay, hrun, hfail, Bool.not_true, Bool.false_eq_true, if_false]

/-- A packet that passes every check is placed, unless replay runs (R59, R367). -/
theorem fxFetch_places (hmay : mayFetch d p q = true) (hrun : (pairOf (atTime d t) p q).chunk = none) (hlive : d.ldg.replay = false)
    (hpass : packetChecked (atTime d t) p q t packet block = (none, e)) : fxFetch fz m d p q t packet block =
      placeCommand fz e (atTime d t) p q (entryTurn (atTime d t) t) t (fetched (atTime d t) p q packet block) packet block := by
  rw [packetChecked] at hpass
  simp only [fxFetch, hmay, hrun, hpass, atTime_ldg, hlive, Bool.not_true, Bool.false_eq_true, if_false]

end

/-- COMMAND_FETCH leaves the byte memory. -/
theorem exec_commandFetch_withDev (p q t : Nat) (packet block : Bytes) (s : State) :
    exec (.commandFetch p q t packet block) s = .next (s.withDev (fxFetch s.fuses s.mem s.dev p q t packet block)) := rfl

/-- Settles O16: a packet that fails a check and one that passes them all. -/
theorem commandFetchRuns : Obligations.CommandFetchRuns := by
  intro p q t packet block s hmay hrun d turn c r
  refine ⟨fun st det item hfail => ?_, fun hpass hlive _ hdirect hclass hroom => ?_⟩
  · have hchecked : packetChecked d p q t packet block = (some (st, det, item), r.2) := Prod.ext hfail rfl
    rw [exec_commandFetch_withDev, fxFetch_refuses hmay hrun hchecked]
  · have hchecked : packetChecked d p q t packet block = (none, r.2) := Prod.ext hpass rfl
    rw [exec_commandFetch_withDev, fxFetch_places hmay hrun hlive hchecked,
      placeCommand_places (length_of_fetchCheck hpass) hdirect hclass hroom]

end Sys2Proof.Machine

/-! PROOFS. A polder's commands leave other polders' objects alone (O46). -/
namespace Sys2Proof.Machine

/-! ### Tables of objects with an owner -/

/-- Every object of `t` that `p` does not own stands in `t'` as it stood. -/
def OthersKept {α : Type} (owner : α → Nat) (p : Nat) (t t' : Tab α) : Prop :=
  ∀ h x, tget t h = some x → owner x ≠ p → tget t' h = some x

section
variable {α : Type} {owner : α → Nat} {p h : Nat} {t : Tab α}

theorem OthersKept.refl : OthersKept owner p t t := fun _ _ hget _ => hget

/-- A place that is empty or holds an object of the polder may be written. -/
theorem OthersKept.tput (hown : ∀ x, tget t h = some x → owner x = p) (v : α) : OthersKept owner p t (tput t h v) := by
  intro j x hget hne
  have hj : j ≠ h := fun e => hne (hown x (e ▸ hget))
  rw [tget_tput_ne _ _ _ _ hj, hget]

/-- An object of the polder may be changed. -/
theorem OthersKept.tmod (hown : ∀ x, tget t h = some x → owner x = p) (f : α → α) : OthersKept owner p t (tmod t h f) := by
  unfold Machine.tmod
  split
  · exact .tput hown _
  · exact .refl

/-- The place that a new object takes is empty. -/
theorem tget_lowestFree {n : Nat} (hsome : (lowestFree t n).isNone = false) : tget t ((lowestFree t n).getD 0) = none := by
  obtain ⟨i, hi⟩ := Option.isSome_iff_exists.1 (Option.isNone_eq_false_iff.1 hsome)
  have hfree : (!thas t i) = true := List.find?_some (p := fun i => !thas t i) hi
  simpa [hi, thas] using hfree

/-- A new object replaces none. -/
theorem OthersKept.new {n : Nat} (hsome : (lowestFree t n).isNone = false) (v : α) :
    OthersKept owner p t (Machine.tput t ((lowestFree t n).getD 0) v) :=
  .tput (fun x hget => by simp [tget_lowestFree hsome] at hget) v

end

/-- From world `w` to world `w'` every map, model, set and stream that polder `p` does not own stands. -/
structure OthersStand (p : Nat) (w w' : World) : Prop where
  maps : OthersKept MapRec.owner p w.maps w'.maps
  models : OthersKept ModelRec.owner p w.models w'.models
  sets : OthersKept SetRec.owner p w.sets w'.sets
  streams : OthersKept StreamRec.polder p w.streams w'.streams

/-! ### What a command answers -/

/-- A reply changes no object but the count of frames of its agent (R377). -/
theorem reply_world (d : Dev) (c : Cmd) (status detail : Nat) (result : Option Bytes) (admitted released due idx : Nat) :
    ∃ agents, (reply d c status detail result admitted released due idx).world = { d.world with agents := agents } := by
  unfold reply
  extract_lets r
  split
  · exact ⟨_, replyTo_leaves Dev.world (fun _ _ => rfl) ..⟩
  · split_ifs
    · cases replayPair d with
      | none => exact ⟨_, rfl⟩
      | some _ => exact ⟨_, replyTo_leaves Dev.world (fun _ _ => rfl) ..⟩
    · split
      · exact ⟨_, rfl⟩
      · exact ⟨_, egress_leaves Dev.world (fun _ _ => rfl) ..⟩
  · exact ⟨_, rfl⟩

section
variable {p : Nat} {w : World} {d : Dev} {c : Cmd}

theorem OthersStand.refl : OthersStand p w w := ⟨.refl, .refl, .refl, .refl⟩

theorem OthersStand.answer (h : OthersStand p w d.world) (c : Cmd) (status detail : Nat) (result : Option Bytes) :
    OthersStand p w (answer d c status detail result).world := by
  obtain ⟨agents, heq⟩ := reply_world d c status detail result d.time.turn 0 d.time.turn d.ldg.pos
  exact (congrArg (OthersStand p w) heq).mpr ⟨h.maps, h.models, h.sets, h.streams⟩

theorem OthersStand.ok (h : OthersStand p w d.world) (c : Cmd) (detail : Nat) : OthersStand p w (ok d c detail).world := h.answer ..

/-- A refusal changes no object. -/
theorem OthersStand.refused (status detail : Nat) : OthersStand p d.world (Machine.answer d c status detail).world := OthersStand.refl.answer ..

/-- A dike violation changes no object (R390). -/
theorem OthersStand.diked (detail : Nat) : OthersStand p d.world (dikeRefuse d c detail).world :=
  OthersStand.answer (d := dike d c.polder) .refl ..

theorem OthersStand.ite {x y : Dev} {q : Prop} [Decidable q] (h : q → OthersStand p w x.world) (h' : ¬ q → OthersStand p w y.world) :
    OthersStand p w (if q then x else y).world := by
  split_ifs with hq
  · exact h hq
  · exact h' hq

theorem OthersStand.ofMaps {t : Tab MapRec} (h : OthersKept MapRec.owner p w.maps t) : OthersStand p w { w with maps := t } := ⟨h, .refl, .refl, .refl⟩
theorem OthersStand.ofModels {t : Tab ModelRec} (h : OthersKept ModelRec.owner p w.models t) : OthersStand p w { w with models := t } :=
  ⟨.refl, h, .refl, .refl⟩
theorem OthersStand.ofSets {t : Tab SetRec} (h : OthersKept SetRec.owner p w.sets t) : OthersStand p w { w with sets := t } := ⟨.refl, .refl, h, .refl⟩
theorem OthersStand.ofStreams {t : Tab StreamRec} (h : OthersKept StreamRec.polder p w.streams t) : OthersStand p w { w with streams := t } :=
  ⟨.refl, .refl, .refl, h⟩

/-- A change of an object that the polder owns: the place that it names holds it. -/
theorem owner_of_tget {α : Type} {t : Tab α} {h : Nat} {m : α} {owner : α → Nat} (hget : tget t h = some m) (hown : ¬ owner m ≠ p) :
    ∀ x, tget t h = some x → owner x = p := by
  intro x hx
  rw [Option.some.inj (hx.symm.trans hget)]
  exact not_not.1 hown

theorem firstFail_cons {x : Bool × Nat × Nat} {l : List (Bool × Nat × Nat)} : firstFail (x :: l) = none ↔ x.1 = false ∧ firstFail l = none := by
  obtain ⟨bad, st, det⟩ := x
  cases bad <;> simp [firstFail]

/-- Where no test fails, the second and the third do not: those of R572 on the state and on a free place. -/
theorem firstFail_second_third {t1 t2 t3 : Bool × Nat × Nat} {l : List (Bool × Nat × Nat)} (h : firstFail (t1 :: t2 :: t3 :: l) = none) :
    t2.1 = false ∧ t3.1 = false := by
  simp only [firstFail_cons] at h
  obtain ⟨-, h2, h3, -⟩ := h
  exact ⟨h2, h3⟩

/-! ### Maps -/

theorem fxMapCreate_stands : OthersStand p d.world (fxMapCreate d c).world := by
  unfold fxMapCreate
  split
  · exact .ite (fun _ => .diked _) fun _ => .refused ..
  next h =>
    obtain ⟨-, hfree⟩ := firstFail_second_third h
    exact OthersStand.ok (by exact .ofMaps (.new hfree _)) ..

theorem fxMapUpdate_stands : OthersStand c.polder d.world (fxMapUpdate d c).world := by
  unfold fxMapUpdate
  extract_lets h body
  split
  · exact .refused ..
  · refine .ite (fun _ => .refused ..) fun _ => ?_
    split
    · exact .refused ..
    next m hget =>
      refine .ite (fun _ => .refused ..) fun _ => .ite (fun _ => .diked _) fun hown => ?_
      split
      · exact .refused ..
      · exact .refused ..
      · extract_lets tris
        exact .ite (fun _ => .refused ..) fun _ => .ite (fun _ => .refused ..) fun _ => .ite (fun _ => .refused ..) fun _ =>
          .ite (fun _ => .refused ..) fun _ => OthersStand.ok (by exact .ofMaps (.tmod (owner_of_tget hget hown) _)) ..

theorem fxMapCommit_stands : OthersStand c.polder d.world (fxMapCommit d c).world := by
  unfold fxMapCommit
  extract_lets h
  refine .ite (fun _ => .refused ..) fun _ => ?_
  split
  · exact .refused ..
  next m hget =>
    refine .ite (fun _ => .refused ..) fun _ => .ite (fun _ => .diked _) fun hown => ?_
    have hown := owner_of_tget hget hown
    split
    · exact OthersStand.ok (by exact .ofMaps (.tmod hown _)) ..
    · exact .refused ..
    · exact OthersStand.ok (by exact .ofMaps (.tmod hown _)) ..

theorem fxMapGrant_stands (revoke : Bool) (hvf : c.polder ≠ 0) : OthersStand c.polder d.world (fxMapGrant d c revoke).world := by
  unfold fxMapGrant
  extract_lets b h p
  refine .ite (fun _ => .refused ..) fun _ => ?_
  split
  · exact .refused ..
  next m hget =>
    refine .ite (fun _ => .refused ..) fun _ => .ite (fun _ => .diked _) fun hmay => ?_
    have hown : ¬ m.owner ≠ c.polder := by simpa [hvf] using hmay
    exact OthersStand.ok (by exact .ofMaps (.tmod (owner_of_tget hget hown) _)) ..

theorem fxMapDestroy_stands : OthersStand c.polder d.world (fxMapDestroy d c).world := by
  unfold fxMapDestroy
  extract_lets h
  refine .ite (fun _ => .refused ..) fun _ => ?_
  split
  · exact .refused ..
  next m hget =>
    exact .ite (fun _ => .refused ..) fun _ => .ite (fun _ => .diked _) fun hown => .ite (fun _ => .refused ..) fun _ =>
      OthersStand.ok (by exact .ofMaps (.tmod (owner_of_tget hget hown) _)) ..

/-! ### Models and primitive sets -/

/-- An owner that a polder may name is the polder itself (R390). -/
theorem ownerOf_eq {v : Nat} (hvf : c.polder ≠ 0) (hgood : ownerBad c v = false) : ownerOf c v = c.polder := by
  simpa [ownerBad, hvf] using hgood

theorem fxModelDefine_stands (hvf : c.polder ≠ 0) : OthersStand c.polder d.world (fxModelDefine d c).world := by
  unfold fxModelDefine
  extract_lets b h raw
  split
  · exact .ite (fun _ => .diked _) fun _ => .refused ..
  next hpass =>
    obtain ⟨hstate, hfree⟩ := firstFail_second_third hpass
    refine .ite (fun hnew => ?_) fun hold => ?_
    · have hfree : (lowestFree d.world.models 1024).isNone = false := by simpa [show fld c.block 0 2 = 0xffff from hnew] using hfree
      exact OthersStand.ok (by exact .ofModels (.new hfree _)) ..
    · simp only [modelDefineBad, Bool.or_eq_false_iff] at hstate
      obtain ⟨⟨⟨⟨howner, hmine⟩, -⟩, -⟩, -⟩ := hstate
      refine OthersStand.ok (d := modModel _ _ _) (.ofModels (.tmod (fun x hget => ?_) _)) ..
      have hget : tget d.world.models (fld c.block 0 2) = some x := hget
      simpa [hget, ownerOf_eq hvf howner] using hmine

theorem fxModelFree_stands : OthersStand c.polder d.world (fxModelFree d c).world := by
  unfold fxModelFree
  extract_lets h
  refine .ite (fun _ => .refused ..) fun _ => ?_
  split
  · exact .refused ..
  next m hget =>
    exact .ite (fun _ => .diked _) fun hown => .ite (fun _ => .refused ..) fun _ =>
      OthersStand.ok (by exact .ofModels (.tmod (owner_of_tget hget hown) _)) ..

theorem fxPrimsetLoad_stands (hvf : c.polder ≠ 0) : OthersStand c.polder d.world (fxPrimsetLoad d c).world := by
  unfold fxPrimsetLoad
  split
  · exact .ite (fun _ => .diked _) fun _ => .refused ..
  next hpass =>
    obtain ⟨hstate, hfree⟩ := firstFail_second_third hpass
    suffices h : OthersKept SetRec.owner c.polder d.world.sets (tput d.world.sets (primsetSlot d c) (primsetRec d c)) from
      OthersStand.ok (by exact .ofSets h) ..
    by_cases hnew : fld c.block 0 2 = 0xffff
    · have hfree : (lowestFree d.world.sets 256).isNone = false := by simpa [hnew] using hfree
      rw [primsetSlot, if_pos hnew]
      exact .new hfree _
    · simp only [primsetLoadBad, Bool.or_eq_false_iff] at hstate
      obtain ⟨⟨⟨⟨⟨⟨⟨⟨⟨⟨howner, hmine⟩, -⟩, -⟩, -⟩, -⟩, -⟩, -⟩, -⟩, -⟩, -⟩ := hstate
      rw [primsetSlot, if_neg hnew]
      refine .tput (fun x hget => ?_) _
      simpa [hget, ownerOf_eq hvf howner] using hmine

theorem fxPrimsetFree_stands : OthersStand c.polder d.world (fxPrimsetFree d c).world := by
  unfold fxPrimsetFree
  extract_lets h
  refine .ite (fun _ => .refused ..) fun _ => ?_
  split
  · exact .refused ..
  next m hget =>
    exact .ite (fun _ => .diked _) fun hown => .ite (fun _ => .refused ..) fun _ =>
      OthersStand.ok (by exact .ofSets (.tmod (owner_of_tget hget hown) _)) ..

/-! ### Streams -/

theorem fxStreamOpen_stands : OthersStand p d.world (fxStreamOpen d c).world := by
  unfold fxStreamOpen
  split
  · exact .ite (fun _ => .diked _) fun _ => .refused ..
  next h =>
    obtain ⟨-, hfree⟩ := firstFail_second_third h
    exact OthersStand.ok (by exact .ofStreams (.new hfree _)) ..

/-- The end of an estimate is no change of an object. -/
theorem endEstimate_world (key result : Nat) : (endEstimate d key result).world = d.world := by
  unfold endEstimate
  split
  · rfl
  · split_ifs <;> rfl

theorem fxStreamClose_stands : OthersStand c.polder d.world (fxStreamClose d c).world := by
  unfold fxStreamClose
  extract_lets n
  refine .ite (fun _ => .refused ..) fun _ => ?_
  split
  · exact .refused ..
  next x hget =>
    refine .ite (fun _ => .diked _) fun hown => .ite (fun _ => .refused ..) fun _ => OthersStand.ok ?_ ..
    rw [endEstimate_world]
    exact .ofStreams (.tmod (owner_of_tget hget hown) _)

end

/-- Settles O46: each of the commands writes a free place or one whose object the issuer owns. -/
theorem otherPoldersObjectsStand : Obligations.OtherPoldersObjectsStand := by
  intro c i s t hvf hi hstep
  have hstands : OthersStand c.polder s.dev.world t.dev.world := by
    simp only [List.mem_cons, List.not_mem_nil, or_false] at hi
    obtain rfl | rfl | rfl | rfl | rfl | rfl | rfl | rfl | rfl | rfl | rfl | rfl := hi
    · exact Host.Outcome.next.inj hstep ▸ fxMapCreate_stands
    · exact Host.Outcome.next.inj hstep ▸ fxMapUpdate_stands
    · exact Host.Outcome.next.inj hstep ▸ fxMapCommit_stands
    · exact Host.Outcome.next.inj hstep ▸ fxMapGrant_stands _ hvf
    · exact Host.Outcome.next.inj hstep ▸ fxMapGrant_stands _ hvf
    · exact Host.Outcome.next.inj hstep ▸ fxMapDestroy_stands
    · exact Host.Outcome.next.inj hstep ▸ fxModelDefine_stands hvf
    · exact Host.Outcome.next.inj hstep ▸ fxModelFree_stands
    · exact Host.Outcome.next.inj hstep ▸ fxPrimsetLoad_stands hvf
    · exact Host.Outcome.next.inj hstep ▸ fxPrimsetFree_stands
    · exact Host.Outcome.next.inj hstep ▸ fxStreamOpen_stands
    · exact Host.Outcome.next.inj hstep ▸ fxStreamClose_stands
  exact ⟨hstands.maps, hstands.models, hstands.sets, hstands.streams⟩

end Sys2Proof.Machine

/-! PROOFS. Commands on polders (O12). -/
namespace Sys2Proof.Machine

section
variable {d : Dev} {c : Cmd}

/-- A POLDER_CREATE of a named number that passes its tests (R382). -/
theorem fxPolderCreate_makes (h : polderMakes d c) :
    fxPolderCreate d c = ok (modPolder d (fld c.block 0 1) fun x => { (default : PolderRec) with
      state := x.state, creating := true, next := some (polderVals c.block), resetCnt := x.resetCnt }) c (fld c.block 0 1) := by
  obtain ⟨hrange, hlo, hhi, hstate, hcreating, hcfg, hslices⟩ := h
  have hnamed : fld c.block 0 1 ≠ 0xff := by omega
  simp [fxPolderCreate, firstFail, hrange, Nat.not_lt.2 hhi, hstate, hcreating, hcfg, Nat.not_lt.2 hslices, hnamed, Nat.ne_of_gt hlo]

/-- What R385 asks of a POLDER_MODIFY. -/
structure ModifyPasses (d : Dev) (c : Cmd) : Prop where
  range : polderRange c.block = true
  least : 1 ≤ fld c.block 0 1
  most : fld c.block 0 1 ≤ 16
  state : (polder d (fld c.block 0 1)).state = 1 ∨ (polder d (fld c.block 0 1)).state = 2
  notInBundle : cfgPolder d (fld c.block 0 1) = false
  queries : useQ d (fld c.block 0 1) ≤ fld c.block 10 2
  maps : mapsOf d (fld c.block 0 1) ≤ fld c.block 12 1
  streams : streamsOf d (fld c.block 0 1) ≤ fld c.block 13 1
  agents : agentsOf d (fld c.block 0 1) ≤ fld c.block 14 2
  store : fld c.block 16 4 = 0 ∨ polderStore d (fld c.block 0 1) ≤ fld c.block 16 4 * 1048576
  slices : slicesDue d (fld c.block 0 1) + fld c.block 8 2 ≤ bermLen d
  holds : sliceHolds d (fld c.block 0 1) (fld c.block 8 2) = true

/-- A POLDER_MODIFY that passes its tests gives values that start with the next turn (R385). -/
theorem fxPolderModify_gives (h : ModifyPasses d c) :
    fxPolderModify d c = ok (modPolder d (fld c.block 0 1) fun x => { x with next := some (polderVals c.block) }) c := by
  obtain ⟨hrange, hlo, hhi, hstate, hcfg, hq, hmaps, hstreams, hagents, hstore, hslices, hholds⟩ := h
  have hused : ((polder d (fld c.block 0 1)).state == 0) = false ∧ ((polder d (fld c.block 0 1)).state == 3) = false := by
    rcases hstate with h | h <;> rw [h] <;> exact ⟨rfl, rfl⟩
  unfold fxPolderModify
  extract_lets b p x
  have hblock : (!polderRange b || p == 0 || decide (p > 16)) = false := by
    simp [b, p, hrange, Nat.ne_of_gt hlo, hhi]
  have hkept : (fld b 16 4 != 0 && decide (fld b 16 4 * 1048576 < polderStore d p)) = false := by
    rw [Bool.and_eq_false_iff, decide_eq_false_iff_not, Nat.not_lt, bne_eq_false_iff_eq]
    exact hstore
  have hquotas : (x.state == 0 || x.state == 3 || cfgPolder d p || decide (fld b 10 2 < useQ d p) || decide (fld b 12 1 < mapsOf d p) ||
      decide (fld b 13 1 < streamsOf d p) || decide (fld b 14 2 < agentsOf d p) ||
      (fld b 16 4 != 0 && decide (fld b 16 4 * 1048576 < polderStore d p))) = false := by
    simp only [Bool.or_eq_false_iff, decide_eq_false_iff_not, Nat.not_lt]
    exact ⟨⟨⟨⟨⟨⟨hused, hcfg⟩, hq⟩, hmaps⟩, hstreams⟩, hagents⟩, hkept⟩
  have hslice : (decide (slicesDue d p + fld b 8 2 > bermLen d) || !sliceHolds d p (fld b 8 2)) = false := by
    rw [Bool.or_eq_false_iff, decide_eq_false_iff_not, Nat.not_lt, Bool.not_eq_false']
    exact ⟨hslices, hholds⟩
  rw [hblock, hquotas, hslice]
  rfl

/-- What R386 and R389 ask of the block of a POLDER_RESET and of a POLDER_DESTROY. -/
theorem polderBlock_passes (hlen : c.block.length = 4) (hlo : 1 ≤ fld c.block 0 1) (hhi : fld c.block 0 1 ≤ 16)
    (hzero : allZero (slice c.block 1 3) = true) :
    ¬ (c.block.length ≠ 4 || fld c.block 0 1 = 0 || fld c.block 0 1 > 16 || !allZero (slice c.block 1 3)) = true := by
  simp [hlen, hhi, hzero, Nat.ne_of_gt hlo]

/-- A POLDER_RESET of a polder in use (R387). -/
theorem fxPolderReset_resets (hlen : c.block.length = 4) (hlo : 1 ≤ fld c.block 0 1) (hhi : fld c.block 0 1 ≤ 16)
    (hzero : allZero (slice c.block 1 3) = true) (hstate : (polder d (fld c.block 0 1)).state = 1) :
    fxPolderReset d c = ok (resetPolder d (fld c.block 0 1)) c := by
  simp only [fxPolderReset, if_neg (polderBlock_passes hlen hlo hhi hzero), hstate]

/-- A POLDER_DESTROY of a polder in use that no bundle names and no query of another polder pins (R389). -/
theorem fxPolderDestroy_destroys (hlen : c.block.length = 4) (hlo : 1 ≤ fld c.block 0 1) (hhi : fld c.block 0 1 ≤ 16)
    (hzero : allZero (slice c.block 1 3) = true) (hstate : (polder d (fld c.block 0 1)).state = 1)
    (hcfg : cfgPolder d (fld c.block 0 1) = false) (hpin : foreignPin d (fld c.block 0 1) = false) :
    fxPolderDestroy d c = ok (modPolder (resetPolder d (fld c.block 0 1)) (fld c.block 0 1) fun x => { x with state := 3 }) c := by
  simp only [fxPolderDestroy, if_neg (polderBlock_passes hlen hlo hhi hzero)]
  simp [hstate, hcfg, hpin]

end

/-- Settles O12: each command on a polder that passes its tests. -/
theorem polderCommandsRun : Obligations.PolderCommandsRun := by
  intro c s hpf
  refine ⟨fun hmakes => ?_, fun hrange hlo hhi hstate hcfg hq hmaps hstreams hagents hstore hslices hholds => ?_,
    fun hlen hlo hhi hzero hstate => ⟨?_, fun hcfg hpin => ?_⟩⟩
  · rw [exec_polderCreate, execPolderCreate, onDev_withDev, pfOnly_pf hpf, fxPolderCreate_makes hmakes]
  · rw [exec_polderModify, execPolderModify, onDev_withDev, pfOnly_pf hpf,
      fxPolderModify_gives ⟨hrange, hlo, hhi, hstate, hcfg, hq, hmaps, hstreams, hagents, hstore, hslices, hholds⟩]
  · rw [exec_polderReset, execPolderReset, onDev_withDev, pfOnly_pf hpf, fxPolderReset_resets hlen hlo hhi hzero hstate]
  · rw [exec_polderDestroy, execPolderDestroy, onDev_withDev, pfOnly_pf hpf, fxPolderDestroy_destroys hlen hlo hhi hzero hstate hcfg hpin]

end Sys2Proof.Machine

/-! PROOFS. Control memory (O35): the rules of the control complex, and how lines are granted, snooped, given back and written through. -/
namespace Sys2Proof.Machine

/-! ### The parts of the control complex -/

section
variable {d d' : Dev} {die core k l : Nat}

theorem tgetD_tput_self {α : Type} (t : Tab α) (k : Nat) (v x : α) : tgetD (tput t k v) k x = v := by
  rw [tgetD, tget_tput_self, Option.getD_some]

theorem tgetD_tput_ne {α : Type} (t : Tab α) {k j : Nat} (v x : α) (h : j ≠ k) : tgetD (tput t k v) j x = tgetD t j x := by
  rw [tgetD, tget_tput_ne _ _ _ _ h, tgetD]

@[simp] theorem cacheOf_modCache_self (f : CacheRec → CacheRec) : cacheOf (modCache d k f) k = f (cacheOf d k) := tgetD_tput_self ..
theorem cacheOf_modCache_ne {j : Nat} (h : j ≠ k) (f : CacheRec → CacheRec) : cacheOf (modCache d k f) j = cacheOf d j := tgetD_tput_ne _ _ _ h
@[simp] theorem cacheOf_modDir (f : DirRec → DirRec) (j : Nat) : cacheOf (modDir d l f) j = cacheOf d j := rfl
@[simp] theorem dirOf_modDir_self (f : DirRec → DirRec) : dirOf (modDir d l f) l = f (dirOf d l) := tgetD_tput_self ..
@[simp] theorem dirOf_modCache (f : CacheRec → CacheRec) (j : Nat) : dirOf (modCache d k f) j = dirOf d j := rfl
@[simp] theorem dieLive_modDir (f : DirRec → DirRec) (n : Nat) : dieLive (modDir d l f) n = dieLive d n := rfl
@[simp] theorem dieLive_modCache (f : CacheRec → CacheRec) (n : Nat) : dieLive (modCache d k f) n = dieLive d n := rfl
@[simp] theorem coreOf_modCore_self (f : CoreRec → CoreRec) : coreOf (modCore d die core f) die core = f (coreOf d die core) := tgetD_tput_self ..
@[simp] theorem coreOf_modCache (f : CacheRec → CacheRec) (n c : Nat) : coreOf (modCache d k f) n c = coreOf d n c := rfl
@[simp] theorem coreOf_modDir (f : DirRec → DirRec) (n c : Nat) : coreOf (modDir d l f) n c = coreOf d n c := rfl
@[simp] theorem cacheOf_pcNext (j : Nat) : cacheOf (pcNext d die core) j = cacheOf d j := rfl
@[simp] theorem dirOf_pcNext (j : Nat) : dirOf (pcNext d die core) j = dirOf d j := rfl
@[simp] theorem coreOf_pcNext_self : coreOf (pcNext d die core) die core = { coreOf d die core with pc := ((coreOf d die core).pc + 4) % 2 ^ 32 } :=
  coreOf_modCore_self _

/-- A key that a table does not list below its bound is absent. -/
theorem tget_below {α : Type} {t : Tab α} {lo k : Nat} (h : tsorted lo t = true) (hk : k < lo) : tget t k = none := by
  cases t with
  | nil => rfl
  | cons p t =>
    obtain ⟨j, v⟩ := p
    simp only [tsorted, Bool.and_eq_true, decide_eq_true_eq] at h
    simp [tget, show ¬ j = k by omega, show k < j by omega]

/-- What is removed from a sorted table is absent. -/
theorem tget_tdel_self {α : Type} {t : Tab α} {lo : Nat} (h : tsorted lo t = true) (k : Nat) : tget (tdel t k) k = none := by
  induction t generalizing lo with
  | nil => rfl
  | cons p t ih =>
    obtain ⟨j, v⟩ := p
    simp only [tsorted, Bool.and_eq_true, decide_eq_true_eq] at h
    obtain ⟨-, hrest⟩ := h
    by_cases heq : j = k
    · subst heq
      simpa [tdel] using tget_below hrest (Nat.lt_succ_self _)
    · by_cases hlt : k < j
      · simp [tdel, tget, heq, hlt]
      · simpa [tdel, tget, heq, hlt] using ih hrest

end

/-! ### Grants (R427) -/

section
variable {m : Mem} {d : Dev} {die core a l k : Nat} {own : Bool}

/-- A request of a cache on a live die is granted: the cache takes the home's data. -/
theorem grant_live (hlive : dieLive d (k / 4) = true) : grant m d l k own = modCache (modDir d l fun r =>
    { r with busy := none, holders := if own then [k] else if r.holders.contains k then r.holders else r.holders ++ [k], modified := if own then some k else none }) k
    fun c => { c with lines := tput c.lines l (own, mgets m l 64) } := by
  simp [grant, hlive]

/-- The cache that is granted a line holds the home's data. -/
theorem line_grant (hlive : dieLive d (k / 4) = true) : tget (cacheOf (grant m d l k own) k).lines l = some (own, mgets m l 64) := by
  rw [grant_live hlive, cacheOf_modCache_self]
  exact tget_tput_self ..

theorem busy_grant : (dirOf (grant m d l k own) l).busy = none := by
  cases hlive : dieLive d (k / 4) with
  | true => simp [grant_live hlive]
  | false => simp [grant, hlive]

/-- A line that nobody holds has one holder once granted, which holds it modified where it owns it. -/
theorem dir_grant (hlive : dieLive d (k / 4) = true) (hnone : (dirOf d l).holders = []) :
    (dirOf (grant m d l k own) l).holders = [k] ∧ (dirOf (grant m d l k own) l).modified = (if own then some k else none) ∧
      (dirOf (grant m d l k own) l).waiting = (dirOf d l).waiting := by
  rw [grant_live hlive, dirOf_modCache, dirOf_modDir_self]
  cases own <;> simp [hnone]

/-- A grant changes no core. -/
theorem coreOf_grant (n c : Nat) : coreOf (grant m d l k own) n c = coreOf d n c := by
  unfold grant
  split_ifs <;> rfl

theorem cacheOf_grant_ne {j : Nat} (h : j ≠ k) : cacheOf (grant m d l k own) j = cacheOf d j := by
  cases hlive : dieLive d (k / 4) with
  | true => rw [grant_live hlive, cacheOf_modCache_ne h, cacheOf_modDir]
  | false => simp [grant, hlive]

theorem waiting_grant : (dirOf (grant m d l k own) l).waiting = (dirOf d l).waiting := by
  unfold grant
  split_ifs <;> simp

/-- A request for a line that no cache holds is granted at once. -/
theorem serveOne_cold (h : coldLine d k l) : serveOne m d l k own = grant m d l k own := by
  obtain ⟨-, hholders, hmodified, -⟩ := h
  cases own <;> simp [serveOne, hholders, hmodified]

/-- A cache with room for a line drops none. -/
theorem fullVictim_room (h : (cacheOf d k).lines.length < 256) : fullVictim d k = (none, d) := by
  simp [fullVictim, h]

/-! ### Requests, snoops and evictions -/

/-- The home of a line that a core can reach: populated and live (R411, R430). -/
structure LineHome (fz : Fuses) (d : Dev) (a l : Nat) : Prop where
  line : lineOf a = some l
  populated : homeOf l < popDies fz
  live : dieLive d (homeOf l) = true

/-- A request for a line of which the cache has no copy, no transfer and no buffer under way (R427). -/
theorem fxLineReq_absent {fz : Fuses} (h : LineHome fz d a l) (hwb : thas (cacheOf d (die * 4 + core)).wb l = false)
    (hbusy : ∀ b, (dirOf d l).busy = some b → b.reqCache ≠ die * 4 + core) (hwaits : ∀ w ∈ (dirOf d l).waiting, w.1 ≠ die * 4 + core)
    (hline : tget (cacheOf d (die * 4 + core)).lines l = none) (hroom : (cacheOf d (die * 4 + core)).lines.length < 256) :
    fxLineReq fz m d die core a own none = (m, if (dirOf d l).busy.isSome then modDir d l fun r => { r with waiting := r.waiting ++ [(die * 4 + core, own)] }
      else serveOne m d l (die * 4 + core) own) := by
  have hasked : (((dirOf d l).busy.map fun b => b.reqCache == die * 4 + core).getD false) = false := by
    cases hb : (dirOf d l).busy with
    | none => rfl
    | some b => simpa using hbusy b hb
  have hqueued : ((dirOf d l).waiting.any fun w => w.1 == die * 4 + core) = false := by
    simpa [List.any_eq_false] using hwaits
  simp [fxLineReq, h.line, Nat.not_le.2 h.populated, h.live, hwb, hasked, hqueued, hline, fullVictim_room hroom]

/-- A holder with modified data answers a snoop: the data go home, and the copy goes or stays shared (R427). -/
theorem fxSnoop_modified {b : BusyRec} {data : Bytes} (hline : lineOf a = some l) (hbusy : (dirOf d l).busy = some b)
    (hcopy : tget (cacheOf d b.target).lines l = some (true, data)) :
    fxSnoop m d a = (mputs m l data,
      let e := modCache d b.target fun c => { c with lines := if b.reqOwn then tdel c.lines l else tput c.lines l (false, data) }
      answered (mputs m l data) (if b.reqOwn then leaveLine e l b.target else modDir e l fun r => { r with modified := none }) l) := by
  simp [fxSnoop, hline, hbusy, hcopy]

/-- The last holder has answered and no other request waits: the request is granted. -/
theorem answered_last {b : BusyRec} (hbusy : (dirOf d l).busy = some b) (hrest : b.rest = []) (hwaits : (dirOf d l).waiting = []) :
    answered m d l = grant m d l b.reqCache b.reqOwn := by
  simp [answered, hbusy, hrest, hwaits, serveWaiting, waiting_grant, busy_grant]

/-- What the last holder's answer leaves: the asking cache holds the data that went home, and the holder's copy is gone or shared. -/
theorem fxSnoop_grants {b : BusyRec} {data : Bytes} (hline : lineOf a = some l) (hbusy : (dirOf d l).busy = some b)
    (hcopy : tget (cacheOf d b.target).lines l = some (true, data)) (hrest : b.rest = []) (hwaits : (dirOf d l).waiting = [])
    (hother : b.reqCache ≠ b.target) (hlive : dieLive d (b.reqCache / 4) = true) (hsorted : tsorted 0 (cacheOf d b.target).lines = true) :
    let e := (fxSnoop m d a).2
    tget (cacheOf e b.reqCache).lines l = some (b.reqOwn, mgets (mputs m l data) l 64) ∧ (dirOf e l).busy = none ∧
      tget (cacheOf e b.target).lines l = if b.reqOwn then none else some (false, data) := by
  rw [fxSnoop_modified hline hbusy hcopy]
  cases hown : b.reqOwn with
  | true =>
    let e := leaveLine (modCache d b.target fun c => { c with lines := tdel c.lines l }) l b.target
    have hbusy' : (dirOf e l).busy = some { b with rest := b.rest.filter (· != b.target) } := by simp [e, leaveLine, hbusy]
    have hwaits' : (dirOf e l).waiting = [] := by simp [e, leaveLine, hwaits]
    have heq : answered (mputs m l data) e l = grant (mputs m l data) e l b.reqCache true := by
      rw [answered_last hbusy' (by simp [hrest]) hwaits', hown]
    refine ⟨?_, ?_, ?_⟩
    · exact (congrArg (fun d => tget (cacheOf d b.reqCache).lines l) heq).trans (line_grant hlive)
    · exact (congrArg (fun d => (dirOf d l).busy) heq).trans busy_grant
    · refine (congrArg (fun d => tget (cacheOf d b.target).lines l) heq).trans ?_
      rw [cacheOf_grant_ne hother.symm]
      simpa [e, leaveLine] using tget_tdel_self hsorted l
  | false =>
    let e := modDir (modCache d b.target fun c => { c with lines := tput c.lines l (false, data) }) l fun r => { r with modified := none }
    have hbusy' : (dirOf e l).busy = some b := by simp [e, hbusy]
    have hwaits' : (dirOf e l).waiting = [] := by simp [e, hwaits]
    have heq : answered (mputs m l data) e l = grant (mputs m l data) e l b.reqCache false := by
      rw [answered_last hbusy' hrest hwaits', hown]
    refine ⟨?_, ?_, ?_⟩
    · exact (congrArg (fun d => tget (cacheOf d b.reqCache).lines l) heq).trans (line_grant hlive)
    · exact (congrArg (fun d => (dirOf d l).busy) heq).trans busy_grant
    · refine (congrArg (fun d => tget (cacheOf d b.target).lines l) heq).trans ?_
      rw [cacheOf_grant_ne hother.symm]
      simpa [e] using tget_tput_self (cacheOf d b.target).lines l (false, data)

/-- A notice for a line whose home serves no request (R428). -/
theorem fxNotice_idle {dirty : Bool} {data : Bytes} (hline : lineOf a = some l)
    (hwb : tget (cacheOf d (die * 4 + core)).wb l = some { dirty := dirty, data := data, noticed := false }) (hbusy : (dirOf d l).busy = none) :
    fxNotice m d die core a dirty = (if dirty then mputs m l data else m, ackEvict d l (die * 4 + core)) := by
  cases dirty <;> simp [fxNotice, hline, hwb, hbusy]

/-- EVICT_PENDING before the notice only marks the busy line (R429). -/
theorem fxPending_first {b : BusyRec} (hline : lineOf a = some l) (hpend : d.ctc.pendAns = [(die * 4 + core, l)]) (hbusy : (dirOf d l).busy = some b)
    (htarget : b.target = die * 4 + core) (hnotice : b.notice = none) :
    fxPending m d die core a = (m, modDir { d with ctc := { d.ctc with pendAns := [] } } l fun r => { r with busy := some { b with pendingSeen := true } }) := by
  have hbusy' : (dirOf { d with ctc := { d.ctc with pendAns := [] } } l).busy = some b := hbusy
  simp [fxPending, hline, hpend, hbusy', htarget, hnotice]

/-- EVICT_ACK frees the buffer of a notice that the home has used (R428). -/
theorem fxEvictAck_frees {w : WbBuf} (hline : lineOf a = some l) (hwb : tget (cacheOf d (die * 4 + core)).wb l = some w) (hnoticed : w.noticed = true) :
    fxEvictAck d die core a = modCache d (die * 4 + core) fun c => { c with wb := tdel c.wb l } := by
  simp [fxEvictAck, hline, hwb, hnoticed]

/-! ### Stores through (R430) -/

/-- A core that needs a line which nobody holds takes it from the home. -/
theorem fetchLine_cold (h : coldLine d (die * 4 + core) l) :
    fetchLine m d die core l own = (m, grant m d l (die * 4 + core) own, .done (mgets m l 64)) := by
  obtain ⟨hbusy, hholders, hmodified, hline, hwb, -, hroom⟩ := h
  simp [fetchLine, hbusy, hholders, hmodified, hline, hwb, fullVictim_room hroom]

/-- A store-through to a line that nobody holds. -/
theorem fxStwt_cold {fz : Fuses} (v : Nat) (hruns : (coreOf d die core).halted = false) (h : LineHome fz d a l) (hword : a % 4 = 0)
    (hcold : coldLine d (die * 4 + core) l) :
    let data := mgets m l 64; let b := data.take (a % 64) ++ leBytes 4 v ++ data.drop (a % 64 + 4)
    fxStwt fz m d die core a v = (mputs m l b,
      pcNext (modCache (grant m d l (die * 4 + core) true) (die * 4 + core) fun c => { c with lines := tput c.lines l (true, b) }) die core) := by
  simp [fxStwt, hruns, h.line, Nat.not_le.2 h.populated, h.live, hword, fetchLine_cold hcold]

end

/-- A meaning on a control core that is up answers what its effect gives. -/
theorem onCtl_up {s : State} {die core : Nat} (hup : ctlUp s die core) (f : Fuses → Mem → Dev → Mem × Dev) :
    onCtl s die core f = .next (s.withMem (f s.fuses s.mem s.dev).1 (f s.fuses s.mem s.dev).2) := by
  obtain ⟨h8, hcore, hdie, -⟩ := hup
  rw [onCtl_pop h8 hcore hdie]
  rfl

/-- Settles O35: requests by whether the line is busy, a snoop, the three steps of an eviction, and a store-through. -/
theorem coherenceRuns : Obligations.CoherenceRuns := by
  intro die core a l v own s hup hline hpop hhome k
  have hhome : LineHome s.fuses s.dev a l := ⟨hline, hpop, hhome⟩
  have hlive : dieLive s.dev (k / 4) = true := by
    obtain ⟨-, hcore, -, hlive, -⟩ := hup
    rwa [show k / 4 = die by omega]
  refine ⟨fun hcold => ⟨grant s.mem s.dev l k own, ?_, line_grant hlive, ?_⟩, fun b hbusy hreq hwaits hwb hcopy hroom => ?_,
    fun b data hbusy hcopy => ⟨(fxSnoop s.mem s.dev a).2, ?_, fun hrest hwaits hother hreq hsorted =>
      fxSnoop_grants hline hbusy hcopy hrest hwaits hother hreq hsorted⟩,
    fun data hwb hbusy => ?_, fun data hwb hbusy => ?_, fun b hpend hbusy htarget hnotice => ?_, fun w hwb hnoticed => ?_, fun hcold hword => ?_⟩
  · obtain ⟨hbusy, -, -, hcopy, hwb, hwaits, hroom⟩ := id hcold
    rw [exec_coherenceRequest, execCoherenceRequest, onCtl_up hup,
      fxLineReq_absent hhome hwb (by simp [hbusy]) (by simp [hwaits]) hcopy hroom, hbusy]
    exact congrArg (fun d => Host.Outcome.next (s.withDev d)) (serveOne_cold hcold)
  · obtain ⟨-, hholders, -⟩ := hcold
    exact ⟨(dir_grant hlive hholders).1, (dir_grant hlive hholders).2.1, busy_grant⟩
  · rw [exec_coherenceRequest, execCoherenceRequest, onCtl_up hup,
      fxLineReq_absent hhome hwb (by simpa [hbusy] using hreq) hwaits hcopy hroom, hbusy]
    rfl
  · rw [exec_snoop, execSnoop, onMem_eq, fxSnoop_modified hline hbusy hcopy]
    rfl
  · rw [exec_evictDirty, execEvictDirty, onCtl_up hup, fxNotice_idle hline hwb hbusy]
    rfl
  · rw [exec_evictClean, execEvictClean, onCtl_up hup, fxNotice_idle hline hwb hbusy]
    rfl
  · rw [exec_evictPending, execEvictPending, onCtl_up hup, fxPending_first hline hpend hbusy htarget hnotice]
    rfl
  · rw [exec_evictAck, execEvictAck, onCtl_up hup, fxEvictAck_frees hline hwb hnoticed]
    rfl
  · intro data b
    obtain ⟨-, -, -, -, hruns⟩ := id hup
    obtain ⟨-, hholders, -⟩ := id hcold
    have hdone := fxStwt_cold (m := s.mem) v hruns hhome hword hcold
    refine ⟨(fxStwt s.fuses s.mem s.dev die core a v).2, ?_, ?_⟩
    · rw [exec_stwt, execStwt, onCtl_up hup, hdone]
    · rw [hdone]
      refine ⟨?_, (dir_grant hlive hholders).1, ?_⟩
      · rw [cacheOf_pcNext, cacheOf_modCache_self]
        exact tget_tput_self ..
      · rw [coreOf_pcNext_self, coreOf_modCache, coreOf_grant]

end Sys2Proof.Machine

/-! PROOFS. The long instructions (O53): a block is worked through in elements that the window onto bulk memory serves at once. -/
namespace Sys2Proof.Machine

/-! ### Bytes -/

/-- Bytes written one after the other are written as one row. -/
theorem mputs_append (m : Mem) (a : Nat) (b c : Bytes) : mputs m a (b ++ c) = mputs (mputs m a b) (a + b.length) c := by
  induction b generalizing m a with
  | nil => rfl
  | cons x b ih => rw [List.cons_append, mputs, mputs, ih, List.length_cons, Nat.add_right_comm, Nat.add_assoc]

/-- A row of bytes is written in two parts. -/
theorem mputs_take_drop (m : Mem) (a : Nat) {b : Bytes} {k : Nat} (hk : k ≤ b.length) : mputs (mputs m a (b.take k)) (a + k) (b.drop k) = mputs m a b := by
  have hlen : (b.take k).length = k := List.length_take_of_le hk
  rw [← congrArg (a + ·) hlen, ← mputs_append, List.take_append_drop]

/-- A row of bytes is read in two parts. -/
theorem bulkGets_append (m : Mem) (d : Dev) (die a i j : Nat) : bulkGets m d die a (i + j) = bulkGets m d die a i ++ bulkGets m d die (a + i) j := by
  simp [bulkGets, List.range_add, Nat.add_assoc, Function.comp_def]

@[simp] theorem length_bulkGets (m : Mem) (d : Dev) (die a n : Nat) : (bulkGets m d die a n).length = n := by simp [bulkGets]

/-- Bytes written elsewhere are not read. -/
theorem bulkGets_mputs {m : Mem} {die a n x : Nat} {b : Bytes} (d : Dev) (hm : Memory.wf m = true)
    (hout : bulkBase die + a + n ≤ x ∨ x + b.length ≤ bulkBase die + a) : bulkGets (mputs m x b) d die a n = bulkGets m d die a n := by
  refine List.map_congr_left fun i hi => ?_
  have hi := List.mem_range.1 hi
  rw [mget_mputs_out hm (by omega)]

@[simp] theorem length_fit (n : Nat) (b : Bytes) : (fit n b).length = n := by
  simp [fit, zeros]
  omega

/-! ### Registers of a core -/

section
variable {d : Dev} {die core : Nat}

/-- A register shows what was written to it, as 32 bits. -/
theorem greg_gset_self (n v : Nat) : greg (gset d die core n v) die core n = v % 2 ^ 32 := by
  rw [greg, gset, coreOf_modCore_self, tgetD_tput_self, BitVec.toNat_ofNat]

/-- A write leaves another register alone. -/
theorem greg_gset_ne {i n : Nat} (v : Nat) (hi : i < 32) (hn : n < 32) (h : i ≠ n) : greg (gset d die core n v) die core i = greg d die core i := by
  have hmod : i % 32 ≠ n % 32 := by rwa [Nat.mod_eq_of_lt hi, Nat.mod_eq_of_lt hn]
  rw [greg, gset, coreOf_modCore_self, tgetD_tput_ne _ _ _ hmod, greg]

theorem greg_lt (n : Nat) : greg d die core n < 2 ^ 32 := BitVec.isLt _

@[simp] theorem greg_pcNext (n : Nat) : greg (pcNext d die core) die core n = greg d die core n := by
  rw [greg, coreOf_pcNext_self, greg]

@[simp] theorem greg_modSched (e n : Nat) (f : SchedRec → SchedRec) : greg (modSched d e f) die core n = greg d die core n := rfl

@[simp] theorem schedOf_gset (e n v : Nat) : schedOf (gset d die core n v) e = schedOf d e := rfl
@[simp] theorem schedOf_pcNext (e : Nat) : schedOf (pcNext d die core) e = schedOf d e := rfl
@[simp] theorem schedOf_modSched_self (f : SchedRec → SchedRec) : schedOf (modSched d die f) die = f (schedOf d die) := tgetD_tput_self ..

end

/-- What an element leaves as it was: the world that the window shows, and the core's PC and window. -/
structure CoreStands (d₀ : Dev) (die core : Nat) (d : Dev) : Prop where
  world : d.world = d₀.world
  pc : (coreOf d die core).pc = (coreOf d₀ die core).pc
  window : (coreOf d die core).winBase = (coreOf d₀ die core).winBase

section
variable {d₀ d : Dev} {die core : Nat}

theorem CoreStands.refl : CoreStands d die core d := ⟨rfl, rfl, rfl⟩

theorem CoreStands.gset (h : CoreStands d₀ die core d) (n v : Nat) : CoreStands d₀ die core (gset d die core n v) := by
  refine ⟨h.world, ?_, ?_⟩
  · rw [Machine.gset, coreOf_modCore_self]
    exact h.pc
  · rw [Machine.gset, coreOf_modCore_self]
    exact h.window

theorem CoreStands.modSched (h : CoreStands d₀ die core d) (e : Nat) (f : SchedRec → SchedRec) : CoreStands d₀ die core (modSched d e f) :=
  ⟨h.world, h.pc, h.window⟩

theorem CoreStands.pcNext_pc (h : CoreStands d₀ die core d) : (coreOf (pcNext d die core) die core).pc = ((coreOf d₀ die core).pc + 4) % 2 ^ 32 := by
  rw [coreOf_pcNext_self, ← h.pc]

end

/-! ### The window onto bulk memory (R411) -/

section
variable {fz : Fuses} {m : Mem} {d : Dev} {die core a n : Nat}

/-- The place of an address of the window in the die's stack. -/
def winPlace (d : Dev) (die core a : Nat) : Nat := (coreOf d die core).winBase + (a - 0x80000000)

theorem winAddr_eq : winAddr d die core a = bulkBase die + winPlace d die core a := by
  show bulkBase die + _ + _ = bulkBase die + (_ + _)
  rw [Nat.add_assoc]

theorem CoreStands.winPlace {d₀ : Dev} (h : CoreStands d₀ die core d) (a : Nat) : winPlace d die core a = winPlace d₀ die core a := by
  show (coreOf d die core).winBase + _ = (coreOf d₀ die core).winBase + _
  rw [h.window]

/-- Addresses of the window follow one another as in the stack. -/
theorem winPlace_add (h : 0x80000000 ≤ a) (i : Nat) : winPlace d die core (a + i) = winPlace d die core a + i := by
  unfold winPlace
  omega

/-- An address of the window lies in none of the other parts of R411. -/
theorem chunkAcc_window (hlo : 0x80000000 ≤ a) (hhi : a < 0x100000000) (w : Option Bytes) : chunkAcc fz m d die core a n w = match w with
    | none => (m, d, .done (bulkGets m d die (winPlace d die core a) n))
    | some b => (mputs m (bulkBase die + winPlace d die core a) b, d, .done []) := by
  unfold chunkAcc
  rw [if_neg (by omega), if_neg (by omega), if_neg (by omega), if_pos ⟨hlo, hhi⟩]
  rfl

/-- A read through the window, of one line or of two. -/
theorem coreRead_window (hlo : 0x80000000 ≤ a) (hhi : a + n ≤ 0x100000000) (hn : 0 < n) :
    coreRead fz m d die core a n = (m, d, .done (bulkGets m d die (winPlace d die core a) n)) := by
  unfold coreRead
  extract_lets k
  rw [chunkAcc_window hlo (by omega)]
  dsimp only
  split_ifs with hone
  · rw [hone]
  · have hk : k ≤ n := Nat.min_le_left ..
    have hnext : a + k < 0x100000000 := by omega
    rw [show (a + k) % 2 ^ 32 = a + k from Nat.mod_eq_of_lt hnext, chunkAcc_window (by omega) hnext]
    dsimp only
    rw [winPlace_add hlo, ← bulkGets_append, Nat.add_sub_cancel' hk]

theorem coreWrite_window {b : Bytes} (hlo : 0x80000000 ≤ a) (hhi : a < 0x100000000) :
    coreWrite fz m d die core a b = (mputs m (bulkBase die + winPlace d die core a) b, d, .done []) :=
  chunkAcc_window hlo hhi (some b)

/-- An empty read at the boot ROM, as elements without a source make it. -/
theorem coreRead_nothing : coreRead fz m d die core 0 0 = (m, d, .done []) := by
  simp [coreRead, chunkAcc]

/-- An element whose read and whose rest complete. -/
theorem element_done {src : Nat} {b x : Bytes} {m1 m2 : Mem} {d1 d2 : Dev} {k : Mem → Dev → Bytes → Acc} (hread : coreRead fz m d die core src n = (m1, d1, .done b))
    (hrest : k m1 d1 b = (m2, d2, .done x)) : element fz m d die core src n k = (m2, d2, .done x) := by
  simp only [element, hread, hrest]

end

/-! ### The loop -/

section
variable {die core : Nat} {fin : Dev → Bool} {el : Mem → Dev → Acc} {Inv : Nat → Mem → Dev → Prop}

/-- An element of a block that is not at its end completes and leaves less of the block. -/
def Progress (el : Mem → Dev → Acc) (Inv : Nat → Mem → Dev → Prop) : Prop :=
  ∀ n m d, 0 < n → Inv n m d → ∃ m' d' x n', n' < n ∧ el m d = (m', d', .done x) ∧ Inv n' m' d'

/-- Elements that complete end the block. -/
theorem longLoop_completes (hfin : ∀ n m d, Inv n m d → fin d = decide (n = 0)) (hel : Progress el Inv) {fuel n : Nat} {m : Mem} {d : Dev} (hn : n < fuel)
    (h : Inv n m d) : ∃ m' d', longLoop die core fin el fuel none m d = (m', d', .complete) ∧ Inv 0 m' d' := by
  induction fuel generalizing n m d with
  | zero => omega
  | succ fuel ih =>
    have hends := hfin n m d h
    rcases Nat.eq_zero_or_pos n with hzero | hpos
    · subst hzero
      exact ⟨m, d, by simp [longLoop, hends], h⟩
    · obtain ⟨m1, d1, x, n1, hlt, hstep, h1⟩ := hel n m d hpos h
      obtain ⟨m2, d2, hloop, h2⟩ := ih (by omega : n1 < fuel) h1
      refine ⟨m2, d2, ?_, h2⟩
      simpa [longLoop, hends, Nat.ne_of_gt hpos, hstep] using hloop

/-- A long instruction that nothing stops runs its block to the end and passes. -/
theorem runLong_completes (hfin : ∀ n m d, Inv n m d → fin d = decide (n = 0)) (hel : Progress el Inv) {gn n : Nat} {m : Mem} {d : Dev}
    (hruns : (coreOf d die core).halted = false) (hlive : dieLive d die = true) (hn : n ≤ greg d die core gn) (h : Inv n m d) :
    ∃ m' d', runLong m d die core gn none 0 none fin el = (m', pcNext d' die core) ∧ Inv 0 m' d' := by
  obtain ⟨m', d', hloop, h'⟩ := longLoop_completes (die := die) (core := core) hfin hel (Nat.lt_succ_of_le hn) h
  refine ⟨m', d', ?_, h'⟩
  simp [runLong, hruns, hlive, cnt, hloop]

/-- The end of a block that gn counts. -/
theorem gnZero_eq {d : Dev} {gn n : Nat} (h : greg d die core gn = n) : gnZero die core gn d = decide (n = 0) := by
  rw [gnZero, h]
  rfl

end

/-! ### MCOPY -/

section
variable {m₀ m : Mem} {d₀ d : Dev} {die core gd gs gn dst src total left n : Nat} {fz : Fuses}

/-- MCOPY of `total` bytes from `src` to `dst` with `left` to go: those before are copied, and the operand registers stand past them. -/
structure CopyLeft (m₀ : Mem) (d₀ : Dev) (die core gd gs gn dst src total left : Nat) (m : Mem) (d : Dev) : Prop where
  within : left ≤ total
  mem : m = mputs m₀ (winAddr d₀ die core dst) (bulkGets m₀ d₀ die (winPlace d₀ die core src) (total - left))
  atDst : greg d die core gd = (dst + (total - left)) % 2 ^ 32
  atSrc : greg d die core gs = (src + (total - left)) % 2 ^ 32
  counts : greg d die core gn = left
  stands : CoreStands d₀ die core d

/-- The blocks that MCOPY reads and writes lie in the window, apart from one another. -/
structure CopyBlocks (m₀ : Mem) (gd gs gn dst src total : Nat) : Prop where
  wf : Memory.wf m₀ = true
  regs : distinct3 gd gs gn
  dstIn : inWindow32 dst total
  srcIn : inWindow32 src total
  apart : dst + total ≤ src ∨ src + total ≤ dst

/-- An element of MCOPY copies `n` bytes more. -/
theorem CopyLeft.next (hblocks : CopyBlocks m₀ gd gs gn dst src total) (h : CopyLeft m₀ d₀ die core gd gs gn dst src total left m d) (hpos : 0 < n) (hn : n ≤ left) :
    CopyLeft m₀ d₀ die core gd gs gn dst src total (left - n)
      (mputs m (bulkBase die + winPlace d die core (greg d die core gd)) (bulkGets m d die (winPlace d die core (greg d die core gs)) n))
      (gset (gset (gset d die core gd (greg d die core gd + n)) die core gs (greg d die core gs + n)) die core gn (left - n)) := by
  obtain ⟨hwf, ⟨hd32, hs32, hn32, hds, hdn, hsn⟩, ⟨hdlo, hdhi⟩, ⟨hslo, hshi⟩, hapart⟩ := hblocks
  obtain ⟨hwithin, hmem, hdst, hsrc, -, hstands⟩ := h
  have hdst : greg d die core gd = dst + (total - left) := hdst.trans (Nat.mod_eq_of_lt (by omega))
  have hsrc : greg d die core gs = src + (total - left) := hsrc.trans (Nat.mod_eq_of_lt (by omega))
  have hdone : total - (left - n) = (total - left) + n := by omega
  have hsrcPlace : winPlace d die core (greg d die core gs) = winPlace d₀ die core src + (total - left) := by
    rw [hstands.winPlace, hsrc, winPlace_add hslo]
  have hdstPlace : bulkBase die + winPlace d die core (greg d die core gd) = winAddr d₀ die core dst + (total - left) := by
    rw [hstands.winPlace, hdst, winPlace_add hdlo, winAddr_eq, Nat.add_assoc]
  have hread : bulkGets m d die (winPlace d₀ die core src + (total - left)) n = bulkGets m₀ d₀ die (winPlace d₀ die core src + (total - left)) n := by
    rw [bulkGets_congr hstands.world, hmem, bulkGets_mputs _ hwf]
    rw [winAddr_eq, length_bulkGets]
    unfold winPlace
    omega
  refine ⟨by omega, ?_, ?_, ?_, ?_, ((hstands.gset ..).gset ..).gset ..⟩
  · rw [hsrcPlace, hdstPlace, hread, hmem, hdone, bulkGets_append, mputs_append, length_bulkGets]
  · rw [greg_gset_ne _ hd32 hn32 hdn, greg_gset_ne _ hd32 hs32 hds, greg_gset_self, hdst, hdone, Nat.add_assoc]
  · rw [greg_gset_ne _ hs32 hn32 hsn, greg_gset_self, hsrc, hdone, Nat.add_assoc]
  · rw [greg_gset_self, Nat.mod_eq_of_lt (by omega)]

/-- Elements of MCOPY over blocks in the window make progress. -/
theorem mcopy_progress (h : CopyBlocks m₀ gd gs gn dst src total) : Progress (fun m d =>
      let dst := greg d die core gd; let src := greg d die core gs; let left := greg d die core gn
      let n := min left (64 - dst % 64)
      element fz m d die core src n fun m d b =>
        match coreWrite fz m d die core dst b with
        | (m, d, .done x) => (m, gset (gset (gset d die core gd (dst + n)) die core gs (src + n)) die core gn (left - n), .done x)
        | r => r) (CopyLeft m₀ d₀ die core gd gs gn dst src total) := by
  intro left m d hleft hat
  obtain ⟨-, -, ⟨hdlo, hdhi⟩, ⟨hslo, hshi⟩, -⟩ := id h
  obtain ⟨hwithin, -, hdst, hsrc, hgn, -⟩ := id hat
  have hn : 0 < min left (64 - greg d die core gd % 64) := by omega
  have hle : min left (64 - greg d die core gd % 64) ≤ left := Nat.min_le_left ..
  have hread := coreRead_window (fz := fz) (m := m) (d := d) (die := die) (core := core) (a := greg d die core gs) (by omega) (by omega) hn
  refine ⟨_, _, [], _, Nat.sub_lt hleft hn, ?_, hat.next h hn hle⟩
  simp only [hgn]
  refine element_done hread ?_
  rw [coreWrite_window (by omega) (by omega)]

theorem fxMcopy_copies (h : CopyBlocks m₀ gd gs gn (greg d₀ die core gd) (greg d₀ die core gs) (greg d₀ die core gn))
    (hruns : (coreOf d₀ die core).halted = false) (hlive : dieLive d₀ die = true) :
    ∃ m d, fxMcopy fz m₀ d₀ die core gd gs gn none 0 none = (m, pcNext d die core) ∧
      CopyLeft m₀ d₀ die core gd gs gn (greg d₀ die core gd) (greg d₀ die core gs) (greg d₀ die core gn) 0 m d := by
  refine runLong_completes (fun n m d h => gnZero_eq h.counts) (mcopy_progress h) hruns hlive (Nat.le_refl _) ⟨Nat.le_refl _, ?_, ?_, ?_, rfl, .refl⟩
  · rw [Nat.sub_self]
    rfl
  · rw [Nat.sub_self, Nat.add_zero, Nat.mod_eq_of_lt (greg_lt _)]
  · rw [Nat.sub_self, Nat.add_zero, Nat.mod_eq_of_lt (greg_lt _)]

end

/-! ### MFILL -/

/-- The first `n` bytes of a fill with the pattern `v`. -/
def fillBytes (v n : Nat) : Bytes := (List.range n).map fun i => (leBytes 4 v).getD (i % 4) 0

theorem fillBytes_add (v i j : Nat) : fillBytes v (i + j) = fillBytes v i ++ (List.range j).map fun x => (leBytes 4 v).getD ((i + x) % 4) 0 := by
  simp [fillBytes, List.range_add, Function.comp_def]

@[simp] theorem length_fillBytes (v n : Nat) : (fillBytes v n).length = n := by simp [fillBytes]

section
variable {m₀ m : Mem} {d₀ d : Dev} {die core gd gv gn dst v total left n : Nat} {fz : Fuses}

/-- MFILL of `total` bytes at `dst` with `left` to go: those before hold the pattern. -/
structure FillLeft (m₀ : Mem) (d₀ : Dev) (die core gd gv gn dst v total left : Nat) (m : Mem) (d : Dev) : Prop where
  within : left ≤ total
  mem : m = mputs m₀ (winAddr d₀ die core dst) (fillBytes v (total - left))
  atDst : greg d die core gd = (dst + (total - left)) % 2 ^ 32
  pattern : greg d die core gv = v
  counts : greg d die core gn = left
  stands : CoreStands d₀ die core d

/-- An element of MFILL fills `n` bytes more. -/
theorem FillLeft.next (hregs : distinct3 gd gv gn) (hin : inWindow32 dst total) (h : FillLeft m₀ d₀ die core gd gv gn dst v total left m d)
    (hpos : 0 < n) (hn : n ≤ left) :
    FillLeft m₀ d₀ die core gd gv gn dst v total (left - n)
      (mputs m (bulkBase die + winPlace d die core (greg d die core gd)) ((List.range n).map fun i => (leBytes 4 v).getD ((total - left + i) % 4) 0))
      (gset (gset d die core gd (greg d die core gd + n)) die core gn (left - n)) := by
  obtain ⟨hd32, hv32, hn32, hdv, hdn, hvn⟩ := hregs
  obtain ⟨hdlo, hdhi⟩ := hin
  obtain ⟨hwithin, hmem, hdst, hv, hgn, hstands⟩ := h
  have hleft : left < 2 ^ 32 := hgn ▸ greg_lt gn
  have hdst : greg d die core gd = dst + (total - left) := hdst.trans (Nat.mod_eq_of_lt (by omega))
  have hdone : total - (left - n) = (total - left) + n := by omega
  have hdstPlace : bulkBase die + winPlace d die core (greg d die core gd) = winAddr d₀ die core dst + (total - left) := by
    rw [hstands.winPlace, hdst, winPlace_add hdlo, winAddr_eq, Nat.add_assoc]
  refine ⟨by omega, ?_, ?_, ?_, ?_, (hstands.gset ..).gset ..⟩
  · rw [hdstPlace, hmem, hdone, fillBytes_add, mputs_append, length_fillBytes]
  · rw [greg_gset_ne _ hd32 hn32 hdn, greg_gset_self, hdst, hdone, Nat.add_assoc]
  · rw [greg_gset_ne _ hv32 hn32 hvn, greg_gset_ne _ hv32 hd32 hdv.symm, hv]
  · rw [greg_gset_self, Nat.mod_eq_of_lt (by omega)]

/-- Elements of MFILL over a block in the window make progress. -/
theorem mfill_progress (hregs : distinct3 gd gv gn) (hin : inWindow32 dst total) : Progress (fun m d =>
      let dst := greg d die core gd; let left := greg d die core gn
      let n := min left (64 - dst % 64)
      let pat := leBytes 4 (greg d die core gv)
      let b := (List.range n).map fun i => pat.getD ((total - left + i) % 4) 0
      element fz m d die core 0 0 fun m d _ =>
        match coreWrite fz m d die core dst b with
        | (m, d, .done x) => (m, gset (gset d die core gd (dst + n)) die core gn (left - n), .done x)
        | r => r) (FillLeft m₀ d₀ die core gd gv gn dst v total) := by
  intro left m d hleft hat
  obtain ⟨hdlo, hdhi⟩ := id hin
  obtain ⟨hwithin, -, hdst, hv, hgn, -⟩ := id hat
  have hn : 0 < min left (64 - greg d die core gd % 64) := by omega
  have hle : min left (64 - greg d die core gd % 64) ≤ left := Nat.min_le_left ..
  refine ⟨_, _, [], _, Nat.sub_lt hleft hn, ?_, hat.next hregs hin hn hle⟩
  simp only [hgn, hv]
  refine element_done coreRead_nothing ?_
  rw [coreWrite_window (by omega) (by omega)]

theorem fxMfill_fills (hregs : distinct3 gd gv gn) (hin : inWindow32 (greg d₀ die core gd) (greg d₀ die core gn))
    (hruns : (coreOf d₀ die core).halted = false) (hlive : dieLive d₀ die = true) :
    ∃ m d, fxMfill fz m₀ d₀ die core gd gv gn none 0 none = (m, pcNext d die core) ∧
      FillLeft m₀ d₀ die core gd gv gn (greg d₀ die core gd) (greg d₀ die core gv) (greg d₀ die core gn) 0 m d := by
  refine runLong_completes (fun n m d h => gnZero_eq h.counts) (mfill_progress hregs hin) hruns hlive (Nat.le_refl _) ⟨Nat.le_refl _, ?_, ?_, rfl, rfl, .refl⟩
  · rw [Nat.sub_self]
    rfl
  · rw [Nat.sub_self, Nat.add_zero, Nat.mod_eq_of_lt (greg_lt _)]

end

/-- MCOPY and MFILL over blocks in the window (R414). -/
theorem copyAndFillRun : CopyAndFillRun := by
  intro die core gd gs gn s hsound hup hregs dst src n hdst
  obtain ⟨-, -, -, hlive, hruns⟩ := id hup
  refine ⟨fun hsrc hapart => ?_, ?_⟩
  · obtain ⟨m, d, heq, hdone⟩ := fxMcopy_copies (fz := s.fuses) (m₀ := s.mem) ⟨hsound, hregs, hdst, hsrc, hapart⟩ hruns hlive
    obtain ⟨-, hmem, hgd, hgs, hgn, hstands⟩ := hdone
    refine ⟨pcNext d die core, ?_, (greg_pcNext _).trans hgd, (greg_pcNext _).trans hgs, (greg_pcNext _).trans hgn, hstands.pcNext_pc⟩
    rw [exec_mcopy, execMcopy, onCtl_up hup, heq, hmem]
    rfl
  · obtain ⟨m, d, heq, hdone⟩ := fxMfill_fills (fz := s.fuses) (m₀ := s.mem) hregs hdst hruns hlive
    obtain ⟨-, hmem, hgd, hgs, hgn, hstands⟩ := hdone
    refine ⟨pcNext d die core, ?_, (greg_pcNext _).trans hgd, (greg_pcNext _).trans hgs, (greg_pcNext _).trans hgn, hstands.pcNext_pc⟩
    rw [exec_mfill, execMfill, onCtl_up hup, heq, hmem]
    rfl

/-! ### QDRAIN -/

section
variable {m₀ m : Mem} {d₀ d : Dev} {die core gd gq gn dst q limit left : Nat} {l : List Bytes} {fz : Fuses}

/-- Entries that QDRAIN has drained with `left` to go. -/
def drained (limit left : Nat) (l : List Bytes) : Nat := min limit l.length - left

/-- QDRAIN of at most `limit` entries of the queue `l` to `dst` with `left` to go: those before are written and have left the queue. -/
structure DrainLeft (m₀ : Mem) (d₀ : Dev) (die core gd gn q dst limit : Nat) (l : List Bytes) (left : Nat) (m : Mem) (d : Dev) : Prop where
  within : left ≤ min limit l.length
  mem : m = mputs m₀ (winAddr d₀ die core dst) ((l.take (drained limit left l)).flatMap (fit 64))
  atDst : greg d die core gd = (dst + 64 * drained limit left l) % 2 ^ 32
  counts : greg d die core gn = limit - drained limit left l
  queue : tgetD (schedOf d die).hwq q [] = l.drop (drained limit left l)
  stands : CoreStands d₀ die core d

/-- The bytes of the first entries of a queue. -/
theorem length_flatMap_fit (l : List Bytes) (k : Nat) (hk : k ≤ l.length) : ((l.take k).flatMap (fit 64)).length = 64 * k := by
  simp [List.length_flatMap, Nat.min_eq_left hk, Nat.mul_comm]

/-- An element of QDRAIN drains one entry more. -/
theorem DrainLeft.next (hgd : gd < 32) (hgn : gn < 32) (hne : gd ≠ gn) (hin : inWindow32 dst (64 * min limit l.length))
    (h : DrainLeft m₀ d₀ die core gd gn q dst limit l (left + 1) m d) :
    DrainLeft m₀ d₀ die core gd gn q dst limit l left
      (mputs m (bulkBase die + winPlace d die core (greg d die core gd)) (fit 64 ((tgetD (schedOf d die).hwq q []).headD [])))
      (modSched (gset (gset d die core gd (greg d die core gd + 64)) die core gn (greg d die core gn - 1)) die fun s =>
        { s with hwq := tput s.hwq q (tgetD (schedOf d die).hwq q []).tail }) := by
  obtain ⟨hdlo, hdhi⟩ := hin
  obtain ⟨hwithin, hmem, hdst, hcounts, hqueue, hstands⟩ := h
  have hdone : drained limit left l = drained limit (left + 1) l + 1 := by
    unfold drained
    omega
  generalize hk : drained limit (left + 1) l = k at *
  have hkl : k < l.length ∧ k < limit ∧ k < min limit l.length := by
    unfold drained at hk
    omega
  have hlimit : limit - k < 2 ^ 32 := hcounts ▸ greg_lt gn
  have hdst : greg d die core gd = dst + 64 * k := hdst.trans (Nat.mod_eq_of_lt (by omega))
  have hdstPlace : bulkBase die + winPlace d die core (greg d die core gd) = winAddr d₀ die core dst + 64 * k := by
    rw [hstands.winPlace, hdst, winPlace_add hdlo, winAddr_eq, Nat.add_assoc]
  refine ⟨by omega, ?_, ?_, ?_, ?_, ((hstands.gset ..).gset ..).modSched ..⟩
  · have hhead : (l.drop k).headD [] = l[k] := by simp [List.headD_eq_head?_getD, hkl.1]
    rw [hdone, hdstPlace, hmem, hqueue, hhead, List.take_succ_eq_append_getElem hkl.1, List.flatMap_append, mputs_append,
      length_flatMap_fit l k (Nat.le_of_lt hkl.1), List.flatMap_singleton]
  · rw [greg_modSched, greg_gset_ne _ hgd hgn hne, greg_gset_self, hdst, hdone, Nat.mul_succ, Nat.add_assoc]
  · rw [greg_modSched, greg_gset_self, hcounts, hdone, Nat.mod_eq_of_lt (by omega), Nat.sub_sub]
  · rw [schedOf_modSched_self, hdone]
    simp [tgetD_tput_self, hqueue]

/-- Elements of QDRAIN into a block in the window make progress. -/
theorem qdrain_progress (hgd : gd < 32) (hgn : gn < 32) (hne : gd ≠ gn) (hin : inWindow32 dst (64 * min limit l.length)) : Progress (fun m d =>
    let dst := greg d die core gd; let left := greg d die core gn
    let b := fit 64 ((tgetD (schedOf d die).hwq q []).headD [])
    let k := 64 - dst % 64
    element fz m d die core 0 0 fun m d _ =>
      match coreWrite fz m d die core dst (b.take k) with
      | (m, d, .done x) =>
        (match (if k = 64 then (m, d, AccEnd.done x) else coreWrite fz m d die core (dst + k) (b.drop k)) with
        | (m, d, .done x) =>
          (m, modSched (gset (gset d die core gd (dst + 64)) die core gn (left - 1)) die fun s =>
            { s with hwq := tput s.hwq q (tgetD (schedOf d die).hwq q []).tail }, .done x)
        | r => r)
      | r => r) (DrainLeft m₀ d₀ die core gd gn q dst limit l) := by
  intro left m d hleft hat
  obtain ⟨left, rfl⟩ : ∃ k, left = k + 1 := ⟨left - 1, by omega⟩
  obtain ⟨hdlo, hdhi⟩ := id hin
  obtain ⟨hwithin, -, hdst, -, -, -⟩ := id hat
  have hk : drained limit (left + 1) l < min limit l.length := by
    unfold drained
    omega
  have hdst : greg d die core gd = dst + 64 * drained limit (left + 1) l := hdst.trans (Nat.mod_eq_of_lt (by omega))
  refine ⟨_, _, [], _, Nat.lt_succ_self left, ?_, hat.next hgd hgn hne hin⟩
  refine element_done coreRead_nothing ?_
  have hentry : (fit 64 ((tgetD (schedOf d die).hwq q []).headD [])).length = 64 := length_fit ..
  rw [coreWrite_window (by omega) (by omega)]
  split_ifs with hwhole
  · dsimp only
    rw [hwhole, List.take_of_length_le hentry.le]
  · dsimp only
    rw [coreWrite_window (by omega) (by omega), winPlace_add (by omega), ← Nat.add_assoc, mputs_take_drop m _ (by omega)]

theorem fxQdrain_drains (hregs : distinct3 gd gq gn)
    (hin : inWindow32 (greg d₀ die core gd) (64 * min (greg d₀ die core gn) (tgetD (schedOf d₀ die).hwq (greg d₀ die core gq) []).length))
    (hruns : (coreOf d₀ die core).halted = false) (hlive : dieLive d₀ die = true) :
    ∃ m d, fxQdrain fz m₀ d₀ die core gd gq gn none 0 none = (m, pcNext d die core) ∧
      DrainLeft m₀ d₀ die core gd gn (greg d₀ die core gq) (greg d₀ die core gd) (greg d₀ die core gn) (tgetD (schedOf d₀ die).hwq (greg d₀ die core gq) []) 0 m d := by
  obtain ⟨hd32, -, hn32, -, hdn, -⟩ := hregs
  refine runLong_completes (fun left m d h => ?_) (qdrain_progress hd32 hn32 hdn hin) hruns hlive (Nat.min_le_left ..)
    ⟨Nat.le_refl _, ?_, ?_, ?_, ?_, .refl⟩
  · obtain ⟨hwithin, -, -, hcounts, hqueue, -⟩ := h
    dsimp only
    rw [gnZero, hcounts, hqueue, Bool.eq_iff_iff]
    simp only [Bool.or_eq_true, beq_iff_eq, List.isEmpty_iff, List.drop_eq_nil_iff, decide_eq_true_eq, drained]
    omega
  · simp [drained, mputs]
  · rw [drained, Nat.sub_self, Nat.mul_zero, Nat.add_zero, Nat.mod_eq_of_lt (greg_lt _)]
  · rw [drained, Nat.sub_self, Nat.sub_zero]
  · rw [drained, Nat.sub_self, List.drop_zero]

end

/-- QDRAIN into a block in the window (R414). -/
theorem queueDrainRuns : QueueDrainRuns := by
  intro die core gd gq gn s hup hregs dst q n l k hin
  obtain ⟨-, -, -, hlive, hruns⟩ := id hup
  obtain ⟨m, d, heq, hdone⟩ := fxQdrain_drains (fz := s.fuses) (m₀ := s.mem) hregs hin hruns hlive
  obtain ⟨-, hmem, hgd, hcounts, hqueue, hstands⟩ := hdone
  refine ⟨pcNext d die core, ?_, hqueue, (greg_pcNext _).trans hgd, (greg_pcNext _).trans hcounts, hstands.pcNext_pc⟩
  rw [exec_qdrain, execQdrain, onCtl_up hup, heq, hmem]
  rfl

/-! ### CRCB -/

theorem crc32cBit_lt {c : Nat} (h : c < 2 ^ 32) : crc32cBit c < 2 ^ 32 := by
  unfold crc32cBit
  split_ifs
  · exact Nat.xor_lt_two_pow (by omega) (by decide)
  · omega

theorem crc64Bit_lt {c : Nat} (h : c < 2 ^ 64) : crc64Bit c < 2 ^ 64 := by
  unfold crc64Bit
  split_ifs with htop
  · exact Nat.xor_lt_two_pow (Nat.mod_lt _ (by decide)) (by decide)
  · simp only [bitAt, beq_iff_eq] at htop
    omega

theorem repeat_lt {f : Nat → Nat} {b : Nat} (hf : ∀ c, c < b → f c < b) (n : Nat) {c : Nat} (h : c < b) : Nat.repeat f n c < b := by
  induction n with
  | zero => exact h
  | succ n ih => exact hf _ ih

theorem crc32cByte_lt {c : Nat} (x : Byte) (h : c < 2 ^ 32) : crc32cByte c x < 2 ^ 32 :=
  repeat_lt (fun _ => crc32cBit_lt) 8 (Nat.xor_lt_two_pow h (by have := x.isLt; omega))

theorem crc64Byte_lt {c : Nat} (x : Byte) (h : c < 2 ^ 64) : crc64Byte c x < 2 ^ 64 :=
  repeat_lt (fun _ => crc64Bit_lt) 8 (Nat.xor_lt_two_pow h (by have := x.isLt; omega))

theorem foldl_lt {f : Nat → Byte → Nat} {b : Nat} (hf : ∀ c x, c < b → f c x < b) (l : Bytes) {c : Nat} (h : c < b) : l.foldl f c < b := by
  induction l generalizing c with
  | nil => exact h
  | cons x l ih => exact ih (hf c x h)

section
variable {m₀ m : Mem} {d₀ d : Dev} {die core gc gs gn src total left n c : Nat} {fz : Fuses} {wide : Bool}

/-- The state that CRCB keeps: one register, or two, the low word first (R414). -/
def crcState (wide : Bool) (d : Dev) (die core gc : Nat) : Nat := if wide then greg d die core gc + 2 ^ 32 * greg d die core (gc + 1) else greg d die core gc

/-- The state after the bytes `b`. -/
def crcOver (wide : Bool) (c : Nat) (b : Bytes) : Nat := if wide then crc64 c b else b.foldl crc32cByte c

/-- What CRCB writes of a state. -/
def crcPut (wide : Bool) (d : Dev) (die core gc c : Nat) : Dev :=
  if wide then gset (gset d die core gc c) die core (gc + 1) (c / 2 ^ 32) else gset d die core gc c

/-- The registers of CRCB are different ones. -/
structure CrcRegs (wide : Bool) (gc gs gn : Nat) : Prop where
  regs : distinct3 gc gs gn
  high : wide = true → gc + 1 < 32 ∧ gc + 1 ≠ gs ∧ gc + 1 ≠ gn

theorem crcOver_append (b b' : Bytes) : crcOver wide c (b ++ b') = crcOver wide (crcOver wide c b) b' := by
  cases wide <;> simp [crcOver, crc64]

theorem crcState_lt : crcState wide d die core gc < (if wide then 2 ^ 64 else 2 ^ 32) := by
  have hlow := greg_lt (d := d) (die := die) (core := core) gc
  have hhigh := greg_lt (d := d) (die := die) (core := core) (gc + 1)
  cases wide with
  | false => exact hlow
  | true =>
    simp only [crcState, if_true]
    omega

theorem crcOver_lt (b : Bytes) (h : c < if wide then 2 ^ 64 else 2 ^ 32) : crcOver wide c b < if wide then 2 ^ 64 else 2 ^ 32 := by
  cases wide with
  | false => exact foldl_lt (fun _ => crc32cByte_lt) b h
  | true => exact foldl_lt (fun _ => crc64Byte_lt) b h

theorem crcState_crcPut (hregs : CrcRegs wide gc gs gn) (hc : c < if wide then 2 ^ 64 else 2 ^ 32) : crcState wide (crcPut wide d die core gc c) die core gc = c := by
  obtain ⟨⟨hc32, -⟩, hhigh⟩ := hregs
  cases wide with
  | false =>
    simp only [crcState, crcPut, Bool.false_eq_true, if_false] at hc ⊢
    rw [greg_gset_self, Nat.mod_eq_of_lt hc]
  | true =>
    simp only [crcState, crcPut, if_true] at hc ⊢
    rw [greg_gset_self, greg_gset_ne _ hc32 (hhigh rfl).1 (by omega), greg_gset_self]
    omega

theorem CoreStands.crcPut (h : CoreStands d₀ die core d) (wide : Bool) (gc c : Nat) : CoreStands d₀ die core (crcPut wide d die core gc c) := by
  cases wide with
  | false => exact h.gset ..
  | true => exact (h.gset ..).gset ..

/-- The state in the registers is not touched by writes of others. -/
theorem crcState_gset {i v : Nat} (hregs : CrcRegs wide gc gs gn) (hi : i < 32) (hne : i ≠ gc) (hne' : wide = true → i ≠ gc + 1) :
    crcState wide (gset d die core i v) die core gc = crcState wide d die core gc := by
  obtain ⟨⟨hc32, -⟩, hhigh⟩ := hregs
  cases wide with
  | false => exact greg_gset_ne _ hc32 hi hne.symm
  | true =>
    simp only [crcState, if_true]
    rw [greg_gset_ne _ hc32 hi hne.symm, greg_gset_ne _ (hhigh rfl).1 hi (hne' rfl).symm]

/-- CRCB of `total` bytes from `src` with `left` to go: the state has gone over those before. -/
structure CrcLeft (wide : Bool) (m₀ : Mem) (d₀ : Dev) (die core gc gs gn src total left : Nat) (m : Mem) (d : Dev) : Prop where
  within : left ≤ total
  mem : m = m₀
  state : crcState wide d die core gc = crcOver wide (crcState wide d₀ die core gc) (bulkGets m₀ d₀ die (winPlace d₀ die core src) (total - left))
  atSrc : greg d die core gs = (src + (total - left)) % 2 ^ 32
  counts : greg d die core gn = left
  stands : CoreStands d₀ die core d

/-- An element of CRCB takes `n` bytes more. -/
theorem CrcLeft.next (hregs : CrcRegs wide gc gs gn) (hin : inWindow32 src total) (h : CrcLeft wide m₀ d₀ die core gc gs gn src total left m d)
    (hpos : 0 < n) (hn : n ≤ left) :
    CrcLeft wide m₀ d₀ die core gc gs gn src total (left - n) m
      (gset (gset (crcPut wide d die core gc (crcOver wide (crcState wide d die core gc) (bulkGets m d die (winPlace d die core (greg d die core gs)) n)))
        die core gs (greg d die core gs + n)) die core gn (left - n)) := by
  obtain ⟨⟨hc32, hs32, hn32, hcs, hcn, hsn⟩, hhigh⟩ := id hregs
  obtain ⟨hslo, hshi⟩ := hin
  obtain ⟨hwithin, hmem, hstate, hsrc, hgn, hstands⟩ := h
  subst hmem
  have hleft : left < 2 ^ 32 := hgn ▸ greg_lt gn
  have hsrc : greg d die core gs = src + (total - left) := hsrc.trans (Nat.mod_eq_of_lt (by omega))
  have hdone : total - (left - n) = (total - left) + n := by omega
  have hplace : winPlace d die core (greg d die core gs) = winPlace d₀ die core src + (total - left) := by
    rw [hstands.winPlace, hsrc, winPlace_add hslo]
  refine ⟨by omega, rfl, ?_, ?_, ?_, ((hstands.crcPut ..).gset ..).gset ..⟩
  · rw [crcState_gset hregs hn32 hcn.symm fun w => (hhigh w).2.2.symm, crcState_gset hregs hs32 hcs.symm fun w => (hhigh w).2.1.symm,
      crcState_crcPut hregs (crcOver_lt _ crcState_lt), hstate, hplace, bulkGets_congr hstands.world, ← crcOver_append, ← bulkGets_append, hdone]
  · rw [greg_gset_ne _ hs32 hn32 hsn, greg_gset_self, hsrc, hdone, Nat.add_assoc]
  · rw [greg_gset_self, Nat.mod_eq_of_lt (by omega)]

/-- Elements of CRCB over a block in the window make progress. -/
theorem crcb_progress (hregs : CrcRegs wide gc gs gn) (hin : inWindow32 src total) : Progress (fun m d =>
    let src := greg d die core gs; let left := greg d die core gn
    let n := min left 8
    element fz m d die core src n fun m d b =>
      let d := if wide then
          let c := crc64 (greg d die core gc + 2 ^ 32 * greg d die core (gc + 1)) b
          gset (gset d die core gc c) die core (gc + 1) (c / 2 ^ 32)
        else gset d die core gc (b.foldl crc32cByte (greg d die core gc))
      (m, gset (gset d die core gs (src + n)) die core gn (left - n), .done []))
    (CrcLeft wide m₀ d₀ die core gc gs gn src total) := by
  intro left m d hleft hat
  obtain ⟨hslo, hshi⟩ := id hin
  obtain ⟨hwithin, -, -, hsrc, hgn, -⟩ := id hat
  have hn : 0 < min left 8 := by omega
  have hread := coreRead_window (fz := fz) (m := m) (d := d) (die := die) (core := core) (a := greg d die core gs) (by omega) (by omega) hn
  refine ⟨_, _, [], _, Nat.sub_lt hleft hn, ?_, hat.next hregs hin hn (Nat.min_le_left ..)⟩
  simp only [hgn]
  refine element_done hread ?_
  cases wide with
  | false => simp only [crcPut, crcOver, crcState, Bool.false_eq_true, if_false]
  | true => simp only [crcPut, crcOver, crcState, if_true]

theorem fxCrcb_goes (hregs : CrcRegs wide gc gs gn) (hin : inWindow32 (greg d₀ die core gs) (greg d₀ die core gn))
    (hruns : (coreOf d₀ die core).halted = false) (hlive : dieLive d₀ die = true) :
    ∃ m d, fxCrcb fz m₀ d₀ die core gc gs gn none 0 none wide = (m, pcNext d die core) ∧
      CrcLeft wide m₀ d₀ die core gc gs gn (greg d₀ die core gs) (greg d₀ die core gn) 0 m d := by
  refine runLong_completes (fun n m d h => gnZero_eq h.counts) (crcb_progress hregs hin) hruns hlive (Nat.le_refl _) ⟨Nat.le_refl _, rfl, ?_, ?_, rfl, .refl⟩
  · rw [Nat.sub_self]
    cases wide <;> rfl
  · rw [Nat.sub_self, Nat.add_zero, Nat.mod_eq_of_lt (greg_lt _)]

end

/-- CRCB.32 and CRCB.64 over a block in the window (R414). -/
theorem blockCrcRuns : BlockCrcRuns := by
  intro die core gc gs gn s hup hregs src n bs hin
  obtain ⟨-, -, -, hlive, hruns⟩ := id hup
  refine ⟨?_, fun hhigh hs hn => ?_⟩
  · obtain ⟨m, d, heq, hdone⟩ := fxCrcb_goes (fz := s.fuses) (m₀ := s.mem) (wide := false) ⟨hregs, fun h => absurd h Bool.false_ne_true⟩ hin hruns hlive
    obtain ⟨-, hmem, hstate, hgs, hgn, -⟩ := hdone
    refine ⟨pcNext d die core, ?_, (greg_pcNext _).trans hstate, (greg_pcNext _).trans hgs, (greg_pcNext _).trans hgn⟩
    rw [exec_crcb32, execCrcb32, onCtl_up hup, heq, hmem]
    rfl
  · obtain ⟨m, d, heq, hdone⟩ := fxCrcb_goes (fz := s.fuses) (m₀ := s.mem) (wide := true) ⟨hregs, fun _ => ⟨hhigh, hs, hn⟩⟩ hin hruns hlive
    obtain ⟨-, hmem, hstate, hgs, hgn, -⟩ := hdone
    refine ⟨pcNext d die core, ?_, ?_, (greg_pcNext _).trans hgs, (greg_pcNext _).trans hgn⟩
    · rw [exec_crcb64, execCrcb64, onCtl_up hup, heq, hmem]
      rfl
    · rw [greg_pcNext, greg_pcNext]
      exact hstate

/-- Settles O53: blocks copied and filled, queues drained, and the check codes of blocks. -/
theorem longInstructionsRun : Obligations.LongInstructionsRun := ⟨copyAndFillRun, queueDrainRuns, blockCrcRuns⟩

end Sys2Proof.Machine

/-! PROOFS. Threads and interrupts (O55, O31 to O34): what waking a thread can do, and the operations of R415 to R426. -/
namespace Sys2Proof.Machine

/-! ### Threads and cores of a die -/

section
variable {d d' : Dev} {die core slot : Nat}

theorem schedOf_congr (h : d'.ctc = d.ctc) (e : Nat) : schedOf d' e = schedOf d e := by rw [schedOf, h, schedOf]
theorem threadOf_congr (h : d'.ctc = d.ctc) (e n : Nat) : threadOf d' e n = threadOf d e n := by rw [threadOf, schedOf_congr h, threadOf]
theorem coreOf_congr (h : d'.ctc = d.ctc) (e c : Nat) : coreOf d' e c = coreOf d e c := by rw [coreOf, h, coreOf]

@[simp] theorem schedOf_cnt (o k e : Nat) : schedOf (cnt d o k) e = schedOf d e := schedOf_congr (cnt_ctc ..) e
@[simp] theorem threadOf_cnt (o k e n : Nat) : threadOf (cnt d o k) e n = threadOf d e n := threadOf_congr (cnt_ctc ..) e n
@[simp] theorem coreOf_cnt (o k e c : Nat) : coreOf (cnt d o k) e c = coreOf d e c := coreOf_congr (cnt_ctc ..) e c

@[simp] theorem schedOf_modCore (f : CoreRec → CoreRec) (e : Nat) : schedOf (modCore d die core f) e = schedOf d e := rfl
@[simp] theorem threadOf_modCore (f : CoreRec → CoreRec) (e n : Nat) : threadOf (modCore d die core f) e n = threadOf d e n := rfl
@[simp] theorem threadOf_pcNext (e n : Nat) : threadOf (pcNext d die core) e n = threadOf d e n := rfl
@[simp] theorem coreOf_modSched (f : SchedRec → SchedRec) (e c : Nat) : coreOf (modSched d die f) e c = coreOf d e c := rfl
@[simp] theorem coreOf_modThread (f : ThreadRec → ThreadRec) (e c : Nat) : coreOf (modThread d die slot f) e c = coreOf d e c := rfl
@[simp] theorem delay_modThread (f : ThreadRec → ThreadRec) : (schedOf (modThread d die slot f) die).delay = (schedOf d die).delay := by
  rw [modThread, schedOf_modSched_self]

@[simp] theorem threadOf_modThread_self (f : ThreadRec → ThreadRec) : threadOf (modThread d die slot f) die slot = f (threadOf d die slot) := by
  rw [threadOf, modThread, schedOf_modSched_self]
  exact tgetD_tput_self ..

theorem threadOf_modThread_ne {n : Nat} (h : slot ≠ n) (f : ThreadRec → ThreadRec) : threadOf (modThread d die n f) die slot = threadOf d die slot := by
  rw [threadOf, modThread, schedOf_modSched_self]
  exact tgetD_tput_ne _ _ _ h

theorem coreOf_modCore_ne {c : Nat} (h : core ≠ c) (f : CoreRec → CoreRec) : coreOf (modCore d die c f) die core = coreOf d die core :=
  tgetD_tput_ne _ _ _ (by omega)

@[simp] theorem threadOf_gset (i v e n : Nat) : threadOf (gset d die core i v) e n = threadOf d e n := rfl
theorem coreOf_gset_self (i v : Nat) : coreOf (gset d die core i v) die core =
    { coreOf d die core with regs := tput (coreOf d die core).regs (i % 32) (BitVec.ofNat 32 v) } := coreOf_modCore_self _

/-- A change of what the scheduler keeps beside its threads. -/
theorem threadOf_modSched (f : SchedRec → SchedRec) (h : ∀ x, (f x).threads = x.threads) (n : Nat) : threadOf (modSched d die f) die n = threadOf d die n := by
  rw [threadOf, schedOf_modSched_self, h, threadOf]

/-- The core that a running thread leaves is idle, and the thread keeps the core's context (R418). -/
theorem switchOut_running {n : Nat} (h : (coreOf d die core).running = some n) (st : TState) : switchOut d die core st =
    modCore (modThread d die n fun t => { t with state := st, core := core, regs := (coreOf d die core).regs, pc := (coreOf d die core).pc }) die core
      fun c => { c with running := none } := by
  simp only [switchOut, h]

@[simp] theorem delay_switchOut (st : TState) : (schedOf (switchOut d die core st) die).delay = (schedOf d die).delay := by
  cases hrun : (coreOf d die core).running with
  | none => simp only [switchOut, hrun]
  | some n => rw [switchOut_running hrun, schedOf_modCore, delay_modThread]

end

/-! ### Waking a thread (R421) -/

section
variable {d : Dev} {die slot r : Nat}

/-- The device with a thread READY since tick `r`, and out of the delay list. -/
def readied (d : Dev) (die slot r : Nat) : Dev :=
  modSched (modThread d die slot fun t => { t with state := .ready, ready := r }) die fun s => { s with delay := s.delay.filter fun x => x.2 != slot }

theorem threadOf_readied : threadOf (readied d die slot r) die slot = { threadOf d die slot with state := .ready, ready := r } := by
  rw [readied, threadOf_modSched, threadOf_modThread_self]
  exact fun _ => rfl

theorem delay_readied : (schedOf (readied d die slot r) die).delay = (schedOf d die).delay.filter fun x => x.2 != slot := by
  rw [readied, schedOf_modSched_self, delay_modThread]

/-- A thread that wakes is READY, and at most one core is interrupted by it, which ran another thread. -/
theorem wake_cases (d : Dev) (die slot r : Nat) : wake d die slot r = readied d die slot r ∨
    ∃ c n, (coreOf d die c).running = some n ∧ slot ≠ n ∧ wake d die slot r =
      cnt (modThread (switchOut (readied d die slot r) die c .ready) die n fun t => { t with ready := r }) (dieWin die + 0x20010) := by
  unfold wake
  extract_lets d1 busy
  cases busy with
  | nil => exact .inl rfl
  | cons c _ =>
    cases hn : (coreOf d1 die c).running with
    | none => exact .inl (by simp only [hn]; rfl)
    | some n =>
      simp only [hn]
      split_ifs with hlevel
      · refine .inr ⟨c, n, hn, fun h => ?_, rfl⟩
        rw [h] at hlevel
        exact Nat.lt_irrefl _ hlevel
      · exact .inl rfl

/-- The thread that wakes keeps all but its state and the time it became READY. -/
theorem threadOf_wake : threadOf (wake d die slot r) die slot = { threadOf d die slot with state := .ready, ready := r } := by
  obtain h | ⟨c, n, hrun, hne, h⟩ := wake_cases d die slot r
  · rw [h, threadOf_readied]
  · have hrun : (coreOf (readied d die slot r) die c).running = some n := hrun
    rw [h, threadOf_cnt, threadOf_modThread_ne hne, switchOut_running hrun, threadOf_modCore, threadOf_modThread_ne hne, threadOf_readied]

theorem delay_wake : (schedOf (wake d die slot r) die).delay = (schedOf d die).delay.filter fun x => x.2 != slot := by
  obtain h | ⟨c, n, -, -, h⟩ := wake_cases d die slot r
  · rw [h, delay_readied]
  · rw [h, schedOf_cnt, delay_modThread, delay_switchOut, delay_readied]

/-- Waking a thread changes of a core no more than whether it runs a thread. -/
theorem coreOf_wake (core : Nat) : coreOf (wake d die slot r) die core = coreOf d die core ∨
    coreOf (wake d die slot r) die core = { coreOf d die core with running := none } := by
  obtain h | ⟨c, n, hrun, -, h⟩ := wake_cases d die slot r
  · exact .inl (by rw [h]; rfl)
  · have hrun' : (coreOf (readied d die slot r) die c).running = some n := hrun
    rw [h, coreOf_cnt, coreOf_modThread, switchOut_running hrun']
    by_cases hc : core = c
    · exact .inr (by rw [hc, coreOf_modCore_self]; rfl)
    · exact .inl (by rw [coreOf_modCore_ne hc]; rfl)

/-- An idle core stays idle. -/
theorem running_wake {core : Nat} (hidle : (coreOf d die core).running = none) : (coreOf (wake d die slot r) die core).running = none := by
  obtain h | h := coreOf_wake (d := d) (die := die) (slot := slot) (r := r) core
  · rw [h, hidle]
  · rw [h]

theorem greg_wake (core n : Nat) : greg (wake d die slot r) die core n = greg d die core n := by
  obtain h | h := coreOf_wake (d := d) (die := die) (slot := slot) (r := r) core <;> rw [greg, h, greg]

end

/-! ### Waiting, sleeping, yielding, ending (R418, R423, R425) -/

section
variable {d : Dev} {die core n : Nat} (hrun : (coreOf d die core).running = some n)

include hrun in
/-- A running thread leaves its core in state `st`: the core is idle, and the thread stands with the context past its instruction. -/
theorem threadOf_switchOut (st : TState) :
    threadOf (switchOut d die core st) die n = { threadOf d die n with state := st, core := core, regs := (coreOf d die core).regs, pc := (coreOf d die core).pc } := by
  rw [switchOut_running hrun, threadOf_modCore, threadOf_modThread_self]

include hrun in
theorem idle_switchOut (st : TState) : (coreOf (switchOut d die core st) die core).running = none := by
  rw [switchOut_running hrun, coreOf_modCore_self]

/-- A thread that has been put into the delay list stands in it with its expiry. -/
theorem mem_delayIn (e : Nat) : (e, n) ∈ (schedOf (delayIn d die n e) die).delay := by
  rw [delayIn, schedOf_modSched_self]
  exact (insertBy_perm ..).symm.subset List.mem_cons_self

theorem threadOf_delayIn (e m : Nat) : threadOf (delayIn d die n e) die m = threadOf d die m := by
  rw [delayIn, threadOf_modSched]
  exact fun _ => rfl

@[simp] theorem coreOf_delayIn (e c : Nat) : coreOf (delayIn d die n e) die c = coreOf d die c := rfl

end

section
variable {d : Dev} {die core n : Nat}

/-- A running thread with its PC past the instruction and the condition of a wait (R423). -/
def asking (d : Dev) (die core n rd mask : Nat) (all : Bool) : Dev :=
  modThread (pcNext d die core) die n fun t => { t with mask := BitVec.ofNat 32 mask, modeAnd := all, rd := rd % 32 }

theorem threadOf_asking {rd : Nat} (hrd : rd < 32) (mask : Nat) (all : Bool) :
    threadOf (asking d die core n rd mask all) die n = { threadOf d die n with mask := BitVec.ofNat 32 mask, modeAnd := all, rd := rd } := by
  rw [asking, threadOf_modThread_self, threadOf_pcNext, Nat.mod_eq_of_lt hrd]

theorem coreOf_asking (rd mask : Nat) (all : Bool) :
    coreOf (asking d die core n rd mask all) die core = { coreOf d die core with pc := ((coreOf d die core).pc + 4) % 2 ^ 32 } :=
  coreOf_pcNext_self

/-- What a wait does once the condition stands. -/
theorem fxWait_running (hrun : (coreOf d die core).running = some n) (hgoes : (coreOf d die core).halted = false) (rd mask : Nat) (all : Bool) (e : Option Nat) :
    fxWait d die core rd mask all e = match waitMet (threadOf (asking d die core n rd mask all) die n) with
      | some f => gset (modThread (asking d die core n rd mask all) die n fun t => { t with flags := t.flags - f }) die core rd f.toNat
      | none => match e with
        | none => switchOut (asking d die core n rd mask all) die core .waiting
        | some e => delayIn (switchOut (asking d die core n rd mask all) die core .waitTimed) die n e := by
  simp only [fxWait, hrun, hgoes, Bool.false_eq_true, if_false]
  rfl

section
variable (hrun : (coreOf d die core).running = some n) (hgoes : (coreOf d die core).halted = false)
include hrun

/-- A wait that is met returns its flags, which are cleared (R423). -/
theorem fxWait_met {rd mask : Nat} {all : Bool} {f : BitVec 32} (hgoes : (coreOf d die core).halted = false) (hrd : rd < 32) (e : Option Nat)
    (hmet : waitMet { threadOf d die n with mask := BitVec.ofNat 32 mask, modeAnd := all, rd := rd } = some f) :
    greg (fxWait d die core rd mask all e) die core rd = f.toNat ∧
      (threadOf (fxWait d die core rd mask all e) die n).flags = (threadOf d die n).flags - f ∧
      (threadOf (fxWait d die core rd mask all e) die n).state = (threadOf d die n).state ∧
      (coreOf (fxWait d die core rd mask all e) die core).running = some n ∧
      (coreOf (fxWait d die core rd mask all e) die core).pc = ((coreOf d die core).pc + 4) % 2 ^ 32 := by
  rw [fxWait_running hrun hgoes, threadOf_asking hrd, hmet]
  dsimp only
  rw [greg_gset_self, Nat.mod_eq_of_lt f.isLt, threadOf_gset, threadOf_modThread_self, threadOf_asking hrd, coreOf_gset_self, coreOf_modThread, coreOf_asking]
  exact ⟨rfl, rfl, rfl, hrun, rfl⟩

/-- A wait that is not met leaves the core idle and the thread with its context (R418). -/
theorem asking_leaves {rd mask : Nat} {all : Bool} (hrd : rd < 32) (st : TState) :
    (coreOf (switchOut (asking d die core n rd mask all) die core st) die core).running = none ∧
      threadOf (switchOut (asking d die core n rd mask all) die core st) die n =
        { threadOf d die n with mask := BitVec.ofNat 32 mask, modeAnd := all, rd := rd, state := st, core := core, regs := (coreOf d die core).regs,
                                pc := ((coreOf d die core).pc + 4) % 2 ^ 32 } := by
  have hrun' : (coreOf (asking d die core n rd mask all) die core).running = some n := by rw [coreOf_asking, hrun]
  exact ⟨idle_switchOut hrun' st, by rw [threadOf_switchOut hrun', threadOf_asking hrd, coreOf_asking]⟩

include hgoes

theorem fxWait_untimed {rd mask : Nat} {all : Bool} (hrd : rd < 32)
    (hmet : waitMet { threadOf d die n with mask := BitVec.ofNat 32 mask, modeAnd := all, rd := rd } = none) :
    fxWait d die core rd mask all none = switchOut (asking d die core n rd mask all) die core .waiting := by
  rw [fxWait_running hrun hgoes, threadOf_asking hrd, hmet]

theorem fxWait_timed {rd mask : Nat} {all : Bool} (hrd : rd < 32) (e : Nat)
    (hmet : waitMet { threadOf d die n with mask := BitVec.ofNat 32 mask, modeAnd := all, rd := rd } = none) :
    fxWait d die core rd mask all (some e) = delayIn (switchOut (asking d die core n rd mask all) die core .waitTimed) die n e := by
  rw [fxWait_running hrun hgoes, threadOf_asking hrd, hmet]

theorem fxDelay_running (e : Nat) : fxDelay d die core e = delayIn (switchOut (pcNext d die core) die core .delayed) die n e := by
  simp only [fxDelay, hrun, hgoes, Bool.false_eq_true, if_false]

theorem fxYield_running (t : Nat) : fxYield d die core t = wake (switchOut (pcNext d die core) die core .ready) die n (ticks t) := by
  simp only [fxYield, hrun, hgoes, Bool.false_eq_true, if_false]

omit hgoes

/-- A thread leaves its core behind an instruction (R418). -/
theorem switchOut_pcNext (st : TState) : (coreOf (switchOut (pcNext d die core) die core st) die core).running = none ∧
    threadOf (switchOut (pcNext d die core) die core st) die n =
      { threadOf d die n with state := st, core := core, regs := (coreOf d die core).regs, pc := ((coreOf d die core).pc + 4) % 2 ^ 32 } := by
  have hrun' : (coreOf (pcNext d die core) die core).running = some n := by rw [coreOf_pcNext_self, hrun]
  exact ⟨idle_switchOut hrun' st, by rw [threadOf_switchOut hrun', threadOf_pcNext, coreOf_pcNext_self]⟩

end

/-! ### Ending (R418, R426) -/

/-- A ticket that comes back changes no thread. -/
theorem threadOf_modFlow (f : Nat) (g : FlowRec → FlowRec) (m : Nat) : threadOf (modFlow d die f g) die m = threadOf d die m := by
  rw [modFlow, threadOf_modSched]
  exact fun _ => rfl

/-- What is kept by tickets that come back and by the error of one that does not is kept after the thread is gone. -/
theorem fxExit_leaves {β : Type} (g : Dev → β) (hflow : ∀ d f h, g (modFlow d die f h) = g d) (hraise : ∀ d f, g (flowFault d die core f) = g d)
    (hrun : (coreOf d die core).running = some n) (hgoes : (coreOf d die core).halted = false) :
    g (fxExit d die core) = g (modSched (modCore d die core fun c => { c with running := none }) die fun s => { s with threads := tdel s.threads n }) := by
  simp only [fxExit, hrun, hgoes, Bool.false_eq_true, if_false]
  refine foldl_leaves g (fun d f => ?_) _ _
  split_ifs
  · rfl
  · exact (hraise _ _).trans (foldl_leaves g (fun d x => hflow _ _ _) _ _)

/-! ### Taking a thread (R420, R422) -/

/-- A core goes on with a thread's context. -/
def goesOn (d : Dev) (die core t n : Nat) : Dev :=
  modCore (modThread d die n fun x => { x with state := .running, core := core, everRan := true }) die core fun c =>
    { c with running := some n, dispatched := ticks t, regs := (threadOf d die n).regs, pc := (threadOf d die n).pc }

/-- A take may count, and is otherwise the same whether or not the core's chuck held the thread. -/
theorem fxTake_takes {t : Nat} (hgoes : (coreOf d die core).halted = false) (hidle : (coreOf d die core).running = none)
    (htake : takeFrom d die core (readyOrder d die) = some n) : ∃ d', d'.ctc = d.ctc ∧ fxTake d die core t = goesOn d' die core t n := by
  refine ⟨if (chucks d die).contains (core, n) then d else cnt d (dieWin die + 0x20014), ?_, ?_⟩
  · split_ifs
    · rfl
    · exact cnt_ctc ..
  · simp only [fxTake, hgoes, hidle, Option.isSome_none, Bool.or_false, Bool.false_eq_true, if_false, htake]
    rfl

theorem goesOn_takes {d' : Dev} {t : Nat} (h : d'.ctc = d.ctc) :
    coreOf (goesOn d' die core t n) die core =
        { coreOf d die core with running := some n, dispatched := ticks t, regs := (threadOf d die n).regs, pc := (threadOf d die n).pc } ∧
      threadOf (goesOn d' die core t n) die n = { threadOf d die n with state := .running, core := core, everRan := true } := by
  rw [goesOn, coreOf_modCore_self, threadOf_modCore, coreOf_modThread, threadOf_modThread_self, threadOf_congr h, coreOf_congr h]
  exact ⟨rfl, rfl⟩

end

/-- A meaning that changes the device only. -/
theorem onCtl_withDev {s : State} {die core : Nat} (hup : ctlUp s die core) (f : Dev → Dev) :
    onCtl s die core (fun _ m d => (m, f d)) = .next (s.withDev (f s.dev)) := onCtl_up hup _

/-- A running thread waits, sleeps, yields and ends (R418, R423, R425). -/
theorem threadWaitsRun : ThreadWaitsRun := by
  intro die core n s hup hrun c pc
  obtain ⟨-, -, -, -, hgoes⟩ := id hup
  refine ⟨fun rd mask all hrd => ⟨fun f e hmet => ⟨_, onCtl_withDev hup _, fxWait_met hrun hgoes hrd e hmet⟩, fun hmet => ⟨_, onCtl_withDev hup _, ?_⟩,
    fun e hmet => ⟨_, onCtl_withDev hup _, ?_⟩⟩, fun e => ⟨_, onCtl_withDev hup _, ?_⟩, fun t => ⟨_, onCtl_withDev hup _, ?_⟩,
    fun hsorted => ⟨_, onCtl_withDev hup _, ?_⟩⟩
  case refine_1 =>
    obtain ⟨hidle, hthread⟩ := asking_leaves hrun (mask := mask) (all := all) hrd .waiting
    dsimp only
    rw [fxWait_untimed hrun hgoes hrd hmet]
    exact ⟨hidle, hthread, by rw [delay_switchOut, asking, delay_modThread, schedOf_pcNext]⟩
  case refine_2 =>
    obtain ⟨hidle, hthread⟩ := asking_leaves hrun (mask := mask) (all := all) hrd .waitTimed
    dsimp only
    rw [fxWait_timed hrun hgoes hrd e hmet]
    exact ⟨hidle, (threadOf_delayIn ..).trans hthread, mem_delayIn e⟩
  case refine_3 =>
    obtain ⟨hidle, hthread⟩ := switchOut_pcNext hrun .delayed
    dsimp only
    rw [fxDelay_running hrun hgoes]
    exact ⟨hidle, mem_delayIn e, (threadOf_delayIn ..).trans hthread⟩
  case refine_4 =>
    rw [fxYield_running hrun hgoes, threadOf_wake]
    exact ⟨running_wake (switchOut_pcNext hrun .ready).1, rfl, rfl⟩
  case refine_5 =>
    rw [fxExit_leaves (fun d => (coreOf d die core).running) (fun _ _ _ => rfl) (fun _ _ => rfl) hrun hgoes,
      fxExit_leaves (fun d => threadOf d die n) (fun _ _ _ => threadOf_modFlow _ _ _) (fun _ _ => rfl) hrun hgoes]
    refine ⟨by rw [coreOf_modSched, coreOf_modCore_self], ?_⟩
    rw [threadOf, schedOf_modSched_self, schedOf_modCore, tgetD, tget_tdel_self hsorted, Option.getD_none]

/-- An idle core takes the thread that R420 gives it; a thread whose delay ends is READY (R420, R422, R425). -/
theorem coreTakesAndDelaysRun : CoreTakesAndDelaysRun := by
  intro die s ⟨h8, hdie⟩
  refine ⟨fun core t n hup hidle htake => ⟨_, onCtl_withDev hup _, ?_⟩, fun tick e n hdue hsleeps => ⟨_, onDie_withDev _ h8 hdie, ?_⟩⟩
  · obtain ⟨-, -, -, -, hgoes⟩ := hup
    obtain ⟨d', hctc, heq⟩ := fxTake_takes (t := t) hgoes hidle htake
    dsimp only
    rw [heq]
    exact goesOn_takes hctc
  · have hwake : fxTick s.dev die tick = wake s.dev die n (tick * 250) := by
      rw [fxTick, hdue]
      simp only [List.foldl_cons, List.foldl_nil, hsleeps, if_true]
    rw [hwake, threadOf_wake]
    exact ⟨rfl, rfl, delay_wake⟩

/-- Settles O55: a running thread's operations, and how a thread comes to run. -/
theorem threadsRun : Obligations.ThreadsRun := ⟨threadWaitsRun, coreTakesAndDelaysRun⟩

/-! ### Spawning (R419) -/

section
variable {d : Dev} {die core : Nat}

/-- A core that runs a thread and is not halted takes its instructions. -/
theorem runs_not_idle (hrun : (coreOf d die core).running.isSome = true) (hgoes : (coreOf d die core).halted = false) :
    ((coreOf d die core).running.isNone || (coreOf d die core).halted) = false := by
  rw [hgoes, Bool.or_false, ← Option.not_isSome, hrun]
  rfl

/-- Registers 1 to `k` of a new thread, which the spec does not give, after g0 with its argument. -/
def freshRegs (arg k : Nat) (d : Dev) : Tab Word × Dev :=
  (List.range k).foldl (fun (x : Tab Word × Dev) i => (tput x.1 (i + 1) (BitVec.ofNat 32 (freeVal x.2).1), (freeVal x.2).2)) ([(0, BitVec.ofNat 32 arg)], d)

theorem freshRegs_zero (arg k : Nat) (d : Dev) : tget (freshRegs arg k d).1 0 = some (BitVec.ofNat 32 arg) := by
  refine List.foldlRecOn (motive := fun x : Tab Word × Dev => tget x.1 0 = some (BitVec.ofNat 32 arg)) _ _ rfl fun x hx i _ => ?_
  exact (tget_tput_ne _ _ _ _ (Nat.succ_ne_zero i).symm).trans hx

theorem freshRegs_ctc (arg k : Nat) (d : Dev) : (freshRegs arg k d).2.ctc = d.ctc :=
  List.foldlRecOn (motive := fun x : Tab Word × Dev => x.2.ctc = d.ctc) _ _ rfl fun _ hx _ _ => hx

/-- The device with thread `n` made READY. -/
def spawned (d : Dev) (die core rd level entry arg t n : Nat) : Dev :=
  let r := freshRegs arg 31 (gset (pcNext d die core) die core rd 0)
  modSched (modThread r.2 die n fun _ => { (default : ThreadRec) with state := .ready, level := level % 32, ready := ticks t, regs := r.1, pc := entry % 2 ^ 32 })
    die fun s => { s with peak := max s.peak (threadsUsed d die + 1) }

/-- A free slot that the reserve leaves is taken. -/
theorem fxSpawn_free {rd level entry arg t n : Nat} (hrun : (coreOf d die core).running.isSome = true) (hgoes : (coreOf d die core).halted = false)
    (hfree : ((List.range 256).find? fun n => (threadOf d die n).state == TState.free) = some n)
    (hroom : level < 4 ∨ min 64 (bits (rget d (dieWin die + 0x20000)) 15 8) < 256 - threadsUsed d die) :
    fxSpawn d die core rd level entry arg t = wake (spawned d die core rd level entry arg t n) die n (ticks t) := by
  have hroom : (decide (level ≥ 4) && decide (256 - threadsUsed d die ≤ min 64 (bits (rget d (dieWin die + 0x20000)) 15 8))) = false := by
    rw [Bool.and_eq_false_iff, decide_eq_false_iff_not, decide_eq_false_iff_not]
    omega
  unfold fxSpawn
  extract_lets used reserve d0
  rw [runs_not_idle hrun hgoes, if_neg Bool.false_ne_true]
  change (match (List.range 256).find? fun n => (threadOf d die n).state == TState.free with | none => _ | some n => _) = _
  rw [hfree]
  dsimp only
  rw [hroom, if_neg Bool.false_ne_true]
  rfl

/-- Without a slot that the reserve leaves, the spawner reads the status (R419). -/
theorem fxSpawn_refused {rd level entry arg t : Nat} (hrun : (coreOf d die core).running.isSome = true) (hgoes : (coreOf d die core).halted = false)
    (hfull : ((List.range 256).find? fun n => (threadOf d die n).state == TState.free) = none ∨
      (4 ≤ level ∧ 256 - threadsUsed d die ≤ min 64 (bits (rget d (dieWin die + 0x20000)) 15 8))) :
    fxSpawn d die core rd level entry arg t = cnt (gset (pcNext d die core) die core rd 0x204) (dieWin die + 0x2000C) := by
  unfold fxSpawn
  extract_lets used reserve d0
  rw [runs_not_idle hrun hgoes, if_neg Bool.false_ne_true]
  change (match (List.range 256).find? fun n => (threadOf d die n).state == TState.free with | none => _ | some n => _) = _
  cases hfree : (List.range 256).find? fun n => (threadOf d die n).state == TState.free with
  | none => rfl
  | some n =>
    obtain ⟨hlevel, hreserve⟩ := hfull.resolve_left (by rw [hfree]; exact Option.some_ne_none n)
    exact if_pos (by rw [Bool.and_eq_true, decide_eq_true_eq, decide_eq_true_eq]; exact ⟨hlevel, hreserve⟩)

theorem threadOf_spawned {rd level entry arg t n : Nat} : threadOf (spawned d die core rd level entry arg t n) die n =
    { (default : ThreadRec) with state := .ready, level := level % 32, ready := ticks t, pc := entry % 2 ^ 32,
                                 regs := (freshRegs arg 31 (gset (pcNext d die core) die core rd 0)).1 } := by
  rw [spawned, threadOf_modSched, threadOf_modThread_self]
  exact fun _ => rfl

/-- The status of success stands in the spawner's register. -/
theorem greg_spawned {rd level entry arg t n : Nat} : greg (spawned d die core rd level entry arg t n) die core rd = 0 := by
  have hcore : coreOf (spawned d die core rd level entry arg t n) die core = coreOf (gset (pcNext d die core) die core rd 0) die core :=
    coreOf_congr (d' := (freshRegs arg 31 (gset (pcNext d die core) die core rd 0)).2) (freshRegs_ctc ..) ..
  rw [greg, hcore]
  exact greg_gset_self ..

end

/-- Settles O32: the two ways a spawn ends. -/
theorem threadSpawnRuns : Obligations.ThreadSpawnRuns := by
  intro die core rd level entry arg t n s hup hrun hrd free reserve
  obtain ⟨-, -, -, -, hgoes⟩ := id hup
  refine ⟨fun hfree hroom _ => ⟨_, onCtl_withDev hup _, ?_⟩, fun hfull => ?_⟩
  · rw [fxSpawn_free hrun hgoes hfree hroom, threadOf_wake, threadOf_spawned, greg_wake, greg_spawned]
    dsimp only
    exact ⟨rfl, rfl, rfl, rfl, rfl, freshRegs_zero .., rfl⟩
  · rw [exec_tspawn, execTspawn, onCtl_withDev hup, fxSpawn_refused hrun hgoes hfull]

/-! ### Flags (R423, R424) -/

section
variable {d : Dev} {die slot flag r : Nat}

/-- A flag for a free slot only counts. -/
theorem setFlag_free (h : (threadOf d die slot).state = .free) : setFlag d die slot flag r = cnt d (dieWin die + 0x20018) := by
  simp only [setFlag, h, if_true]

/-- A thread that does not wait keeps the flag. -/
theorem setFlag_awake (hflag : flag < 32) (h : (threadOf d die slot).state = .ready ∨ (threadOf d die slot).state = .running ∨ (threadOf d die slot).state = .delayed) :
    setFlag d die slot flag r =
      modThread d die slot fun _ => { threadOf d die slot with flags := (threadOf d die slot).flags ||| BitVec.ofNat 32 (2 ^ flag) } := by
  unfold setFlag
  rw [Nat.mod_eq_of_lt hflag]
  obtain h | h | h := h <;> simp [h]

/-- A wait that the flag meets ends, and the thread takes the flags of its mask. -/
theorem setFlag_wakes (hflag : flag < 32) {f : BitVec 32} (h : (threadOf d die slot).state = .waiting ∨ (threadOf d die slot).state = .waitTimed)
    (hmet : waitMet { threadOf d die slot with flags := (threadOf d die slot).flags ||| BitVec.ofNat 32 (2 ^ flag) } = some f) :
    setFlag d die slot flag r = wake (modThread (modThread d die slot fun _ =>
      { threadOf d die slot with flags := (threadOf d die slot).flags ||| BitVec.ofNat 32 (2 ^ flag) }) die slot
        fun t => { t with flags := t.flags - f, regs := tput t.regs (t.rd % 32) f }) die slot r := by
  have hbusy : ¬ (threadOf d die slot).state = .free := by obtain h | h := h <;> simp [h]
  have hwaits : ¬ ((threadOf d die slot).state ≠ .waiting ∧ (threadOf d die slot).state ≠ .waitTimed) := fun ⟨hw, ht⟩ => h.elim hw ht
  unfold setFlag
  rw [Nat.mod_eq_of_lt hflag]
  dsimp only
  rw [if_neg hbusy, if_neg hwaits, hmet]

end

/-- Settles O33: a flag stays, wakes its thread, or only counts. -/
theorem flagsRun : Obligations.FlagsRun := by
  intro die slot flag t s ⟨h8, hdie⟩ hflag th set
  refine ⟨fun h => ?_, fun h => ?_, fun f h hmet _ => ⟨_, onDie_withDev _ h8 hdie, ?_⟩, fun q e h => ?_, fun core hup hrun h => ?_⟩
  · rw [exec_hardwareEventFlag, execHardwareEventFlag, onDie_withDev _ h8 hdie, fxEventFlag, setFlag_awake hflag h]
  · rw [exec_hardwareEventFlag, execHardwareEventFlag, onDie_withDev _ h8 hdie, fxEventFlag, setFlag_free h]
  · dsimp only [fxEventFlag]
    rw [setFlag_wakes hflag h hmet, threadOf_wake, threadOf_modThread_self, threadOf_modThread_self]
    exact ⟨rfl, rfl, tget_tput_self .., rfl⟩
  · have hthread : threadOf (modSched s.dev die fun x => { x with hwq := tput x.hwq q (tgetD x.hwq q [] ++ [fit 64 e]) }) die slot = th := by
      rw [threadOf_modSched]
      exact fun _ => rfl
    rw [exec_hardwareEventFlag, execHardwareEventFlag, onDie_withDev _ h8 hdie, fxEventFlag,
      setFlag_awake hflag (.inl ((congrArg ThreadRec.state hthread).trans h)), hthread]
  · obtain ⟨-, -, -, -, hgoes⟩ := id hup
    rw [exec_tsignal, execTsignal, onCtl_withDev hup]
    rw [runs_not_idle hrun hgoes, if_neg Bool.false_ne_true, setFlag_awake (d := pcNext s.dev die core) hflag h]
    rfl

/-! ### Ordered flows (R426) -/

section
variable {d : Dev} {die core f : Nat}

theorem modFlow_congr {g h : FlowRec → FlowRec} (heq : g (flowOf d die f) = h (flowOf d die f)) : modFlow d die f g = modFlow d die f h := by
  rw [modFlow, modFlow, heq]

/-- Tickets that have not come back stay. -/
theorem releaseFlow_waits {l : List (Nat × Nat × Option (Option (BitVec 64)))} (h : ∀ x ∈ l, x.2.2 = none) (out : List (BitVec 64)) :
    releaseFlow l out = (l, out) := by
  cases l with
  | nil => rfl
  | cons x l =>
    obtain ⟨ticket, th, it⟩ := x
    obtain rfl : it = none := h _ List.mem_cons_self
    rfl

/-- A ticket that comes back leaves the tickets of other numbers alone. -/
theorem map_other_tickets {l : List (Nat × Nat × Option (Option (BitVec 64)))} {ticket : Nat} (h : ∀ x ∈ l, x.1 ≠ ticket) (item : Option (BitVec 64)) :
    (l.map fun x => if x.1 = ticket then (x.1, x.2.1, some item) else x) = l :=
  (List.map_congr_left fun x hx => if_neg (h x hx)).trans l.map_id

/-- The oldest ticket comes back: its item goes out, if it has one. -/
theorem handBack_oldest {ticket th : Nat} {rest : List (Nat × Nat × Option (Option (BitVec 64)))} (hopen : (flowOf d die f).open_ = (ticket, th, none) :: rest)
    (hrest : ∀ x ∈ rest, x.1 ≠ ticket ∧ x.2.2 = none) (item : Option (BitVec 64)) :
    handBack d die f ticket item = modFlow d die f fun r => { r with open_ := rest, out := r.out ++ item.toList } := by
  refine modFlow_congr ?_
  rw [hopen, List.map_cons, map_other_tickets fun x hx => (hrest x hx).1]
  cases item <;> simp [releaseFlow, releaseFlow_waits fun x hx => (hrest x hx).2]

/-- The item of a later ticket waits for the oldest. -/
theorem handBack_later {old ho ticket th : Nat} (hopen : (flowOf d die f).open_ = [(old, ho, none), (ticket, th, none)]) (hne : old ≠ ticket)
    (item : Option (BitVec 64)) : handBack d die f ticket item = modFlow d die f fun r => { r with open_ := [(old, ho, none), (ticket, th, some item)] } := by
  refine modFlow_congr ?_
  simp [hopen, hne, releaseFlow]

section
variable (hrun : (coreOf d die core).running.isSome = true) (hgoes : (coreOf d die core).halted = false) (hf : f < 16)
include hrun hgoes hf

/-- A ticket is handed back if it is outstanding; else the error of R426. -/
theorem fxFlowBack_running (ticket : Nat) (item : Option (BitVec 64)) : fxFlowBack d die core f ticket item =
    if (flowOf d die f).open_.any fun x => x.1 == ticket && x.2.2.isNone then handBack (pcNext d die core) die f ticket item
    else flowFault (pcNext d die core) die core f := by
  unfold fxFlowBack
  rw [runs_not_idle hrun hgoes, decide_eq_false (Nat.not_le.2 hf)]
  rfl

theorem fxFlowBack_known {ticket : Nat} (item : Option (BitVec 64)) (h : ∃ th, (ticket, th, none) ∈ (flowOf d die f).open_) :
    fxFlowBack d die core f ticket item = handBack (pcNext d die core) die f ticket item := by
  obtain ⟨th, hmem⟩ := h
  rw [fxFlowBack_running hrun hgoes hf, if_pos]
  exact List.any_eq_true.2 ⟨_, hmem, by simp⟩

theorem fxFlowBack_unknown {ticket : Nat} (item : Option (BitVec 64)) (h : ∀ x ∈ (flowOf d die f).open_, x.1 ≠ ticket) :
    fxFlowBack d die core f ticket item = flowFault (pcNext d die core) die core f := by
  have hnone : ((flowOf d die f).open_.any fun x => x.1 == ticket && x.2.2.isNone) = false :=
    List.any_eq_false.2 fun x hx => by simp [h x hx]
  rw [fxFlowBack_running hrun hgoes hf, hnone, if_neg Bool.false_ne_true]

end

/-- A ticket is taken while the flow has room. -/
theorem fxFlowEnter_room {n rd : Nat} (hrun : (coreOf d die core).running = some n) (hgoes : (coreOf d die core).halted = false) (hf : f < 16)
    (hroom : (flowOf d die f).open_.length < 256) : fxFlowEnter d die core rd f = gset (modFlow (pcNext d die core) die f fun r =>
      { r with next := (r.next + 1) % 2 ^ 32, open_ := r.open_ ++ [(r.next, n, none)] }) die core rd (flowOf d die f).next := by
  have hcount : ¬ (flowOf d die f).open_.countP (fun x => x.2.2 != some none) ≥ 256 := Nat.not_le.2 (Nat.lt_of_le_of_lt List.countP_le_length hroom)
  simp only [fxFlowEnter, hrun, hgoes, Bool.false_or, decide_eq_true_eq, if_neg (Nat.not_le.2 hf)]
  exact if_neg hcount

end

/-- Settles O34: tickets are taken, come back in order or wait, and a ticket that is not outstanding is an error. -/
theorem flowsRun : Obligations.FlowsRun := by
  intro die core f s hup hrun hf d0 r
  obtain ⟨-, -, -, -, hgoes⟩ := id hup
  refine ⟨fun rd n hn hroom => ?_, fun ticket th item rest hopen hrest => ?_, fun ticket th old ho item hopen hne => ?_, fun ticket item hnone => ⟨?_, ?_⟩⟩
  · rw [exec_flowEnter, execFlowEnter, onCtl_withDev hup, fxFlowEnter_room hn hgoes hf hroom]
  · have hmem : (ticket, th, none) ∈ r.open_ := hopen ▸ List.mem_cons_self
    constructor
    · rw [exec_flowDone, execFlowDone, onCtl_withDev hup, fxFlowBack_known hrun hgoes hf _ ⟨th, hmem⟩, handBack_oldest (d := d0) hopen hrest]
      rfl
    · rw [exec_flowSkip, execFlowSkip, onCtl_withDev hup, fxFlowBack_known hrun hgoes hf _ ⟨th, hmem⟩, handBack_oldest (d := d0) hopen hrest]
      simp
  · have hmem : (ticket, th, none) ∈ r.open_ := hopen ▸ List.mem_cons_of_mem _ List.mem_cons_self
    rw [exec_flowDone, execFlowDone, onCtl_withDev hup, fxFlowBack_known hrun hgoes hf _ ⟨th, hmem⟩, handBack_later (d := d0) hopen hne]
  · rw [exec_flowDone, execFlowDone, onCtl_withDev hup, fxFlowBack_unknown hrun hgoes hf _ hnone]
  · rw [exec_flowSkip, execFlowSkip, onCtl_withDev hup, fxFlowBack_unknown hrun hgoes hf _ hnone]

/-! ### Interrupts and faulting elements (R412, R415 to R417) -/

section
variable {d : Dev} {die core : Nat}

/-- A handler is entered at an address of its own. -/
theorem coreOf_enterHandler (code : Nat) : coreOf (enterHandler d die core code) die core =
    { coreOf d die core with savedPc := (coreOf d die core).pc, pc := (freeVal d).1 % 2 ^ 32, trap := some code } := coreOf_modCore_self _

/-- A double-bit error in the first element of a block that is not empty (R412). -/
theorem longLoop_faults {fin : Dev → Bool} {el : Mem → Dev → Acc} (n : Nat) (m : Mem) (h : fin d = false) :
    longLoop die core fin el (n + 1) (some 0) m d =
      (m, raise (stick (cnt d (dieWin die + 0x30010)) (dieWin die + 0x30004) 1) 0x024 die (coreOrigin core) 0, .fault) := by
  simp only [longLoop, h, Bool.false_eq_true, if_false, if_true]

/-- Such an error is a precise fault, and nothing is stored (R412, R416). -/
theorem runLong_faults {m : Mem} {gn : Nat} {el : Mem → Dev → Acc} (hgoes : (coreOf d die core).halted = false) (hlive : dieLive d die = true)
    (hcount : greg d die core gn ≠ 0) : runLong m d die core gn none 0 (some 0) (gnZero die core gn) el =
      (m, enterHandler (raise (stick (cnt d (dieWin die + 0x30010)) (dieWin die + 0x30004) 1) 0x024 die (coreOrigin core) 0) die core 1) := by
  have hfin : gnZero die core gn d = false := beq_eq_false_iff_ne.2 hcount
  have hcnt : cnt d (dieWin die + 0x3000C) 0 = d := rfl
  simp only [runLong, hgoes, hlive, hcnt, Option.getD_none, longLoop_faults _ m hfin, Bool.not_true, Bool.or_self, Bool.false_eq_true, if_false]

/-- An NMI that is taken is no longer set. -/
def nmiTaken (d : Dev) (die core : Nat) (nmi : Bool) : Dev := if nmi then modCore d die core fun c => { c with nmi := false } else d

theorem coreOf_nmiTaken (nmi : Bool) : coreOf (nmiTaken d die core nmi) die core = { coreOf d die core with nmi := if nmi then false else (coreOf d die core).nmi } := by
  cases nmi with
  | false => rfl
  | true => rw [nmiTaken, if_pos rfl, coreOf_modCore_self]; rfl

/-- An interrupt in time, or an NMI that is set, is taken (R415, R417, R454). -/
theorem fxInterrupt_taken {nmi : Bool} {lat : Nat} (hgoes : (coreOf d die core).halted = false) (hnmi : nmi = true → (coreOf d die core).nmi = true)
    (hlat : lat ≤ 840) : fxInterrupt d die core nmi lat =
      rset (nmiTaken (enterHandler d die core (if nmi then 3 else 2)) die core nmi) (dieWin die + 0x30008) (max (rget d (dieWin die + 0x30008)) lat) := by
  have hset : (nmi && !(coreOf d die core).nmi) = false := by
    cases nmi with
    | false => rfl
    | true => rw [hnmi rfl]; rfl
  have hregs : (nmiTaken (enterHandler d die core (if nmi then 3 else 2)) die core nmi).regs = d.regs := by cases nmi <;> rfl
  have hget : rget (nmiTaken (enterHandler d die core (if nmi then 3 else 2)) die core nmi) (dieWin die + 0x30008) = rget d (dieWin die + 0x30008) := by
    rw [rget, hregs, rget]
  rw [← hget]
  simp only [fxInterrupt, hgoes, hset, decide_eq_false (Nat.not_lt.2 hlat), Bool.or_self, Bool.false_eq_true, if_false]
  rfl

/-- The sticky bit of a fault shows. -/
theorem rget_stick_bit0 (o : Nat) : bitAt (rget (stick d o 1) o) 0 = true := by
  rw [stick, rget_rset_self, bitAt_eq_testBit, Nat.testBit_mod_two_pow]
  simp

end

/-- Settles O31: an interrupt or an NMI, and the precise fault of a first element. -/
theorem interruptsRun : Obligations.InterruptsRun := by
  intro die core s hup c
  obtain ⟨-, -, -, hlive, hgoes⟩ := id hup
  refine ⟨fun nmi lat hnmi hlat => ⟨_, (freeVal s.dev).1 % 2 ^ 32, onCtl_withDev hup _, ?_⟩, fun gd gs gn hcount => ?_⟩
  · rw [fxInterrupt_taken hgoes hnmi hlat, rget_rset_self]
    refine ⟨?_, rfl⟩
    change coreOf (nmiTaken (enterHandler s.dev die core (if nmi then 3 else 2)) die core nmi) die core = _
    rw [coreOf_nmiTaken, coreOf_enterHandler]
  · have hfault := onCtl_up hup fun fz m d => fxMcopy fz m d die core gd gs gn none 0 (some 0)
    rw [fxMcopy, runLong_faults hgoes hlive hcount] at hfault
    refine ⟨_, (freeVal (raise (stick (cnt s.dev (dieWin die + 0x30010)) (dieWin die + 0x30004) 1) 0x024 die (coreOrigin core) 0)).1 % 2 ^ 32, hfault, ?_, ?_, ?_⟩
    · rw [coreOf_enterHandler, coreOf_congr (raise_ctc ..), coreOf_congr (stick_ctc ..), coreOf_cnt]
    · exact rget_stick_bit0 _
    · exact ⟨_, rfl, rfl, rfl⟩

end Sys2Proof.Machine

/-! PROOFS. Live calibration (O49): the commands that start, end and report estimates, and the events that move them on. -/
namespace Sys2Proof.Machine

/-! ### Kinematic estimates (R435, R437, R439) -/

section
variable {d : Dev} {c : Cmd} {m : ModelRec} {a : AgentRec}

/-- A CALIB_KIN block that names a kinematic model and an agent of the issuer's that is bound to it (R437). -/
structure KinNames (d : Dev) (c : Cmd) (m : ModelRec) (a : AgentRec) : Prop where
  length : c.block.length = 8
  handle : fld c.block 0 2 ≤ 1023
  agentNo : fld c.block 2 2 ≤ 4095
  reserved : fld c.block 7 1 = 0
  model : tget d.world.models (fld c.block 0 2) = some m
  owner : m.owner = c.polder
  kinematic : m.kind = 1
  agent : tget d.world.agents (fld c.block 2 2) = some a
  agentPolder : a.polder = c.polder
  bound : a.bind.model = fld c.block 0 2
  stays : a.leaving = false

/-- A well-formed CALIB_KIN goes by the state of the model's estimate. -/
theorem fxCalibKin_named (h : KinNames d c m a) {mode : Nat} (hmode : mode ≤ 2) (hcount : mode ≠ 2 → 8 ≤ fld c.block 4 2 ∧ fld c.block 4 2 ≤ 1024) :
    fxCalibKin d c mode =
      if mode = 2 then askCal (endEstimate d (fld c.block 0 2) 9) c
      else if (estOf d (fld c.block 0 2) 1 (fld c.block 0 2)).state ≠ 0 then askCal d c
      else if kinRunning d ≥ 16 then answer d c stBadState 0
      else askCal (setEst d (fld c.block 0 2) { idleEst 1 (fld c.block 0 2) with
        polder := c.polder, state := 1, apply := mode == 1, result := (estOf d (fld c.block 0 2) 1 (fld c.block 0 2)).result, agent := fld c.block 2 2,
        want := fld c.block 4 2, start := d.time.turn, ends := (estOf d (fld c.block 0 2) 1 (fld c.block 0 2)).ends,
        pin := ((curModel m).map (·.ver)).getD 0, raw := ((curModel m).map (·.raw)).getD [] }) c := by
  obtain ⟨hlen, hhandle, hagent, hres, hmodel, howner, hkin, hget, hpolder, hbound, hstays⟩ := h
  have hsamples : (mode != 2 && (decide (fld c.block 4 2 < 8) || decide (fld c.block 4 2 > 1024))) = false := by
    by_cases h2 : mode = 2
    · simp [h2]
    · obtain ⟨hlo, hhi⟩ := hcount h2
      simp [Nat.not_lt.2 hlo, Nat.not_lt.2 hhi]
  have hblock : (decide (c.block.length ≠ 8) || decide (fld c.block 0 2 > 1023) || decide (fld c.block 2 2 > 4095) || decide (mode > 2) ||
      decide (fld c.block 7 1 ≠ 0) || (decide (mode ≠ 2) && (decide (fld c.block 4 2 < 8) || decide (fld c.block 4 2 > 1024)))) = false := by
    simpa [hlen, hhandle, hagent, hmode, hres] using hsamples
  unfold fxCalibKin
  extract_lets b h ag n m' a' good e v
  rw [hblock, if_neg Bool.false_ne_true]
  have hgood : good = true := by simp [good, m', a', h, ag, b, hmodel, hget, howner, hkin, hpolder, hbound, hstays]
  rw [hgood]
  simp only [Bool.not_true, Bool.false_eq_true, if_false, v, m', h, b, hmodel, Option.bind_some]
  rfl

theorem fxCalibKin_aborts (h : KinNames d c m a) : fxCalibKin d c 2 = askCal (endEstimate d (fld c.block 0 2) 9) c :=
  fxCalibKin_named h (Nat.le_refl 2) fun h => absurd rfl h

/-- An idle estimate starts while fewer than 16 run (R437). -/
theorem fxCalibKin_starts (h : KinNames d c m a) {mode : Nat} (hmode : mode ≤ 1) (hlo : 8 ≤ fld c.block 4 2) (hhi : fld c.block 4 2 ≤ 1024)
    (hroom : kinRunning d < 16) (hidle : (estOf d (fld c.block 0 2) 1 (fld c.block 0 2)).state = 0) :
    ∃ e : CalRec, fxCalibKin d c mode = askCal (setEst d (fld c.block 0 2) e) c ∧ e.kind = 1 ∧ e.state = 1 ∧ e.polder = c.polder ∧
      e.agent = fld c.block 2 2 ∧ e.want = fld c.block 4 2 ∧ e.start = d.time.turn ∧ e.apply = (mode == 1) := by
  rw [fxCalibKin_named h (by omega) fun _ => ⟨hlo, hhi⟩, if_neg (by omega), if_neg (not_not_intro hidle), if_neg (Nat.not_le.2 hroom)]
  exact ⟨_, rfl, rfl, rfl, rfl, rfl, rfl, rfl, rfl⟩

/-! ### Stream time offsets (R435, R444) -/

/-- A well-formed CALIB_TIME on a stream of the issuer's. -/
theorem fxCalibTime_named {x : StreamRec} (hlen : c.block.length = 4) (hstream : fld c.block 0 1 ≤ 127) (hzero : allZero (slice c.block 2 2) = true)
    (hget : tget d.world.streams (fld c.block 0 1) = some x) (howner : x.polder = c.polder) {mode : Nat} (hmode : mode ≤ 2) :
    fxCalibTime d c mode =
      if mode = 2 then askCal (modStream (endEstimate d (1024 + fld c.block 0 1) 9) (fld c.block 0 1) fun x => { x with offs := 0, offsNext := none }) c
      else if (estOf d (1024 + fld c.block 0 1) 2 (fld c.block 0 1)).state ≠ 0 then askCal d c
      else askCal (setEst d (1024 + fld c.block 0 1) { estOf d (1024 + fld c.block 0 1) 2 (fld c.block 0 1) with
        polder := c.polder, state := 1, apply := mode == 1, start := d.time.turn, timeSamples := [], want := bits (rget d (calBase 0 + 8)) 11 0 }) c := by
  have hblock : (decide (c.block.length ≠ 4) || decide (fld c.block 0 1 > 127) || decide (mode > 2) || !allZero (slice c.block 2 2)) = false := by
    simp [hlen, Nat.not_lt.2 hstream, Nat.not_lt.2 hmode, hzero]
  unfold fxCalibTime
  extract_lets b n e
  rw [hblock, if_neg Bool.false_ne_true]
  simp only [n, b, hget, howner, ne_eq, not_true_eq_false, if_false]
  rfl

/-- An idle estimate of a stream's time starts (R444). -/
theorem fxCalibTime_starts {x : StreamRec} (hlen : c.block.length = 4) (hstream : fld c.block 0 1 ≤ 127) (hzero : allZero (slice c.block 2 2) = true)
    (hget : tget d.world.streams (fld c.block 0 1) = some x) (howner : x.polder = c.polder) {mode : Nat} (hmode : mode ≤ 1)
    (hidle : (estOf d (1024 + fld c.block 0 1) 2 (fld c.block 0 1)).state = 0) :
    ∃ e : CalRec, fxCalibTime d c mode = askCal (setEst d (1024 + fld c.block 0 1) e) c ∧ e.state = 1 ∧ e.polder = c.polder ∧ e.start = d.time.turn ∧
      e.timeSamples = [] ∧ e.apply = (mode == 1) ∧ e.want = bits (rget d (calBase 0 + 8)) 11 0 := by
  rw [fxCalibTime_named hlen hstream hzero hget howner (by omega), if_neg (by omega), if_neg (not_not_intro hidle)]
  exact ⟨_, rfl, rfl, rfl, rfl, rfl, rfl, rfl⟩

/-! ### Spare lanes (R445) -/

/-- What starting or stopping receivers leaves of the calibration unit. -/
theorem foldl_lanes (f : Tab LaneRec → Nat → LaneRec) (keys : List Nat) (c : CalDev) :
    ∃ t : Tab LaneRec, keys.foldl (fun c k => { c with lanes := tput c.lanes k (f c.lanes k) }) c = { c with lanes := t } := by
  refine List.foldlRecOn (motive := fun x => ∃ t : Tab LaneRec, x = { c with lanes := t }) keys _ ⟨c.lanes, rfl⟩ ?_
  rintro _ ⟨t, rfl⟩ k -
  exact ⟨_, rfl⟩

/-- A well-formed CALIB_LANE changes lanes, and in mode 1 sets what runs. -/
theorem fxCalibLane_passes (fz : Fuses) (hlen : c.block.length = 8) (hmask : fld c.block 0 2 ≤ 0x3ff) (hres : fld c.block 3 1 = 0) {mode : Nat} (hmode : mode ≤ 2)
    (hperiod : mode = 1 → 1 ≤ fld c.block 4 4 ∧ fld c.block 4 4 ≤ 2 ^ 24) :
    ∃ t, fxCalibLane fz d c mode = if mode = 2 then askCal d c else askCal { d with cal :=
      if mode = 1 then { d.cal with lanes := t, period := fld c.block 4 4 % 2 ^ 24, mask := fld c.block 0 2, laneStart := d.time.turn }
      else { d.cal with lanes := t } } c := by
  have hper : (decide (mode = 1) && (decide (fld c.block 4 4 < 1) || decide (fld c.block 4 4 > 2 ^ 24))) = false := by
    by_cases h1 : mode = 1
    · obtain ⟨hlo, hhi⟩ := hperiod h1
      rw [Bool.and_eq_false_iff, Bool.or_eq_false_iff, decide_eq_false (Nat.not_lt.2 hlo), decide_eq_false (Nat.not_lt.2 hhi)]
      exact .inr ⟨rfl, rfl⟩
    · rw [decide_eq_false h1, Bool.false_and]
  have hblock : (decide (c.block.length ≠ 8) || decide (fld c.block 0 2 > 0x3ff) || decide (mode > 2) || decide (fld c.block 3 1 ≠ 0) ||
      (decide (mode = 1) && (decide (fld c.block 4 4 < 1) || decide (fld c.block 4 4 > 2 ^ 24)))) = false := by
    simpa [hlen, hmask, hmode, hres] using hper
  unfold fxCalibLane
  extract_lets b mask per keys set d'
  obtain ⟨t, ht⟩ := foldl_lanes (fun lanes k =>
    let l := tgetD lanes k default
    if mode = 0 then { l with stopping := l.running } else if l.retired.isSome || l.spareFail then l
    else { l with running := true, stopping := false, failed := false, lane := 0, minW := 255, minH := 255 }) keys d.cal
  have hd' : d' = { d with cal := { d.cal with lanes := t } } := congrArg (fun x => { d with cal := x }) ht
  refine ⟨t, ?_⟩
  rw [hblock, hd', if_neg Bool.false_ne_true]
  rfl

end

/-- The calibration commands (R433, R435, R439, R444, R445). -/
theorem calibCommandsRun : CalibCommandsRun := by
  intro c s
  refine ⟨fun m a hlen hhandle hagent hres hmodel howner hkin hget hpolder hbound hstays => ?_, fun x hlen hstream hzero hget howner => ?_,
    fun hpf hlen hmask hres => ?_⟩
  · have hnames : KinNames s.dev c m a := ⟨hlen, hhandle, hagent, hres, hmodel, howner, hkin, hget, hpolder, hbound, hstays⟩
    refine ⟨?_, fun hmode hlo hhi hroom hidle => ?_⟩
    · rw [exec_calibKinAbort, execCalibKinAbort, onDev_withDev, fxCalibKin_aborts hnames]
    · obtain ⟨e, heq, he⟩ := fxCalibKin_starts hnames hmode hlo hhi hroom hidle
      exact ⟨e, by rw [exec_calibKin, execCalibKin, onDev_withDev, heq], he⟩
  · refine ⟨?_, fun hmode hidle => ?_⟩
    · rw [exec_calibTimeClear, execCalibTimeClear, onDev_withDev, fxCalibTime_named hlen hstream hzero hget howner (Nat.le_refl 2), if_pos rfl]
    · obtain ⟨e, heq, he⟩ := fxCalibTime_starts hlen hstream hzero hget howner hmode hidle
      exact ⟨e, by rw [exec_calibTime, execCalibTime, onDev_withDev, heq], he⟩
  · refine ⟨?_, ?_, fun hlo hhi => ?_⟩
    · obtain ⟨t, heq⟩ := fxCalibLane_passes (d := s.dev) s.fuses hlen hmask hres (Nat.le_refl 2) (by omega)
      rw [exec_calibLaneReport, execCalibLaneReport, onFz_withDev, pfOnly_pf hpf, heq, if_pos rfl]
    · obtain ⟨t, heq⟩ := fxCalibLane_passes (d := s.dev) s.fuses hlen hmask hres (Nat.zero_le 2) (by omega)
      exact ⟨{ s.dev.cal with lanes := t }, by rw [exec_calibLaneStop, execCalibLaneStop, onFz_withDev, pfOnly_pf hpf, heq]; rfl, rfl, rfl, rfl⟩
    · obtain ⟨t, heq⟩ := fxCalibLane_passes (d := s.dev) s.fuses hlen hmask hres (mode := 1) (by omega) fun _ => ⟨hlo, hhi⟩
      refine ⟨{ s.dev.cal with lanes := t, period := fld c.block 4 4 % 2 ^ 24, mask := fld c.block 0 2, laneStart := s.dev.time.turn }, ?_, rfl, rfl, rfl, rfl⟩
      rw [exec_calibLaneRun, execCalibLaneRun, onFz_withDev, pfOnly_pf hpf, heq]
      rfl

/-! ### Events (R434, R437 to R440, R444, R446) -/

section
variable {d : Dev}

/-- What an interrupt leaves: all but the table of pending ones and what is sent outside. -/
theorem irq_leaves {β : Type} (g : Dev → β) (hhost : ∀ (d : Dev) (x : HostDev), g { d with host := x } = g d) (hsend : ∀ d o, g (send d o) = g d)
    (d : Dev) (fn vec : Nat) : g (irq d fn vec) = g d := by
  unfold irq
  extract_lets k
  split_ifs
  · exact hhost ..
  · exact hhost ..
  · exact hsend ..

/-- The oldest outcome that is due leaves the list, whatever it does. -/
theorem fxOutcome_leaves {t : Nat} {e : CalRec} {rest : List (Nat × CalRec)} (h : d.cal.outcomes = (t, e) :: rest) (hdue : t ≤ d.time.turn) :
    (fxOutcome d).cal.outcomes = rest := by
  unfold fxOutcome
  rw [h]
  refine (congrArg (fun d : Dev => d.cal.outcomes) (if_neg (Nat.not_lt.2 hdue))).trans ?_
  extract_lets d1 newer res ver key cur d2 d3
  have hrecord : d2.cal.outcomes = rest := by
    unfold d2
    split_ifs <;> rfl
  have happlied : d3.cal.outcomes = d2.cal.outcomes := by
    unfold d3
    split_ifs <;> rfl
  rw [irq_leaves (fun d => d.cal.outcomes) (fun _ _ => rfl) (fun _ _ => rfl), cnt_cal, happlied, hrecord]

/-- A good measurement of a receiver that is not at its last lane (R446). -/
theorem fxLaneStep_good {link side width height : Nat} (hlink : link ≤ 9) (hside : side ≤ 1) (hrun : (laneOf d link side).running = true)
    (hstays : (laneOf d link side).stopping = false) (hlane : (laneOf d link side).lane < 64) (hstopped : running d = false)
    (hw : bits (rget d (calBase (if side = 0 then (linkDies link).1 else (linkDies link).2) + 0x10)) 7 0 ≤ width)
    (hh : bits (rget d (calBase (if side = 0 then (linkDies link).1 else (linkDies link).2) + 0x10)) 15 8 ≤ height) :
    fxLaneStep d link side width height = modCal d fun c => { c with lanes := tput c.lanes (link * 2 + side) { laneOf d link side with
      failed := false, lane := (laneOf d link side).lane + 1, minW := min (laneOf d link side).minW width, minH := min (laneOf d link side).minH height } } := by
  have hnone : (decide (link > 9) || decide (side > 1) || !(laneOf d link side).running) = false := by
    simp [Nat.not_lt.2 hlink, Nat.not_lt.2 hside, hrun]
  unfold fxLaneStep
  extract_lets die l cfg good w h put stop d'
  have hgood : good = true := by simp [good, cfg, die, hw, hh]
  have hd' : d' = put d { l with failed := false, lane := l.lane + 1, minW := w, minH := h } := by
    have hstop : ∀ x : LaneRec, x.stopping = false → stop x = x := fun x hx => if_neg (by rw [hx]; exact Bool.false_ne_true)
    rw [← hstop { l with failed := false, lane := l.lane + 1, minW := w, minH := h } hstays]
    exact (if_pos hgood).trans (if_neg (Nat.ne_of_lt hlane))
  have hidle : running d' = false := hd' ▸ hstopped
  rw [hnone, hidle, hd', if_neg Bool.false_ne_true]
  rfl

end

/-- The events of a calibration (R434, R437 to R440, R444, R446). -/
theorem calibEventsRun : CalibEventsRun := by
  intro s key e
  refine ⟨fun hget => ⟨fun hstate hkind => ?_, fun hstate hspan => ?_⟩, fun t rest h hdue => ⟨_, rfl, fxOutcome_leaves h hdue⟩,
    fun link side width height hlink hside hrun hstays hlane hstopped => ?_⟩
  · intro r
    rw [exec_calibEstimateEnd, execCalibEstimateEnd, onDev_withDev]
    simp only [fxEstimateEnd, hget, hstate, hkind]
    rfl
  · rw [exec_calibSpanExpiry, execCalibSpanExpiry, onDev_withDev]
    simp only [fxSpanExpiry, hget, hstate, Nat.not_lt.2 hspan]
    rfl
  · intro die hw hh l l'
    rw [exec_laneStep, execLaneStep, onDev_withDev, fxLaneStep_good hlink hside hrun hstays hlane hstopped hw hh]
    rfl

/-- Settles O49: the calibration commands, and the events that follow them. -/
theorem calibrationRuns : Obligations.CalibrationRuns := ⟨calibCommandsRun, calibEventsRun⟩

end Sys2Proof.Machine

/-! PROOFS. The warden (O36, O56): how messages are classified and recorded, what is written to it, and how the safe state is entered, shown and left. -/
namespace Sys2Proof.Machine

/-! ### Frames that are lost and notices that go out (R472) -/

section
variable {β : Type} (g : Dev → β)

section
variable (hset : ∀ d o v, g (rset d o v) = g d)
include hset

theorem fldCnt_leaves (d : Dev) (p k : Nat) : g (fldCnt d p k) = g d := cnt_leaves g hset ..

/-- A notice is sent or discarded, and counted, on each port and VLAN. -/
theorem notice_leaves (hsend : ∀ d o, g (send d o) = g d) (d : Dev) (turn ts : Nat) (heartbeat cleared : Bool) :
    g (notice d turn ts heartbeat cleared) = g (modWdn d fun w => { w with safe := { w.safe with notices := w.safe.notices + 1 } }) := by
  unfold notice
  extract_lets n d1 mac body
  refine foldl_leaves g (fun d p => foldl_leaves g (fun d v => ?_) _ _) _ _
  split_ifs
  · exact (fldCnt_leaves g hset ..).trans (hsend ..)
  · exact fldCnt_leaves g hset ..

end

/-- Frames that are discarded answer the replies that wait with them. -/
theorem dropFrames_leaves (hhost : ∀ (d : Dev) (x : HostDev), g { d with host := x } = g d) (hworld : ∀ (d : Dev) (x : World), g { d with world := x } = g d)
    (d : Dev) (p : EgFrame → Bool) (st det : Nat) : g (dropFrames d p st det) = g d := by
  refine (foldl_leaves g (fun d f => ?_) _ _).trans (hhost ..)
  unfold repOut
  cases f.rep with
  | none => rfl
  | some x => exact reply_leaves g hhost hworld ..

end

/-! ### The safe state (R470 to R472, R476) -/

/-- Whether the safe state is in force, and latched. -/
def safeFlags (d : Dev) : Bool × Bool := (d.wdn.safe.on, d.wdn.safe.latched)

/-- A privileged source puts the package into the safe state, latched (R470). -/
theorem enterSafe_privileged {d : Dev} {m : WMsg} {t : Nat} (h : isPriv m.src = true) : safeFlags (enterSafe d m t) = (true, true) := by
  have hlatch : (isPriv m.src || m.src == 0x010) = true := by rw [h, Bool.true_or]
  unfold enterSafe
  extract_lets latch d1 d2 lost d3
  cases hon : d.wdn.safe.on with
  | true =>
    rw [if_pos rfl]
    exact congrArg₂ Prod.mk hon (by rw [show latch = true from hlatch]; exact Bool.or_true _)
  | false =>
    rw [if_neg Bool.false_ne_true, notice_leaves safeFlags (fun _ _ _ => rfl) fun _ _ => rfl]
    have hkeep : safeFlags d3 = safeFlags d2 := by
      refine (dropFrames_leaves safeFlags (fun _ _ => rfl) (fun _ _ => rfl) ..).trans (foldl_leaves safeFlags (fun d f => ?_) _ _)
      split_ifs
      · rfl
      · exact fldCnt_leaves safeFlags (fun _ _ _ => rfl) ..
    refine hkeep.trans (Eq.trans ?_ (congrArg (Prod.mk true) hlatch))
    show safeFlags (cntWrap d1 0x200018) = (true, latch)
    unfold cntWrap
    split_ifs <;> rfl

/-! ### Classification (R457, R459, R463) -/

section
variable {fz : Fuses} {d : Dev} {m : WMsg} {t : Nat}

/-- A message of a listed privileged source (R470). -/
theorem classify_privileged (hrow : (srcRow m.src).isSome = true) (hpriv : isPriv m.src = true) (hkind : m.kind ≠ 2) :
    safeFlags (classify fz d m t) = (true, true) := by
  have hrow : ¬ (srcRow m.src).isNone = true := by rw [← Option.not_isSome, hrow]; exact Bool.false_ne_true
  have hclear : (m.kind == 2) = false := beq_eq_false_iff_ne.2 hkind
  unfold classify
  extract_lets d1 k i clear live times n i' d2 severe sev e safe d3 d4
  rw [if_neg hrow, hpriv, if_pos rfl, show clear = false from hclear, if_neg Bool.false_ne_true]
  unfold reactI
  split_ifs
  · exact (irq_leaves safeFlags (fun _ _ => rfl) (fun _ _ => rfl) ..).trans (enterSafe_privileged hpriv)
  · exact enterSafe_privileged hpriv

/-- A set of reactions that only interrupts brings none of those that act (R454). -/
theorem react_interrupt (severe : Bool) : react fz d m t 1 severe = d := rfl

/-- A first message of a kind that opens a record, at a source that only interrupts (R463). -/
theorem recordMsg_opens (hkind : m.kind = 0) (hclosed : (tgetD d.wdn.recs m.src default).isOpen = false) (hreact : evtReact d m.src = 1) :
    recordMsg d m false = irq (modRec d m.src fun _ => { (default : WRec) with msg := m, lastTs := m.ts, isOpen := true }) 0 56 := by
  have hbit : bitAt (evtReact (modRec d m.src fun _ => { (default : WRec) with msg := m, lastTs := m.ts, isOpen := true }) m.src) 0 = true :=
    (congrArg (bitAt · 0) hreact).trans rfl
  have hopens : ¬ m.kind = 2 := by omega
  unfold recordMsg
  extract_lets r d1
  rw [if_neg (by rw [show r.isOpen = false from hclosed]; exact Bool.false_ne_true), if_neg hopens]
  exact if_pos hbit

@[simp] theorem setInst_ring (k : Nat) (i : WInst) : (setInst d k i).wdn.ring = d.wdn.ring := rfl
@[simp] theorem setInst_safe (k : Nat) (i : WInst) : (setInst d k i).wdn.safe = d.wdn.safe := rfl
@[simp] theorem modRec_ring (n : Nat) (f : WRec → WRec) : (modRec d n f).wdn.ring = d.wdn.ring := rfl
@[simp] theorem modRec_safe (n : Nat) (f : WRec → WRec) : (modRec d n f).wdn.safe = d.wdn.safe := rfl
theorem modWdn_wdn (f : WdnDev → WdnDev) : (modWdn d f).wdn = f d.wdn := rfl
theorem ringPush_inst (w : WdnDev) : (ringPush w m).inst = w.inst := by unfold ringPush; rfl
theorem ringPush_recs (w : WdnDev) : (ringPush w m).recs = w.recs := by unfold ringPush; rfl
theorem ringPush_safe (w : WdnDev) : (ringPush w m).safe = w.safe := by unfold ringPush; rfl
theorem ringPush_room {w : WdnDev} (h : w.ring.length < wdnRingMax) : (ringPush w m).ring = w.ring ++ [m] := by
  unfold ringPush
  rw [Nat.sub_eq_zero_of_le h, List.drop_zero]

theorem cfg0_modWdn (f : WdnDev → WdnDev) (n : Nat) : cfg0 (modWdn d f) n = cfg0 d n := rfl
theorem evtReact_modWdn (f : WdnDev → WdnDev) (n : Nat) : evtReact (modWdn d f) n = evtReact d n := rfl
theorem instKey_modWdn (f : WdnDev → WdnDev) : instKey (modWdn d f) m = instKey d m := rfl
theorem inWindow_modWdn (f : WdnDev → WdnDev) (n : Nat) (l : List Nat) : inWindow (modWdn d f) n l = inWindow d n l := rfl

theorem cfg0_congr {d d' : Dev} (h : d'.regs = d.regs) (n : Nat) : cfg0 d' n = cfg0 d n := by rw [cfg0, rget, h, cfg0, rget]
theorem evtReact_congr {d d' : Dev} (h : d'.regs = d.regs) (n : Nat) : evtReact d' n = evtReact d n := by rw [evtReact, cfg0_congr h, evtReact]
theorem inWindow_congr {d d' : Dev} (h : d'.regs = d.regs) (n : Nat) (l : List Nat) : inWindow d' n l = inWindow d n l := by
  have hcfg : cfg1 d' n = cfg1 d n := by rw [cfg1, rget, h, cfg1, rget]
  unfold inWindow
  rw [hcfg]

/-- The first message of a source that only interrupts, once it stands in the ring: its record opens, and the instance is active (R457, R459, R463). -/
theorem classify_first {d1 : Dev} {k : Nat} {i : WInst} (hrow : (srcRow m.src).isSome = true) (hpriv : isPriv m.src = false) (hkind : m.kind = 0)
    (hd1 : (modWdn d fun w => ringPush w m) = d1) (hk : instKey d1 m = k) (hi : tgetD d1.wdn.inst k default = i) (hquiet : i.state = 0) (hnot : i.live = false)
    (hreact : evtReact d1 m.src = 1)
    (hfew : bits (cfg0 d1 m.src) 31 24 = 0 ∨ inWindow d1 m.src ((t :: i.times).take 256) < bits (cfg0 d1 m.src) 31 24)
    (hclosed : (tgetD d1.wdn.recs m.src default).isOpen = false) :
    classify fz d m t = setInst (irq (modRec (setInst d1 k { i with times := (t :: i.times).take 256, last := t, origin := m.origin }) m.src fun _ =>
      { (default : WRec) with msg := m, lastTs := m.ts, isOpen := true }) 0 56) k
        { i with state := 1, times := (t :: i.times).take 256, last := t, origin := m.origin } := by
  have hrow : ¬ (srcRow m.src).isNone = true := by rw [← Option.not_isSome, hrow]; exact Bool.false_ne_true
  obtain ⟨state, times, recov, live, last, origin⟩ := i
  obtain rfl : state = 0 := hquiet
  obtain rfl : live = false := hnot
  have hsev : (bits (cfg0 d1 m.src) 31 24 != 0 && decide (inWindow d1 m.src ((t :: times).take 256) ≥ bits (cfg0 d1 m.src) 31 24)) = false := by
    rw [Bool.and_eq_false_iff, bne_eq_false_iff_eq, decide_eq_false_iff_not, Nat.not_le]
    exact hfew
  have hlive : (if (m.kind == 2) = true then !(presentObjs d1 m.src m.die).isEmpty else false || m.kind == 1) = false := by
    rw [hkind]
    rfl
  have hopens : ∀ i, recordMsg (setInst d1 k i) m false =
      irq (modRec (setInst d1 k i) m.src fun _ => { (default : WRec) with msg := m, lastTs := m.ts, isOpen := true }) 0 56 :=
    fun i => recordMsg_opens hkind hclosed hreact
  unfold classify
  dsimp only
  rw [hd1, if_neg hrow, hk, hi]
  dsimp only
  rw [hlive, hopens, hkind, hpriv]
  have hregs : ∀ i, (irq (modRec (setInst d1 k i) m.src fun _ => { (default : WRec) with msg := m, lastTs := m.ts, isOpen := true }) 0 56).regs = d1.regs :=
    fun i => irq_regs
  rw [cfg0_congr (hregs _), inWindow_congr (hregs _), evtReact_congr (hregs _), hreact, hsev]
  rfl

/-- The slot of a message that waits alone (R452). -/
theorem classifySlot_alone (h : d.wdn.inbox = [m]) : classifySlot fz d m t = classify fz (modWdn d fun w => { w with inbox := [] }) m t := by
  have herase : (modWdn d fun w => { w with inbox := w.inbox.erase m }) = modWdn d fun w => { w with inbox := [] } := by
    rw [modWdn, h, List.erase_cons_head, modWdn]
  have hone : (d.wdn.inbox.filter (sameSlot m)).length ≤ 1 := by
    rw [h]
    exact List.length_filter_le _ [m]
  unfold classifySlot
  extract_lets same last
  rw [if_pos hone, herase]

/-- Two messages of one slot are classified as one with the fields of the first and the time of the last (R452). -/
theorem classifySlot_pair {n : WMsg} (hpriv : isPriv m.src = false) (hsrc : n.src = m.src) (hdie : n.die = m.die) (hkind : n.kind = m.kind)
    (h : d.wdn.inbox = [m, n]) : classifySlot fz d m t =
      classify fz (classify fz (modWdn d fun w => { w with inbox := [] }) { m with ts := n.ts } t) { m with ts := n.ts } t := by
  have hself : sameSlot m m = true := by simp [sameSlot, hpriv]
  have hother : sameSlot m n = true := by simp [sameSlot, hpriv, hsrc, hdie, hkind]
  have hnone : (modWdn d fun w => { w with inbox := w.inbox.filter fun x => !sameSlot m x }) = modWdn d fun w => { w with inbox := [] } := by
    rw [modWdn, h]
    simp [modWdn, hself, hother]
  unfold classifySlot
  dsimp only
  rw [hnone, h]
  simp only [List.filter_cons, hself, hother, if_true, List.filter_nil]
  rfl

/-- Of two messages of one source the older one is forwarded first (R452). -/
theorem nextMsg_pair {n : WMsg} (hsrc : n.src = m.src) (hts : m.ts ≤ n.ts) : nextMsg [m, n] = some m := by
  have hlater : slotBefore n m = false := by
    unfold slotBefore
    rw [hsrc, bne_self_eq_false, if_neg Bool.false_ne_true, decide_eq_false (Nat.not_lt.2 hts), decide_eq_false (Nat.lt_irrefl _), Bool.and_false, Bool.false_or]
  simp only [nextMsg, List.foldl_cons, List.foldl_nil, hlater, Bool.false_eq_true, if_false]

/-- A package-scope instance whose recoveries are not limited is quiet after its time without a message (R457). -/
theorem fxQuiet_quiet {src die : Nat} {j : WInst} (hscope : bits (cfg0 d src) 15 14 = 0) (hget : tget d.wdn.inst (src * 128) = some j)
    (hpriv : isPriv src = false) (hlive : j.live = false) (hstate : j.state = 1 ∨ j.state = 2)
    (htime : j.last + bits (cfg1 d src) 15 0 * 1000000 ≤ t) (hmax : bits (cfg0 d src) 12 7 = 0) :
    fxQuiet d src die 0 t = setInst (atTime d t) (src * 128)
      { j with state := 0, recov := (t :: j.recov).filter fun x => decide (t / 60000000000 < x / 60000000000 + 60) } := by
  have hends : (isPriv src || j.live || (decide (j.state ≠ 1) && decide (j.state ≠ 2)) || decide (t < j.last + bits (cfg1 d src) 15 0 * 1000000)) = false := by
    rw [hpriv, hlive, decide_eq_false (Nat.not_lt.2 htime)]
    obtain h | h := hstate <;> rw [h] <;> rfl
  have hfree : ∀ n, (decide (bits (cfg0 d src) 12 7 ≠ 0) && decide (n ≥ bits (cfg0 d src) 12 7)) = false := fun n => by rw [hmax]; rfl
  unfold fxQuiet
  extract_lets k rmax d'
  have hk : k = src * 128 := by
    unfold k
    rw [hscope]
    rfl
  rw [hk, hget]
  dsimp only
  rw [hends, hfree]
  rfl

end

theorem exec_wardenMessage_runs (m : Option WMsg) (t : Nat) (s : State) :
    exec (.wardenMessage m t) s = .next (s.withDev (fxMessage s.fuses s.dev m t)) := rfl

/-- Settles O36: messages of privileged sources, first messages, slots, and the end of an instance's time. -/
theorem wardenMessagesRun : Obligations.WardenMessagesRun := by
  intro m t s hrow d0 k i r
  refine ⟨fun hpriv hkind => ⟨_, exec_wardenMessage_runs .., ?_⟩, fun hpriv hkind hquiet hnot hreact hfew hclosed hroom => ⟨_, exec_wardenMessage_runs .., ?_⟩, fun h => ?_,
    fun n hpriv hsrc hdie hkind hts h => ?_, fun j hscope hget hpriv hlive hstate htime hmax => ?_⟩
  · exact Prod.mk.inj (classify_privileged hrow hpriv hkind)
  · have hinst : tgetD (modWdn d0 fun w => ringPush w m).wdn.inst k default = i := by rw [modWdn_wdn, ringPush_inst]; rfl
    have hrec : (tgetD (modWdn d0 fun w => ringPush w m).wdn.recs m.src default).isOpen = false := by rw [modWdn_wdn, ringPush_recs]; exact hclosed
    dsimp only [fxMessage]
    rw [classify_first hrow hpriv hkind rfl (instKey_modWdn _) hinst hquiet hnot ((evtReact_modWdn _ _).trans hreact)
      (by rw [cfg0_modWdn, inWindow_modWdn]; exact hfew) hrec]
    have hirq : ∀ d : Dev, (irq d 0 56).wdn = d.wdn := fun d => irq_leaves (fun d => d.wdn) (fun _ _ => rfl) (fun _ _ => rfl) d 0 56
    refine ⟨tget_tput_self .., ?_, ?_, ?_, ?_, ?_⟩
    · exact (congrArg (fun w : WdnDev => tget w.recs m.src) (hirq _)).trans (tget_tput_self ..)
    · rw [setInst_ring, hirq, modRec_ring, setInst_ring, modWdn_wdn, ringPush_room (w := d0.wdn) hroom]
      rfl
    · rw [setInst_safe, hirq, modRec_safe, setInst_safe, modWdn_wdn, ringPush_safe]
      rfl
    · exact irq_regs
    · exact irq_leaves (fun d => d.world) (fun _ _ => rfl) (fun _ _ => rfl) _ 0 56
  · have hnext : fxMessage s.fuses s.dev none t = classifySlot s.fuses d0 m t := by
      rw [fxMessage, show (atTime s.dev t).wdn.inbox = [m] from h]
      rfl
    rw [exec_wardenMessage, execWardenMessage, onFz_withDev, hnext, classifySlot_alone (d := d0) h]
  · have hnext : fxMessage s.fuses s.dev none t = classifySlot s.fuses d0 m t := by
      rw [fxMessage, show (atTime s.dev t).wdn.inbox = [m, n] from h, nextMsg_pair hsrc hts]
    rw [exec_wardenMessage, execWardenMessage, onFz_withDev, hnext, classifySlot_pair (d := d0) hpriv hsrc hdie hkind h]
  · rw [exec_quietExpiry, execQuietExpiry, onDev_withDev, fxQuiet_quiet hscope hget hpriv hlive hstate htime hmax]

/-! ### What is written to the warden (R456, R458, R465, R466, R468) -/

section
variable {d : Dev}

/-- The safety configuration stands in the registers of the sources, bit 1 of the control register and three more (R456). -/
theorem wdnCfgBytes_congr {d' : Dev} (h : ∀ o, o ≠ 0x200000 → o ≠ 0x200034 → rget d' o = rget d o) (hctl : rget d' 0x200000 / 2 % 2 = rget d 0x200000 / 2 % 2) :
    wdnCfgBytes d' = wdnCfgBytes d := by
  have hsources : ∀ i ∈ List.range 512, leBytes 4 (rget d' (0x201000 + 8 * i)) ++ leBytes 4 (rget d' (0x201004 + 8 * i)) =
      leBytes 4 (rget d (0x201000 + 8 * i)) ++ leBytes 4 (rget d (0x201004 + 8 * i)) := fun i _ => by rw [h _ (by omega) (by omega), h _ (by omega) (by omega)]
  unfold wdnCfgBytes
  rw [hctl, h 0x200028 (by decide) (by decide), h 0x20002C (by decide) (by decide), h 0x200030 (by decide) (by decide), List.flatMap_congr hsources]

/-- A register shows 32 bits where its reset value does. -/
theorem rget_lt {o : Nat} (h : regReset o < 2 ^ 32) : rget d o < 2 ^ 32 := by
  unfold rget
  cases tget d.regs o with
  | none => exact h
  | some v => exact v.isLt

/-- The lock: bit 0 of the control register, and the CRC of the configuration. -/
theorem lockWdn_locks (hopen : bitAt (rget d 0x200000) 0 = false) :
    lockWdn d = rset (rset d 0x200000 (rget d 0x200000 + 1)) 0x200034 (crc32c (wdnCfgBytes d)) := by
  have heven : rget d 0x200000 % 2 = 0 := by
    simpa [bitAt] using hopen
  have hbits : bits (rget d 0x200000) 0 0 = 0 := by
    simpa [bits] using heven
  have hfield : rfield d 0x200000 0 0 1 = rset d 0x200000 (rget d 0x200000 + 1) := by
    unfold rfield
    dsimp only
    rw [hbits]
    rfl
  rw [lockWdn, hopen, if_neg Bool.false_ne_true, hfield]

theorem wdnLock_runs (hopen : bitAt (rget d 0x200000) 0 = false) : bitAt (rget (lockWdn d) 0x200000) 0 = true ∧
    rget (lockWdn d) 0x200034 = crc32c (wdnCfgBytes (lockWdn d)) % 2 ^ 32 ∧ ∀ o, o ≠ 0x200000 → o ≠ 0x200034 → rget (lockWdn d) o = rget d o := by
  have heven : rget d 0x200000 % 2 = 0 := by
    simpa [bitAt] using hopen
  have hlt : rget d 0x200000 < 2 ^ 32 := rget_lt (by decide)
  have hctl : rget (lockWdn d) 0x200000 = rget d 0x200000 + 1 := by
    rw [lockWdn_locks hopen, rget_rset_ne _ _ _ _ (by decide), rget_rset_self, Nat.mod_eq_of_lt (by omega)]
  have hothers : ∀ o, o ≠ 0x200000 → o ≠ 0x200034 → rget (lockWdn d) o = rget d o := fun o h0 h1 => by
    rw [lockWdn_locks hopen, rget_rset_ne _ _ _ _ h1, rget_rset_ne _ _ _ _ h0]
  refine ⟨?_, ?_, hothers⟩
  · rw [hctl]
    simp [bitAt]
    omega
  · rw [wdnCfgBytes_congr hothers (by omega), lockWdn_locks hopen, rget_rset_self]

/-- No instance's condition is present. -/
def noneLive (d : Dev) : Prop := ∀ i ∈ d.wdn.inst, i.2.live = false

/-- An open record without a live condition closes (R466). -/
theorem ackSource_closes {src t : Nat} (hopen : (tgetD d.wdn.recs src default).isOpen = true) (hlive : noneLive d) :
    ackSource d src t = modRec d src fun r => { r with isOpen := false } := by
  have hnone : (modRec d src fun r => { r with isOpen := false }).wdn.inst.find? (fun i => i.1 / 128 == src && i.2.live) = none :=
    List.find?_eq_none.2 fun i hi => by simp [hlive i hi]
  unfold ackSource
  extract_lets d1
  rw [hopen, show d1.wdn.inst.find? (fun i => i.1 / 128 == src && i.2.live) = none from hnone]
  rfl

theorem ackSource_closed {src t : Nat} (hclosed : (tgetD d.wdn.recs src default).isOpen = false) : ackSource d src t = d := by
  simp [ackSource, hclosed]

end

/-- What is written to the warden (R456, R458, R465, R466, R468). -/
theorem wardenWritesRun : WardenWritesRun := by
  intro src t v s d0
  refine ⟨fun hopen => ⟨_, onDev_withDev _ _, wdnLock_runs hopen⟩, fun hlock hcrc => ?_, fun hlock hcrc => ?_, fun die => rfl, fun hopen hlive hun hall => ?_,
    fun r hrec hopen hlive => ?_, fun hpriv hclosed => ?_, fun h => ?_, fun hpriv hlock => ?_, fun r hrec => ?_⟩
  · rw [exec_wdnCfgCheck, execWdnCfgCheck, onDev_withDev, fxCfgCheck, hlock, if_pos (by simpa using hcrc)]
  · rw [exec_wdnCfgCheck, execWdnCfgCheck, onDev_withDev, fxCfgCheck, if_neg (by simp [hcrc])]
    rfl
  · rw [exec_wdnAck, execWdnAck, onDev_withDev, fxAck]
    simp only [hun, hall, Bool.false_eq_true, if_false]
    rw [ackSource_closes (d := atTime s.dev t) hopen hlive]
  · have hkeys : (atTime s.dev t).wdn.recs.map (·.1) = [src] := by
      rw [atTime_wdn, hrec]
      rfl
    have hget : (tgetD (atTime s.dev t).wdn.recs src default).isOpen = true := by
      rw [atTime_wdn, hrec]
      simpa [tgetD, tget] using hopen
    rw [exec_wdnAckAll, execWdnAckAll, onDev_withDev, ackAll, hkeys, List.foldl_cons, List.foldl_nil, ackSource_closes hget hlive]
  · rw [exec_wdnUnlatch, execWdnUnlatch, onDev_withDev, unlatch, hpriv, if_neg Bool.false_ne_true, ackSource_closed]
    exact hclosed
  · have hfree : (isPriv (bits v 8 0) && bitAt (rget s.dev 0x200000) 0) = false := Bool.and_eq_false_iff.2 h
    rw [exec_wdnInject, execWdnInject, onDev_withDev, fxInject]
    rw [hfree, if_neg Bool.false_ne_true]
  · rw [exec_wdnInject, execWdnInject, onDev_withDev, fxInject]
    rw [hpriv, hlock, Bool.and_self, if_pos rfl]
  · rw [exec_recMsg0Read, execRecMsg0Read, onDev_withDev, fxRecRead]
    rw [hrec, Option.isNone_some, if_neg Bool.false_ne_true]

/-! ### The safe state and block resets (R462, R472, R475, R476) -/

section
variable {d : Dev}

/-- The safe state that stays because it is latched. -/
theorem fxSafeExit_latched (h : d.wdn.safe.latched = true) : fxSafeExit d = d := by
  simp [fxSafeExit, h]

/-- Where nothing holds it and the exit is permitted, the safe state ends with a notice. -/
theorem fxSafeExit_ends (hon : d.wdn.safe.on = true) (hlatched : d.wdn.safe.latched = false) (hheld : anyHeld d 5 = false)
    (hmay : bitAt (rget d 0x200000) 1 = true ∨ d.wdn.safe.clrReq = true) :
    fxSafeExit d = notice (modWdn d fun w => { w with safe := { w.safe with on := false, clrReq := false, stopped := false } }) d.wdn.safe.decTurn
      (rget d 0x200020 + 2 ^ 32 * rget d 0x200024) false true := by
  have hends : (!d.wdn.safe.on || d.wdn.safe.latched || anyHeld d 5 || !(bitAt (rget d 0x200000) 1 || d.wdn.safe.clrReq)) = false := by
    rw [hon, hlatched, hheld, Bool.or_eq_true_iff.2 hmay]
    rfl
  unfold fxSafeExit
  dsimp only
  rw [hends, if_neg Bool.false_ne_true]
  rfl

/-- A heartbeat notice in one of its turns (R475). -/
theorem fxHeartbeat_goes {turn : Nat} (hset : bits (rget d 0x200028) 15 0 ≠ 0) (hturn : turn % bits (rget d 0x200028) 15 0 = 0) (hrun : running d = true) :
    fxHeartbeat d turn = notice d turn (turnStart d (turn + 1)) true false := by
  simp [fxHeartbeat, hset, hturn, hrun]

/-- A waiting block reset of a core clears what its engines hold (R462). -/
theorem fxBlockReset_core {die core : Nat} (hcore : core < 16) (h : d.wdn.resets.contains (die, 0x90 + core) = true) :
    fxBlockReset d die (0x90 + core) = resetCore (modWdn d fun w => { w with resets := w.resets.filter (· != (die, 0x90 + core)) }) die core := by
  unfold fxBlockReset resetBlock
  rw [h, if_neg (by simp), if_neg (by omega), if_pos (by omega), Nat.add_sub_cancel_left]

theorem resetCore_clears (die core : Nat) : (resetCore d die core).wdn = d.wdn ∧
    (resetCore d die core).eng.halves = tfilter (fun h _ => h / 2 != die * 16 + core) d.eng.halves ∧
    (resetCore d die core).eng.tables = tfilter (fun h _ => h / 8 != die * 16 + core) d.eng.tables ∧
    (resetCore d die core).eng.frn = tfilter (fun h _ => h / 1024 != die * 16 + core) d.eng.frn ∧ (resetCore d die core).regs = d.regs := by
  unfold resetCore
  extract_lets k slot e d1 d2
  have hunits : d2.wdn = d1.wdn ∧ d2.eng.halves = d1.eng.halves ∧ d2.eng.tables = d1.eng.tables ∧ d2.eng.frn = d1.eng.frn ∧ d2.regs = d1.regs := by
    unfold d2
    cases slot <;> exact ⟨rfl, rfl, rfl, rfl, rfl⟩
  obtain ⟨hwdn, hhalves, htables, hfrn, hregs⟩ := hunits
  exact ⟨hwdn, hhalves, htables, hfrn, hregs⟩

end

/-- The safe state is left and shown, and a block is reset (R462, R472, R475, R476). -/
theorem safeStateRuns : SafeStateRuns := by
  intro s x
  refine ⟨fun hheld => ?_, fun hheld => ?_, fun hon hlatched hheld hmay => ⟨_, onDev_withDev _ _, ?_⟩, fun hlatched => ?_, fun turn hset hturn hrun => ?_,
    fun die core hup hcore h => ?_⟩
  · rw [exec_wdnSafeClr, execWdnSafeClr, onDev_withDev, fxSafeClr, if_pos hheld]
  · rw [exec_wdnSafeClr, execWdnSafeClr, onDev_withDev, fxSafeClr, hheld, if_neg Bool.false_ne_true]
  · rw [fxSafeExit_ends hon hlatched hheld hmay, notice_leaves (fun d => d.wdn) (fun _ _ _ => rfl) fun _ _ => rfl,
      notice_leaves (fun d => d.world) (fun _ _ _ => rfl) fun _ _ => rfl]
    exact ⟨rfl, rfl, rfl, rfl⟩
  · rw [exec_safeStateExit, execSafeStateExit, onDev_withDev, fxSafeExit_latched hlatched]
    rfl
  · rw [exec_safeHeartbeat, execSafeHeartbeat, onDev_withDev, fxHeartbeat_goes hset hturn hrun]
  · obtain ⟨h8, hdie⟩ := hup
    refine ⟨_, onDie_withDev (fun d => fxBlockReset d die (0x90 + core)) h8 hdie, ?_⟩
    rw [fxBlockReset_core hcore h]
    obtain ⟨hwdn, hhalves, htables, hfrn, hregs⟩ :=
      resetCore_clears (d := modWdn s.dev fun w => { w with resets := w.resets.filter (· != (die, 0x90 + core)) }) die core
    exact ⟨congrArg WdnDev.resets hwdn, hhalves, htables, hfrn, hregs⟩

/-- Settles O56: the writes to the warden, and the safe state. -/
theorem wardenControlRuns : Obligations.WardenControlRuns := ⟨wardenWritesRun, safeStateRuns⟩

end Sys2Proof.Machine

/-! PROOFS. Boot, telemetry, the test port and port links (O38, O54), and a register that a package reset does not give its listed value (O37). -/
namespace Sys2Proof.Machine

/-! ### Live conditions (R455) -/

section
variable {β : Type} (g : Dev → β) (hwdn : ∀ (d : Dev) (x : WdnDev), g { d with wdn := x } = g d)
include hwdn

theorem assertLive_leaves (d : Dev) (src die origin obj : Nat) : g (assertLive d src die origin obj) = g d := by
  unfold assertLive
  extract_lets k l
  split_ifs
  · rfl
  · exact (hwdn ..).trans (hwdn ..)

theorem clearLive_leaves (d : Dev) (src die origin obj : Nat) : g (clearLive d src die origin obj) = g d := by
  unfold clearLive
  extract_lets k l d1
  split_ifs
  · rfl
  · exact (hwdn ..).trans (hwdn ..)
  · exact hwdn ..

/-- A live condition is between the package and its warden. -/
theorem setLive_leaves (d : Dev) (src die origin obj : Nat) (present : Bool) : g (setLive d src die origin obj present) = g d := by
  cases present with
  | false => exact clearLive_leaves g hwdn ..
  | true => exact assertLive_leaves g hwdn ..

end

/-! ### Links of field ports (R558) -/

/-- A bit that is not set is set by adding its power of two, and no other bit changes. -/
theorem testBit_two_pow_add_ne {p q x : Nat} (h : x.testBit p = false) (hne : q ≠ p) : (2 ^ p + x).testBit q = x.testBit q := by
  induction p generalizing q x with
  | zero =>
    obtain ⟨k, rfl⟩ := Nat.exists_eq_succ_of_ne_zero hne
    have heven : x % 2 = 0 := by simpa using h
    rw [Nat.succ_eq_add_one, Nat.testBit_add_one, Nat.testBit_add_one, show (2 ^ 0 + x) / 2 = x / 2 by omega]
  | succ p ih =>
    cases q with
    | zero => rw [Nat.testBit_zero, Nat.testBit_zero, Nat.pow_succ, show (2 ^ p * 2 + x) % 2 = x % 2 by omega]
    | succ q =>
      rw [Nat.testBit_add_one] at h
      rw [Nat.testBit_add_one, Nat.testBit_add_one, Nat.pow_succ, show (2 ^ p * 2 + x) / 2 = 2 ^ p + x / 2 by omega]
      exact ih h (by omega)

/-- A number without a bit that it may have. -/
theorem testBit_cleared (x p : Nat) : (x - if x.testBit p then 2 ^ p else 0).testBit p = false ∧
    ∀ q, q ≠ p → (x - if x.testBit p then 2 ^ p else 0).testBit q = x.testBit q := by
  cases h : x.testBit p with
  | false => exact ⟨h, fun _ _ => rfl⟩
  | true =>
    obtain ⟨y, rfl⟩ := Nat.exists_eq_add_of_le (Nat.ge_two_pow_of_testBit h)
    rw [Nat.testBit_two_pow_add_eq, Bool.not_eq_true'] at h
    rw [if_pos rfl, Nat.add_sub_cancel_left]
    exact ⟨h, fun q hq => (testBit_two_pow_add_ne h hq).symm⟩

/-- The links of the field ports once port `p` has or has not one. -/
def linkMask (x p : Nat) (up : Bool) : Nat :=
  let m := x - (if bitAt x p then 2 ^ p else 0)
  if up then m + 2 ^ p else m

theorem bitAt_linkMask (x p : Nat) (up : Bool) : bitAt (linkMask x p up) p = up ∧ ∀ q, q ≠ p → bitAt (linkMask x p up) q = bitAt x q := by
  simp only [bitAt_eq_testBit, linkMask]
  obtain ⟨hself, hothers⟩ := testBit_cleared x p
  cases up with
  | false => exact ⟨hself, hothers⟩
  | true =>
    simp only [if_true, Nat.add_comm _ (2 ^ p)]
    exact ⟨by rw [Nat.testBit_two_pow_add_eq, hself]; rfl, fun q hq => (testBit_two_pow_add_ne hself hq).trans (hothers q hq)⟩

/-- A field port's link shows (R558). -/
theorem fieldPortLinkRuns : FieldPortLinkRuns := by
  intro port up s hport
  have hlink : fxFieldLink s.dev port up = setLive (modFab s.dev fun x => { x with fieldUp := linkMask s.dev.fab.fieldUp port up }) 0x088 (port / 4) (0xC8 + port) port
      (!up && portEn s.dev port) := if_neg (Nat.not_le.2 hport)
  obtain ⟨hself, hothers⟩ := bitAt_linkMask s.dev.fab.fieldUp port up
  refine ⟨fxFieldLink s.dev port up, rfl, ?_⟩
  rw [hlink, setLive_leaves (fun d => d.fab) (fun _ _ => rfl), setLive_leaves (fun d => d.regs) (fun _ _ => rfl), setLive_leaves (fun d => d.world) (fun _ _ => rfl)]
  exact ⟨hself, hothers, rfl, rfl⟩

/-! ### Telemetry and the test port (R555, R556) -/

section
variable {s : State}

theorem smb_answers (h : s.dev.pin.smbAddr.isSome = true) (b : Bytes) : smb s.dev b = send s.dev (.smb b) := if_pos h

/-- A measured quantity is answered by a value that the spec does not give. -/
theorem smbMeasured_known (h : s.dev.pin.smbAddr.isSome = true) : smbMeasured s.dev true =
    send (freeVal s.dev).2 (.smb (leBytes 2 (freeVal s.dev).1)) := if_pos h

/-- A quantity that is not there is answered so. -/
theorem smbMeasured_unknown (h : s.dev.pin.smbAddr.isSome = true) : smbMeasured s.dev false = send s.dev (.smb (leBytes 2 0x8000)) := smb_answers h _

/-- Each read of a measured quantity that is there. -/
theorem measured_reads {die rail : Nat} :
    ∀ i ∈ [Instr.smbHottestTemp, .smbInputPower] ++ (if die < popDies s.fuses then [.smbDieTemp die] else []) ++ (if rail ≤ 6 then [.smbRailVoltage rail] else []),
      exec i s = .next (s.withDev (smbMeasured s.dev true)) := by
  intro i hi
  simp only [List.mem_append, List.mem_cons, List.not_mem_nil, or_false] at hi
  obtain ((rfl | rfl) | hi) | hi := hi
  · rfl
  · rfl
  · split_ifs at hi with hdie
    · obtain rfl := List.mem_singleton.1 hi
      rw [exec_smbDieTemp, execSmbDieTemp, onFz_withDev, decide_eq_true hdie]
    · cases hi
  · split_ifs at hi with hrail
    · obtain rfl := List.mem_singleton.1 hi
      rw [exec_smbRailVoltage, execSmbRailVoltage, onDev_withDev, decide_eq_true hrail]
    · cases hi

/-- A test port instruction is taken while VDD_IO is present (R556). -/
theorem tap_takes (h : s.dev.pin.vddIo = true) (ir : TapIr) (drive : PinDrive) (v n : Nat) :
    tap s.dev ir drive v n = send (modPin s.dev fun p => { p with tapIr := ir, drive := drive }) (.tap (v % 2 ^ n) n) := by
  rw [tap, h]
  rfl

/-- A byte is written to the flash while RESET_N is low (R551). -/
theorem fxSpi_writes (h : s.dev.pin.vddIo = true) (hreset : s.dev.pin.resetN = false) {addr : Nat} (haddr : addr < 2 ^ 26) (b : BitVec 8) :
    fxSpi s.dev addr [b] = modPin s.dev fun p => { p with tapIr := .spi, drive := .part, flash := tput p.flash addr b } := by
  have hbytes : ([b].zipIdx.filter fun x => decide (addr + x.2 < 2 ^ 26)) = [(b, 0)] := by
    rw [List.zipIdx_singleton, List.filter_cons_of_pos, List.filter_nil]
    exact decide_eq_true haddr
  rw [fxSpi, h, hreset, hbytes]
  rfl

end

/-- Telemetry and the test port (R44, R555, R556). -/
theorem telemetryAndTestRun : TelemetryAndTestRun := by
  intro s die rail cmd pins tdi n data tells taps
  refine ⟨fun haddr => ⟨?_, ?_, ?_, ?_, ?_, ?_, fun hdie => ?_, fun hrail => ?_, fun i hi => ?_⟩, rfl, fun h => ⟨?_, fun hn => ?_, ?_, ?_, fun hn => ⟨?_, ?_⟩⟩, rfl,
    fun addr b h hreset ha => ?_⟩
  · rw [exec_smbId, execSmbId, onFz_withDev, smb_answers haddr]
  · rw [exec_smbStepping, execSmbStepping, onFz_withDev, smb_answers haddr]
  · rw [exec_smbStage, execSmbStage, onDev_withDev, smb_answers haddr]
  · rw [exec_smbStatus, execSmbStatus, onDev_withDev, smb_answers haddr]
  · rw [exec_smbSerial, execSmbSerial, onFz_withDev, smb_answers haddr]
  · rw [exec_smbSafeCnt, execSmbSafeCnt, onDev_withDev, smb_answers haddr]
  · rw [exec_smbDieTemp, execSmbDieTemp, onFz_withDev, decide_eq_false (Nat.not_lt.2 hdie), smbMeasured_unknown haddr]
  · rw [exec_smbRailVoltage, execSmbRailVoltage, onDev_withDev, decide_eq_false (Nat.not_le.2 hrail), smbMeasured_unknown haddr]
  · refine ⟨(freeVal s.dev).1, _, measured_reads i hi, ?_⟩
    rw [smbMeasured_known haddr]
    exact ⟨rfl, rfl, rfl⟩
  · rw [exec_bypass, execBypass, onDev_withDev, tap_takes h]
    rfl
  · rw [exec_idcode, execIdcode, onFz_withDev, tap_takes h, ← hn]
    rfl
  · rw [exec_samplePreload, execSamplePreload, onDev_withDev, if_pos h, tap_takes h]
    rfl
  · rw [exec_extest, execExtest, onDev_withDev, if_pos h, tap_takes h]
    rfl
  · rw [exec_clamp, execClamp, onDev_withDev, tap_takes h, ← hn]
    rfl
  · rw [exec_highz, execHighz, onDev_withDev, tap_takes h, ← hn]
    rfl
  · refine ⟨fxSpi s.dev addr [b], rfl, ?_⟩
    rw [fxSpi_writes h hreset ha]
    exact ⟨rfl, rfl⟩

/-- Settles O54: telemetry and the test port, and the links of the field ports. -/
theorem telemetryAndPortsRun : Obligations.TelemetryAndPortsRun := ⟨telemetryAndTestRun, fieldPortLinkRuns⟩

/-! ### Boot (R552, R553) -/

section
variable {fz : Fuses} {d : Dev}

/-- The state in which RESET_N starts the boot. -/
def bootsFrom (d : Dev) : Prop := d.pin.vddIo = true ∧ d.pin.pwrGood = true ∧ d.pin.trip = false ∧ d.pin.stage = 0

/-- The device once RESET_N is released and the clocks run. -/
def released (d : Dev) : Dev := rset (modPin d fun p => { p with resetN := true }) 0x18 7

/-- The device that has taken its boot configuration: its role, its dies, the links. -/
def configured (fz : Fuses) (d : Dev) : Dev :=
  let baud := bootField d 3
  modPin (rfield { released d with pkg := { d.pkg with twin := bootField d 1 % 2 == 1, live := 2 ^ popDies fz - 1 } } 0x1004 11 8 (if baud ≤ 9 then baud else 1)) fun p =>
    { p with linkUp := total (((List.range 10).filter fun x => linkHere fz x).map fun x => 2 ^ x) }

/-- What a boot does in its stages: the configuration, the image, and what follows. -/
theorem fxBoot_from (h : bootsFrom d) (cfgOk imgOk : Bool) : fxBoot fz d cfgOk imgOk =
    if !cfgOk || bootField d 0 ≠ 1 then bootStop (released d) 0x83
    else if !imgOk || !imgFormatOk (flashImage d) || !imgRangeOk (flashImage d) || fld (flashImage d) 16 1 ≠ Config.fwMajor then bootStop (configured fz d) 0x85
    else modPin (modImg (configured fz d) fun x => { x with slots := [(0, { raw := flashImage d, ready := true })], active := 0 }) fun p => { p with stage := 6 } := by
  obtain ⟨hvdd, hpwr, htrip, hstage⟩ := h
  have hstarts : (!d.pin.vddIo || !d.pin.pwrGood || d.pin.trip || decide (d.pin.stage ≠ 0)) = false := by
    rw [hvdd, hpwr, htrip, hstage]
    rfl
  unfold fxBoot
  rw [hstarts, if_neg Bool.false_ne_true]
  rfl

/-- Nothing is left out where nothing failed. -/
theorem leaveOut_none : leaveOut fz d 0 [] = modPin d fun p => { p with leftOut := p.leftOut || false || false } := by
  have hnone : ((List.range 8).filter fun x => bitAt 0 x && decide (x < popDies fz)) = [] := by
    rw [List.filter_eq_nil_iff]
    intro x hx
    simp [bitAt]
  unfold leaveOut
  rw [hnone]
  rfl

/-- Placing the tiles changes the maps of the package, the owners of the banks and live conditions. -/
theorem placeTiles_places : (placeTiles fz d).pin = d.pin ∧ (placeTiles fz d).pkg.map = tileMapOf fz d (actImg d) ∧ (placeTiles fz d).pkg.live = d.pkg.live := by
  have hkeeps : ∀ d : Dev, ((countCheck d).pin, (countCheck d).pkg) = (d.pin, d.pkg) := fun d =>
    foldl_leaves (fun d : Dev => (d.pin, d.pkg)) (fun d x => setLive_leaves (fun d : Dev => (d.pin, d.pkg)) (fun _ _ => rfl) ..) _ _
  obtain ⟨hpin, hpkg⟩ := Prod.mk.inj (hkeeps (applyPlan { d with pkg := { d.pkg with
    map := tileMapOf fz d (actImg d), m := (coreOrder fz d (actImg d)).length, cut := liveMasks fz d, slots := liveMasks fz d } }))
  exact ⟨hpin, (congrArg PkgRec.map hpkg).trans rfl, (congrArg PkgRec.live hpkg).trans rfl⟩

/-- Boot completes: the tile map of the live cores, and the package is ready (R30, R552). -/
theorem fxBootReady_completes (hlo : 2 ≤ d.pin.stage) (hhi : d.pin.stage ≤ 7) :
    (fxBootReady fz d 0 []).pin.stage = 8 ∧ (fxBootReady fz d 0 []).pin.ready = true ∧ (fxBootReady fz d 0 []).pkg.map = tileMapOf fz d (actImg d) ∧
      (fxBootReady fz d 0 []).pkg.live = d.pkg.live := by
  have hstarts : (decide (d.pin.stage < 2) || decide (d.pin.stage > 7)) = false := by
    rw [decide_eq_false (Nat.not_lt.2 hlo), decide_eq_false (Nat.not_lt.2 hhi)]
    rfl
  have hon : ¬ (modPin d fun p => { p with leftOut := p.leftOut || false || false }).pin.stage ≥ 0x80 := by
    show ¬ d.pin.stage ≥ 0x80
    omega
  unfold fxBootReady
  rw [hstarts, if_neg Bool.false_ne_true, leaveOut_none]
  dsimp only
  rw [if_neg hon, deratedCheck, setLive_leaves (fun d => d.pin) (fun _ _ => rfl), setLive_leaves (fun d => d.pkg) (fun _ _ => rfl)]
  obtain ⟨-, hmap, hlive⟩ := placeTiles_places (fz := fz) (d := modPin d fun p => { p with leftOut := p.leftOut || false || false })
  exact ⟨rfl, rfl, hmap, hlive⟩

end

/-- Settles O38: a boot that goes on, those that stop, and the package ready. -/
theorem bootRuns : Obligations.BootRuns := by
  intro s clear
  refine ⟨fun h hformat hrange => ⟨fxBoot s.fuses s.dev true true, rfl, ?_⟩, fun img h => ⟨fxBoot s.fuses s.dev false img, rfl, ?_⟩,
    fun h => ⟨fxBoot s.fuses s.dev true false, rfl, ?_⟩, fun hlo hhi => ⟨fxBootReady s.fuses s.dev 0 [], rfl, fxBootReady_completes hlo hhi⟩, fun stage hvdd hpwr hready hstage hlo hhi => ?_⟩
  · rw [fxBoot_from h, hformat, hrange]
    by_cases hcfg : bootField s.dev 0 = 1
    · by_cases hfw : fld (flashImage s.dev) 16 1 = Config.fwMajor
      · rw [decide_eq_false (not_not_intro hcfg), decide_eq_false (not_not_intro hfw)]
        exact ⟨rfl, fun h => absurd hcfg h, fun _ => ⟨rfl, fun h => absurd hfw h, fun _ => ⟨rfl, rfl, rfl, rfl⟩⟩⟩
      · rw [decide_eq_false (not_not_intro hcfg), decide_eq_true hfw]
        exact ⟨rfl, fun h => absurd hcfg h, fun _ => ⟨rfl, fun _ => ⟨rfl, rfl, rfl⟩, fun h => absurd h hfw⟩⟩
    · rw [decide_eq_true hcfg]
      exact ⟨rfl, fun _ => ⟨rfl, rfl, rfl⟩, fun h => absurd h hcfg⟩
  · rw [fxBoot_from h]
    exact ⟨rfl, rfl, rfl⟩
  · rw [fxBoot_from h]
    by_cases hcfg : bootField s.dev 0 = 1
    · rw [if_pos hcfg, decide_eq_false (not_not_intro hcfg)]
      exact ⟨rfl, rfl, rfl⟩
    · rw [if_neg hcfg, decide_eq_true hcfg]
      exact ⟨rfl, rfl, rfl⟩
  · have hfails : (!s.dev.pin.vddIo || !s.dev.pin.pwrGood || s.dev.pin.ready || decide (s.dev.pin.stage ≥ 0x80)) = false := by
      rw [hvdd, hpwr, hready, decide_eq_false (Nat.not_le.2 hstage)]
      rfl
    have hstops : (decide (0x81 ≤ stage) && decide (stage ≤ 0x85)) = true := by
      rw [decide_eq_true hlo, decide_eq_true hhi]
      rfl
    rw [exec_bootFailure, execBootFailure, onFz_withDev, fxBootFailure, hfails, hstops]
    rfl

/-! ### Package reset (R554) -/

/-- A package whose fuses hold the address base 1. -/
def oddMac : State := { State.reset with fuses := { State.reset.fuses with macBase := 1 } }

/-- After a package reset FLD_MAC_BASE shows the address base of the fuses (R541). -/
theorem rget_packageReset_mac : rget (packageReset oddMac.fuses oddMac.dev) 0x40100C = 1 := by decide

/-- Refutes O37: after a package reset not every register but BRM_CFG shows its listed reset value. FLD_MAC_BASE takes the fused address base, which is 1 in
the package of the counterexample, where the map lists 0. -/
theorem not_powerAndResetsRun : ¬ Obligations.PowerAndResetsRun := by
  intro h
  obtain ⟨-, -, ⟨d, hexec, -, -, -, -, -, -, -, -, -, -, -, -, hregs, -⟩, -⟩ := h oddMac
  have hdev : packageReset oddMac.fuses oddMac.dev = d := congrArg State.dev (Host.Outcome.next.inj hexec)
  have hlisted : rget d 0x40100C = regReset 0x40100C := hregs _ (by decide)
  rw [← hdev, rget_packageReset_mac] at hlisted
  exact absurd hlisted (by decide)

end Sys2Proof.Machine

/-! PROOFS. Twins (O14, O15): what a role change leaves of the twin unit, the events of the link, and what the twins exchange for a turn. -/
namespace Sys2Proof.Machine

/-! ### What the operations on twins do to the twin unit -/

section
variable {d : Dev}

theorem irq_twin (fn vec : Nat) : (irq d fn vec).twin = d.twin := irq_leaves (fun d => d.twin) (fun _ _ => rfl) (fun _ _ => rfl) ..
theorem assertLive_twin (src die origin obj : Nat) : (assertLive d src die origin obj).twin = d.twin := assertLive_leaves (fun d => d.twin) (fun _ _ => rfl) ..
theorem clearLive_twin (src die origin obj : Nat) : (clearLive d src die origin obj).twin = d.twin := clearLive_leaves (fun d => d.twin) (fun _ _ => rfl) ..
theorem dropFrames_twin (p : EgFrame → Bool) (st det : Nat) : (dropFrames d p st det).twin = d.twin :=
  dropFrames_leaves (fun d => d.twin) (fun _ _ => rfl) (fun _ _ => rfl) ..

/-- A role change keeps the role before it (R487). -/
theorem setRole_twin {r : Role} (h : d.twin.role ≠ r) : (setRole d r).twin = { d.twin with prev := d.twin.role, role := r } := by
  rw [setRole, if_neg h, irq_twin, cnt_twin]
  rfl

theorem letGo_twin : (letGo d).twin = d.twin := by
  refine foldl_leaves (fun d => d.twin) (fun d f => ?_) _ _
  unfold repOut
  cases f.rep with
  | none => rfl
  | some x => exact reply_leaves (fun d => d.twin) (fun _ _ => rfl) (fun _ _ => rfl) ..

theorem setGen_twin (g : Nat) : (setGen d g).twin = { d.twin with gen := g % 65536 } := rfl

theorem endQueries_twin (ns : List Nat) (st det : Nat) : (endQueries d ns st det).twin = d.twin := by
  refine foldl_leaves (fun d => d.twin) (fun d n => ?_) _ _
  unfold endQuery
  split
  · rfl
  next q _ =>
    by_cases hended : q.stage = .ended
    · rw [if_pos hended]
    · rw [if_neg hended]
      extract_lets st' det' d1
      split_ifs
      · rfl
      · exact reply_leaves (fun d => d.twin) (fun _ _ => rfl) (fun _ _ => rfl) ..

/-- The package stops (R487, R496, R498). -/
theorem goQuarantine_twin (h : d.twin.role ≠ .quarantined) : (goQuarantine d).twin = { d.twin with prev := d.twin.role, role := .quarantined } := by
  have hkeep : ∀ p, (dropFrames (endQueries d ((liveQueries d).map (·.1)) 0x303 0) p 0x303 0).twin = d.twin := fun p => by rw [dropFrames_twin, endQueries_twin]
  unfold goQuarantine
  dsimp only
  rw [setRole_twin (by rw [hkeep]; exact h), hkeep]

/-- The package takes the lead alone, with a new generation (R494, R497). -/
theorem takeLead_twin (h : d.twin.role ≠ .solo) :
    (takeLead d).twin = { d.twin with prev := d.twin.role, role := .solo, shadowFrom := none, gen := (d.twin.gen + 1) % 65536 } := by
  rw [takeLead, letGo_twin, setGen_twin]
  simp only [modTwin, setRole_twin h]

theorem goSolo_twin (h : d.twin.role ≠ .solo) : (goSolo d).twin = { d.twin with prev := d.twin.role, role := .solo } := by
  rw [goSolo, letGo_twin, setRole_twin h]

end

/-! ### What leaves for the witness (R496, R511, R525) -/

section
variable {β : Type} (g : Dev → β) (hfab : ∀ (d : Dev) (x : FabDev), g { d with fab := x } = g d) (hsend : ∀ d o, g (send d o) = g d)

include hsend in
theorem fabTo_leaves (d : Dev) (id : Nat) (f : Bytes) : g (fabTo d id f) = g d := by
  unfold fabTo
  extract_lets l
  split
  · rfl
  · exact hsend ..

include hfab hsend

theorem dataSend_leaves (d : Dev) (id ch : Nat) (payload : Bytes) : g (dataSend d id ch payload) = g d := by
  unfold dataSend
  extract_lets c
  split_ifs
  · exact (hfab ..).trans (fabTo_leaves g hsend ..)
  · exact hfab ..

/-- A request to the witness is a message on its channel, or an interrupt. -/
theorem askWitness_leaves (hhost : ∀ (d : Dev) (x : HostDev), g { d with host := x } = g d) (fz : Fuses) (d : Dev) (gen prev : Nat) :
    g (askWitness fz d gen prev) = g d := by
  unfold askWitness
  split_ifs
  · exact dataSend_leaves g hfab hsend ..
  · exact irq_leaves g hhost hsend ..

end

section
variable {fz : Fuses} {d : Dev}

theorem askWitness_twin (gen prev : Nat) : (askWitness fz d gen prev).twin = d.twin :=
  askWitness_leaves (fun d => d.twin) (fun _ _ => rfl) (fun _ _ => rfl) (fun _ _ => rfl) ..

/-- A follow that is promoted (R494). -/
theorem promote_twin (h : d.twin.role = .follow) :
    (promote fz d).twin = { d.twin with prev := .follow, role := .solo, shadowFrom := none, gen := (d.twin.gen + 1) % 65536 } := by
  have hlead : (cutHostRuns (takeLead d)).twin = { d.twin with prev := .follow, role := .solo, shadowFrom := none, gen := (d.twin.gen + 1) % 65536 } := by
    rw [← h]
    exact takeLead_twin (by rw [h]; exact Role.noConfusion)
  unfold promote
  dsimp only
  split_ifs
  · rw [askWitness_twin, hlead]
  · exact hlead

end

/-! ### Frames of the link (R484, R498) -/

section
variable {fz : Fuses} {d : Dev} {gen seq t : Nat} {msg : TwinMsg}

/-- The device that has accepted a frame's number. -/
def frameTaken (d : Dev) (seq t : Nat) : Dev := clearLive (modTwin (atTime d t) fun x => { x with linkUp := true, rxSeq := seq + 1 }) 0x050 1 0xD8 0

theorem frameTaken_leaves {β : Type} (g : Dev → β) (hwdn : ∀ (d : Dev) (x : WdnDev), g { d with wdn := x } = g d) :
    g (frameTaken d seq t) = g (modTwin (atTime d t) fun x => { x with linkUp := true, rxSeq := seq + 1 }) := clearLive_leaves g hwdn ..

theorem frameTaken_twin : (frameTaken d seq t).twin = { d.twin with linkUp := true, rxSeq := seq + 1 } := frameTaken_leaves (fun d => d.twin) fun _ _ => rfl

/-- No generation is newer than itself. -/
theorem newerGen_self (g : Nat) : newerGen g g = false := by
  have hzero : (g + 65536 - g % 65536) % 65536 = 0 := by omega
  rw [newerGen, hzero]
  rfl

/-- A frame that is accepted: its number is taken, and its message goes by its generation. -/
theorem fxLinkFrame_accepts (htwin : d.pkg.twin = true) (hseq : d.twin.linkUp = true → seq = d.twin.rxSeq) : fxLinkFrame fz d gen seq true msg t =
    if (d.twin.role == .attaching || d.twin.role == .detached) || attachMsg msg then
      takeMsg fz (if d.twin.role = .attaching && newerGen gen d.twin.gen then setGen (frameTaken d seq t) gen else frameTaken d seq t) t msg
    else if newerGen gen d.twin.gen then (if d.twin.role = .quarantined then frameTaken d seq t else quarantine (frameTaken d seq t))
    else if gen ≠ d.twin.gen then raise (cnt (frameTaken d seq t) 0x300028) 0x056 0 0xD8 0
    else takeMsg fz (frameTaken d seq t) t msg := by
  have hpasses : (!d.pkg.twin || !true || (d.twin.linkUp && decide (seq ≠ d.twin.rxSeq))) = false := by
    rw [htwin]
    cases hlink : d.twin.linkUp with
    | false => rfl
    | true => rw [decide_eq_false (not_not_intro (hseq hlink))]; rfl
  have hrole : (frameTaken d seq t).twin.role = d.twin.role := by rw [frameTaken_twin]
  have hgen : (frameTaken d seq t).twin.gen = d.twin.gen := by rw [frameTaken_twin]
  rw [← hrole, ← hgen]
  unfold fxLinkFrame
  rw [hpasses]
  rfl

/-- An idle frame of the pair's generation only takes its number. -/
theorem fxLinkFrame_idle (htwin : d.pkg.twin = true) (hseq : d.twin.linkUp = true → seq = d.twin.rxSeq) :
    fxLinkFrame fz d d.twin.gen seq true .idle t = frameTaken d seq t := by
  rw [fxLinkFrame_accepts htwin hseq, newerGen_self, Bool.and_false, if_neg Bool.false_ne_true, if_neg Bool.false_ne_true, if_neg (not_not_intro rfl)]
  exact ite_self _

/-- A frame of an older generation counts and is raised (R498). -/
theorem fxLinkFrame_stale (htwin : d.pkg.twin = true) (hseq : d.twin.linkUp = true → seq = d.twin.rxSeq) (hatt : d.twin.role ≠ .attaching)
    (hdet : d.twin.role ≠ .detached) (hmsg : attachMsg msg = false) (hne : gen ≠ d.twin.gen) (hold : newerGen gen d.twin.gen = false) :
    fxLinkFrame fz d gen seq true msg t = raise (cnt (frameTaken d seq t) 0x300028) 0x056 0 0xD8 0 := by
  rw [fxLinkFrame_accepts htwin hseq, beq_false_of_ne hatt, beq_false_of_ne hdet, hmsg, hold, Bool.or_self, Bool.or_self, if_neg Bool.false_ne_true,
    if_neg Bool.false_ne_true, if_pos hne]

theorem fxLinkFrame_drops {crcOk : Bool} (h : crcOk = false ∨ (d.twin.linkUp = true ∧ seq ≠ d.twin.rxSeq)) : fxLinkFrame fz d gen seq crcOk msg t = d := by
  obtain rfl | ⟨hlink, hseq⟩ := h
  · simp [fxLinkFrame]
  · simp [fxLinkFrame, hlink, hseq]

/-- A link that is lost while the other package is not down: the witness decides (R484, R496). -/
theorem fxLinkLost_asks (htwin : d.pkg.twin = true) (hlink : d.twin.linkUp = true) (hdown : d.twin.downIn = false)
    (hrole : d.twin.role = .follow ∨ d.twin.role = .lead) (hidle : d.twin.attach = 0) :
    (fxLinkLost fz d t).twin = { d.twin with linkUp := false, prev := d.twin.role, role := .arbitrating, arbFrom := some d.time.turn,
                                             witGen := some ((d.twin.gen + 1) % 65536, if d.twin.role = .follow then 1 else 0) } := by
  have hlost : (assertLive (modTwin (atTime d t) fun x => { x with linkUp := false }) 0x050 1 0xD8 0).twin = { d.twin with linkUp := false } := assertLive_twin ..
  have hturn : (assertLive (modTwin (atTime d t) fun x => { x with linkUp := false }) 0x050 1 0xD8 0).time.turn = d.time.turn :=
    assertLive_leaves (fun d => d.time.turn) (fun _ _ => rfl) ..
  have hstays : abortAttach (assertLive (modTwin (atTime d t) fun x => { x with linkUp := false }) 0x050 1 0xD8 0) =
      assertLive (modTwin (atTime d t) fun x => { x with linkUp := false }) 0x050 1 0xD8 0 := if_pos (by rw [hlost]; exact hidle)
  unfold fxLinkLost
  rw [htwin, hlink, hstays]
  generalize assertLive (modTwin (atTime d t) fun x => { x with linkUp := false }) 0x050 1 0xD8 0 = d1 at *
  have hrole1 : d1.twin.role = d.twin.role := by rw [hlost]
  have hpair : (d1.twin.downIn || !(d1.twin.role == .lead || d1.twin.role == .follow)) = false := by
    rw [hlost]
    dsimp only
    rw [hdown]
    obtain h | h := hrole <;> rw [h] <;> rfl
  have hne : d1.twin.role ≠ .arbitrating := by
    rw [hrole1]
    obtain h | h := hrole <;> rw [h] <;> exact Role.noConfusion
  extract_lets d1' prev g d2 d3
  have hprev : prev = if d.twin.role = .follow then 1 else 0 := by rw [← hrole1]
  have hd2 : d2.twin = { d.twin with linkUp := false, prev := d.twin.role, role := .arbitrating, arbFrom := some d.time.turn,
                                     witGen := some ((d.twin.gen + 1) % 65536, if d.twin.role = .follow then 1 else 0) } := by
    show { (setRole d1 .arbitrating).twin with arbFrom := some d1.time.turn, witGen := some ((d1.twin.gen + 1) % 65536, prev) } = _
    rw [setRole_twin hne, hprev, hturn, hlost]
  have hd3 : d3.twin = d2.twin := by
    unfold d3
    split_ifs
    · exact letGo_twin
    · rfl
  rw [hpair, ← hd2, ← hd3]
  change (if fabWitness d3 then askWitness fz d3 g prev else d3).twin = d3.twin
  split_ifs
  · exact askWitness_twin ..
  · rfl

/-- The device that has seen the other package's DOWN. -/
def downSeen (d : Dev) (t : Nat) : Dev := assertLive (modTwin (atTime d t) fun x => { x with downIn := true }) 0x051 1 0xD8 0

theorem downSeen_twin : (downSeen d t).twin = { d.twin with downIn := true } := assertLive_twin ..

/-- DOWN of the other package goes by the role (R485, R487, R494). -/
theorem fxDownIn_low (htwin : d.pkg.twin = true) : fxDownIn fz d true t = match (downSeen d t).twin.role with
    | .follow => promote fz (downSeen d t)
    | .lead => goSolo (downSeen d t)
    | _ => abortAttach (downSeen d t) := by
  rw [fxDownIn, htwin]
  rfl

/-- The witness's answer for the generation that an arbitrating package has asked for (R496, R498). -/
theorem witAnswer_arbitrating {g prev : Nat} (hrole : d.twin.role = .arbitrating) (hasked : d.twin.witGen = some (g, prev)) :
    (witAnswer d true g).twin =
        { d.twin with witGen := none, arbFrom := none, prev := .arbitrating, role := .solo, shadowFrom := none, gen := (d.twin.gen + 1) % 65536 } ∧
      (witAnswer d false g).twin = { d.twin with witGen := none, arbFrom := none, prev := .arbitrating, role := .quarantined } := by
  have hrole' : (modTwin d fun x => { x with witGen := none, arbFrom := none }).twin.role = .arbitrating := hrole
  have hlead : (takeLead (modTwin d fun x => { x with witGen := none, arbFrom := none })).twin =
      { d.twin with witGen := none, arbFrom := none, prev := .arbitrating, role := .solo, shadowFrom := none, gen := (d.twin.gen + 1) % 65536 } := by
    rw [takeLead_twin (by rw [hrole']; exact Role.noConfusion), hrole']
    rfl
  have hstop : (quarantine (modTwin d fun x => { x with witGen := none, arbFrom := none })).twin =
      { d.twin with witGen := none, arbFrom := none, prev := .arbitrating, role := .quarantined } := by
    rw [quarantine, assertLive_twin, goQuarantine_twin (by rw [hrole']; exact Role.noConfusion), hrole']
    rfl
  have hanswer : ∀ grant, witAnswer d grant g = if !grant then quarantine (modTwin d fun x => { x with witGen := none, arbFrom := none })
      else if prev = 1 then cutHostRuns (takeLead (modTwin d fun x => { x with witGen := none, arbFrom := none }))
      else takeLead (modTwin d fun x => { x with witGen := none, arbFrom := none }) := by
    intro grant
    simp only [witAnswer, hasked, ne_eq, not_true_eq_false, if_false, hrole']
  refine ⟨?_, ?_⟩
  · rw [hanswer]
    by_cases hp : prev = 1
    · rw [if_pos hp]
      exact hlead
    · rw [if_neg hp]
      exact hlead
  · rw [hanswer]
    exact hstop

/-- Two turns without a grant quarantine an arbitrating package (R496). -/
theorem fxArbTimeout_quarantines {from_ : Nat} (hfrom : d.twin.arbFrom = some from_) (hdue : from_ + 2 ≤ d.time.turn) (hrole : d.twin.role = .arbitrating) :
    (fxArbTimeout d).twin = { d.twin with witGen := none, arbFrom := none, prev := .arbitrating, role := .quarantined } := by
  have hrole' : (modTwin d fun x => { x with witGen := none, arbFrom := none }).twin.role = .arbitrating := hrole
  have hstops : fxArbTimeout d = goQuarantine (raise (modTwin d fun x => { x with witGen := none, arbFrom := none }) 0x057 0 0xD8 0) := by
    simp only [fxArbTimeout, hfrom, Nat.not_lt.2 hdue, if_false, hrole']
  rw [hstops, goQuarantine_twin (by rw [raise_twin, hrole']; exact Role.noConfusion), raise_twin, hrole']
  rfl

end

/-- Settles O14: frames of the link, its loss, the other package's signals, and the witness's answers. -/
theorem twinEventsRun : Obligations.TwinEventsRun := by
  intro s t htwin
  refine ⟨fun gen seq msg hseq => ?_, fun gen seq crcOk msg h => ?_, fun hlink => ?_, fun hlink hdown hrole hidle => ⟨_, rfl, ?_⟩, fun hrole => ⟨⟨_, rfl, ?_⟩, _, rfl, ?_⟩,
    fun hrole => ⟨⟨_, rfl, ?_⟩, ⟨_, rfl, ?_⟩, _, rfl, ?_⟩, ⟨_, rfl, ?_⟩, fun v prev hrole hasked => ⟨fun hgrant => ⟨_, rfl, ?_⟩, fun hgrant => ⟨_, rfl, ?_⟩⟩,
    fun from_ hfrom hdue hrole => ⟨_, rfl, ?_⟩⟩
  · intro x
    have htaken : (frameTaken s.dev seq t).twin = x := frameTaken_twin
    refine ⟨⟨_, rfl, ?_⟩, fun hatt hdet hmsg hne hold => ⟨_, rfl, ?_⟩⟩
    · dsimp only
      rw [fxLinkFrame_idle htwin hseq]
      exact ⟨htaken, frameTaken_leaves (fun d => d.world) fun _ _ => rfl, frameTaken_leaves (fun d => d.q) fun _ _ => rfl⟩
    · dsimp only
      rw [fxLinkFrame_stale htwin hseq hatt hdet hmsg hne hold, raise_twin, raise_world, raise_q, raise_ldg, cnt_twin, cnt_world, cnt_q, cnt_ldg]
      exact ⟨htaken, frameTaken_leaves (fun d => d.world) fun _ _ => rfl, frameTaken_leaves (fun d => d.q) fun _ _ => rfl,
        frameTaken_leaves (fun d => d.ldg) fun _ _ => rfl⟩
  · rw [exec_twinLinkFrame, execTwinLinkFrame, onFz_withDev, fxLinkFrame_drops h]
    rfl
  · rw [exec_twinIdleTimer, execTwinIdleTimer, onDev_withDev, twinSend, htwin, hlink]
    rfl
  · dsimp only
    rw [fxLinkLost_asks htwin hlink hdown hrole hidle]
    exact ⟨rfl, rfl, rfl, rfl⟩
  · have hseen : (downSeen s.dev t).twin.role = .lead := by rw [downSeen_twin]; exact hrole
    dsimp only
    rw [fxDownIn_low htwin, hseen]
    dsimp only
    rw [goSolo_twin (by rw [hseen]; exact Role.noConfusion), downSeen_twin]
    exact ⟨rfl, rfl, rfl⟩
  · rw [fxTwinLeave, hrole]
    dsimp only
    rw [goSolo_twin (by rw [hrole]; exact Role.noConfusion)]
    exact ⟨rfl, rfl⟩
  · have hseen : (downSeen s.dev t).twin.role = .follow := by rw [downSeen_twin]; exact hrole
    dsimp only
    rw [fxDownIn_low htwin, hseen]
    dsimp only
    rw [promote_twin hseen, downSeen_twin]
    exact ⟨rfl, rfl, rfl⟩
  · rw [fxHandover, if_pos hrole, promote_twin hrole]
    exact ⟨rfl, rfl⟩
  · rw [fxTwinLeave, hrole]
    dsimp only
    rw [promote_twin hrole]
    exact ⟨rfl, rfl⟩
  · rw [fxDownRelease, clearLive_twin, clearLive_leaves (fun d => d.world) fun _ _ => rfl]
    exact ⟨rfl, rfl, rfl⟩
  · dsimp only
    rw [fxWitAns, hgrant, (witAnswer_arbitrating (d := atTime s.dev t) hrole hasked).1]
    exact ⟨rfl, rfl, rfl⟩
  · dsimp only
    rw [fxWitAns, hgrant, (witAnswer_arbitrating (d := atTime s.dev t) hrole hasked).2]
    exact ⟨rfl, rfl⟩
  · rw [fxArbTimeout_quarantines hfrom hdue hrole]
    exact ⟨rfl, rfl, rfl⟩

/-! ### What the twins exchange for a turn (R488 to R493, R500) -/

section
variable {d : Dev} {turn : Nat}

theorem follows_follow (h : d.twin.role = .follow) : follows d = true := by
  rw [follows, h]
  rfl

theorem fxTwinEntry_follow (h : d.twin.role = .follow) (e : Entry) :
    fxTwinEntry d turn e = modTwin d fun x => { x with tail := tput x.tail turn (tgetD x.tail turn [] ++ [e]) } := by
  rw [fxTwinEntry, follows_follow h]
  rfl

/-- A follow accepts the seal that agrees with its own digest (R488). -/
theorem fxTwinSeal_agrees (h : d.twin.role = .follow) {digest : Nat}
    (hown : digest = ledgerDigest d turn false false ((tget d.twin.seals (turn - 1)).getD d.ldg.digest) (orderEntries (tgetD d.twin.tail turn []))) :
    fxTwinSeal d turn digest = { d with twin := { d.twin with seals := tput d.twin.seals turn digest }, ldg := { d.ldg with opened := tdel d.ldg.opened turn } } := by
  have hjoins : (decide (d.twin.role = .attaching) && decide (d.twin.attach ≤ 4)) = false := by
    rw [h]
    rfl
  unfold fxTwinSeal
  rw [follows_follow h, hjoins]
  extract_lets es prev own d1
  have hsame : (decide (digest ≠ own false) && decide (digest ≠ own true)) = false := by
    rw [decide_eq_false (not_not_intro hown), Bool.false_and]
  rw [hsame]
  rfl

/-- The list of a turn that has not ended waits (R492). -/
theorem fxDigestList_waits (h : d.twin.role = .follow) (hturn : d.time.turn ≤ turn) (items : List (Nat × Nat × Nat)) :
    fxDigestList d turn items = modTwin d fun x => { x with peerLists := tput x.peerLists turn items } := by
  unfold fxDigestList
  rw [h]
  exact if_neg (Nat.not_lt.2 hturn)

/-- A list that is late counts and is raised (R493). -/
theorem fxDigestLate_late (h : d.twin.role = .follow) (hitems : ownItems d turn ≠ []) (hnone : tget d.twin.peerLists turn = none) (hturn : turn < d.time.turn) :
    fxDigestLate d turn = raise (cnt d 0x300030) 0x055 0 0xD8 0 := by
  simp [fxDigestLate, h, hitems, hnone, hturn]

/-- The end of an attach changes neither the role nor the generation. -/
theorem endAttach_ok (det : Nat) :
    (endAttach d 0 det).twin.role = d.twin.role ∧ (endAttach d 0 det).twin.gen = d.twin.gen ∧ (endAttach d 0 det).twin.attach = 0 := by
  unfold endAttach
  rw [if_pos rfl]
  cases d.twin.attachCmd with
  | none => exact ⟨rfl, rfl, rfl⟩
  | some x =>
    have htwin : (reply d x.1 0 det none x.2 0 0 0).twin = d.twin := reply_leaves (fun d => d.twin) (fun _ _ => rfl) (fun _ _ => rfl) ..
    exact ⟨congrArg (·.role) htwin, congrArg (·.gen) htwin, rfl⟩

/-- Equal state digests end the attach of a joiner, which follows with a new generation (R500). -/
theorem joinDecide_equal {x : Nat} (hown : d.twin.joinDigest = some x) (hpeer : d.twin.peerDigest = some x) (hrole : d.twin.role = .attaching) :
    (joinDecide d).twin.role = .follow ∧ (joinDecide d).twin.gen = (d.twin.gen + 1) % 65536 ∧ (joinDecide d).twin.attach = 0 := by
  have hfollow : (setGen (setRole d .follow) (d.twin.gen + 1)).twin = { d.twin with prev := d.twin.role, role := .follow, gen := (d.twin.gen + 1) % 65536 } := by
    rw [setGen_twin, setRole_twin (by rw [hrole]; exact Role.noConfusion)]
  have hjoin : joinDecide d = endAttach (setGen (setRole d .follow) (d.twin.gen + 1)) 0 (setGen (setRole d .follow) (d.twin.gen + 1)).twin.gen := by
    unfold joinDecide
    rw [hown, hpeer, hrole]
    exact if_neg (not_not_intro rfl)
  obtain ⟨hr, hg, ha⟩ := endAttach_ok (d := setGen (setRole d .follow) (d.twin.gen + 1)) (setGen (setRole d .follow) (d.twin.gen + 1)).twin.gen
  rw [hjoin]
  exact ⟨hr.trans (congrArg (·.role) hfollow), hg.trans (congrArg (·.gen) hfollow), ha⟩

/-- The record of a plan that waits for it is taken. -/
theorem fxTlRecord_takes {payload : Bytes} {id : Nat} {q : QueryRec}
    (hfind : ((liveQueries d).find? fun q => q.2.kind == .plan && q.2.cmd.tag == fld payload 0 4 && (planOf q.2.cmd).agent == fld payload 4 2 && needsTl d q.2) = some (id, q))
    (hnew : q.tlPlaced = false) (hready : q.stage = .ready) (hrole : d.twin.role ≠ .follow) :
    fxTlRecord d payload = takeRecord d id q (payload.take (96 + 32 * fld payload 6 1)) := by
  unfold fxTlRecord
  rw [hfind]
  dsimp only
  rw [hnew, hready, decide_eq_false hrole]
  rfl

end

/-- Settles O15: entries, seals and digests between the twins, held frames, and the end of an attach. -/
theorem twinTurnsRun : Obligations.TwinTurnsRun := by
  intro s turn
  refine ⟨fun hrole => ⟨fun e => ?_, fun digest hown => ?_, fun items hturn => ?_, fun hitems hnone hturn => ?_⟩, fun hdue => ?_, fun hattach hturn => ?_,
    fun theirs t hattach hown hrole => ⟨_, rfl, ?_⟩, fun payload id q hfind hnew hready hrole => ?_⟩
  · rw [exec_twinLedgerEntry, execTwinLedgerEntry, onDev_withDev, fxTwinEntry_follow hrole]
    rfl
  · rw [exec_twinSeal, execTwinSeal, onDev_withDev, fxTwinSeal_agrees hrole hown]
  · rw [exec_twinDigestList, execTwinDigestList, onDev_withDev, fxDigestList_waits hrole hturn]
    rfl
  · rw [exec_digestLate, execDigestLate, onDev_withDev, fxDigestLate_late hrole hitems hnone hturn]
  · rw [exec_heldFrameExpiry, execHeldFrameExpiry, onDev_withDev, fxHeldExpiry, if_neg (Nat.not_lt.2 hdue)]
  · have hjoins : fxJoinTurn s.dev = modTwin s.dev fun x => { x with attach := 5 } := by
      rw [fxJoinTurn, hattach, decide_eq_true hturn]
      rfl
    rw [exec_attachJoinTurn, execAttachJoinTurn, onDev_withDev, hjoins]
    rfl
  · dsimp only
    rw [fxStateDigest, if_neg (Nat.not_lt.2 hattach)]
    exact joinDecide_equal (d := modTwin (atTime s.dev t) fun x => { x with peerDigest := some theirs }) hown rfl hrole
  · rw [exec_tlRecordEntry, execTlRecordEntry, onDev_withDev, fxTlRecord_takes hfind hnew hready hrole]

end Sys2Proof.Machine

/-! PROOFS. The fabric (R507 to R533): its commands and timers, and the frames that arrive. -/
namespace Sys2Proof.Machine

/-! ### What the fabric sends leaves the device as it is -/

section
variable {β : Type} (g : Dev → β)

theorem fabAll_leaves (hsend : ∀ d o, g (send d o) = g d) (d : Dev) (f : Bytes) : g (fabAll d f) = g d := by
  refine foldl_leaves g (fun d p => ?_) _ _
  split_ifs
  · exact hsend ..
  · rfl

theorem resendAll_leaves (hsend : ∀ d o, g (send d o) = g d) (d : Dev) (id ch : Nat) : g (resendAll d id ch) = g d :=
  foldl_leaves g (fun _ _ => fabTo_leaves g hsend ..) _ _

theorem repick_leaves (hsend : ∀ d o, g (send d o) = g d) (old d : Dev) : g (repick old d) = g d := by
  refine foldl_leaves g (fun d c => ?_) _ _
  split_ifs
  · rfl
  · exact resendAll_leaves g hsend ..

/-- The live conditions of the peers are let go of. -/
theorem clearPeers_leaves (hwdn : ∀ (d : Dev) (x : WdnDev), g { d with wdn := x } = g d) (d : Dev) (l : Tab PeerRec) :
    g (l.foldl (fun d p => clearLive (clearLive d 0x061 0 0xF0 p.1) 0x062 0 0xF0 p.1) d) = g d :=
  foldl_leaves g (fun _ _ => (clearLive_leaves g hwdn ..).trans (clearLive_leaves g hwdn ..)) _ _

end

section
variable {d : Dev} {c : Cmd} {fz : Fuses}

theorem modFab_mirrors_none (h : d.fab.mirrors = []) (g : MirrorRec → MirrorRec) : modFab d (fun x => { x with mirrors := x.mirrors.map g }) = d := by
  have hmap : d.fab.mirrors.map g = d.fab.mirrors := by
    rw [h]
    rfl
  rw [modFab, hmap]

/-- A channel's record after a change is all that the change shows. -/
theorem modChan_congr {id ch : Nat} {f g : ChanRec → ChanRec} (h : f (chanOf d id ch) = g (chanOf d id ch)) : modChan d id ch f = modChan d id ch g := by
  unfold chanOf at h
  simp only [modChan, modFab, h]

/-! ### Commands and timers (R511, R513 to R516) -/

theorem fxJoin_seeks (hlen : c.block.length = 4) (hcoord : fld c.block 0 1 ≤ 1) (hzero : allZero (slice c.block 1 3) = true) (hstate : d.fab.state = .unjoined)
    (hreplay : d.ldg.replay = false) :
    fxJoin d c = ok (modFab d fun x => { x with state := .seeking, coord := bitAt (fld c.block 0 1) 0, leaves := 0 }) c 0xffffffff := by
  simp [fxJoin, hlen, Nat.not_lt.2 hcoord, hzero, hstate, hreplay]

/-- A coordinator that knows no other package gives itself an id (R515). -/
theorem fxFabricAssign_self (hlen : c.block.length = 12) (hserial : fld c.block 0 8 = fz.serial) (hid : fld c.block 8 1 ≤ 63)
    (hzero : allZero (slice c.block 9 3) = true) (hcoord : d.fab.coord = true) (hstate : d.fab.state = .seeking) (hothers : d.fab.otherCoord = [])
    (hseen : d.fab.seen = []) (hassigning : d.fab.assigning = []) (hfree : idHeard d (fld c.block 8 1) fz.serial = false) :
    fxFabricAssign fz d c = ok (takeId d (fld c.block 8 1)) c := by
  simp [fxFabricAssign, hlen, hserial, Nat.not_lt.2 hid, hzero, hcoord, hstate, hothers, hseen, hassigning, hfree]

/-- HELLO_TIMER of a package that is joined (R514). -/
theorem fxHelloTimer_joined (h : d.fab.state = .assigned ∨ d.fab.state = .seeking) :
    fxHelloTimer fz d = fabAll d (fabFrame d 1 0 0xff 0 0 false (helloBytes fz d)) := by
  obtain h | h := h <;> rw [fxHelloTimer, h]

theorem fxAssignTimer_joined (h : d.fab.state = .assigned ∨ d.fab.state = .seeking) :
    fxAssignTimer d = d.fab.assigning.foldl (fun d a => fabAll d (fabFrame d 2 0 0xff 0 0 false (leBytes 8 a.1 ++ leBytes 1 a.2 ++ zeros 7))) d := by
  refine if_neg ?_
  obtain h | h := h <;> rw [h] <;> exact FState.noConfusion

/-- The frames of a channel that wait for their acknowledgement are sent again, and counted (R511). -/
theorem fxResend_counts {id ch : Nat} (h : (chanOf d id ch).unacked ≠ []) : fxResend d id ch =
    (let d' := modChan (resendAll d id ch) id ch fun x => { x with unacked := (chanOf d id ch).unacked.map fun u => (u.1, u.2.1, u.2.2 + 1) }
     let runs := ((chanOf d' id ch).unacked.filter fun u => u.2.2 % 8 == 0).length
     (List.range runs).foldl (fun d _ => raise d 0x067 0 0xF0 id) (cnt d' 0x400090 runs)) := by
  have hchan : chanOf (resendAll d id ch) id ch = chanOf d id ch := by
    rw [chanOf, resendAll_leaves (fun d => d.fab) (fun _ _ => rfl), chanOf]
  have hmod : modChan (resendAll d id ch) id ch (fun x => { x with unacked := x.unacked.map fun u => (u.1, u.2.1, u.2.2 + 1) }) =
      modChan (resendAll d id ch) id ch fun x => { x with unacked := (chanOf d id ch).unacked.map fun u => (u.1, u.2.1, u.2.2 + 1) } :=
    modChan_congr (by rw [hchan])
  rw [← hmod]
  exact if_neg (by simpa using h)

theorem fxHbSend_sends (hstate : d.fab.state = .assigned) (hturn : d.time.turn % 1000 = 0) (hrun : running d = true) :
    fxHbSend fz d = fabAll d (fabFrame d 5 0 0xff 0 0 false (helloBytes fz d ++ leBytes 6 d.time.turn ++ leBytes 1 (roleCode d) ++ zeros 1 ++
      leBytes 2 d.twin.gen ++ zeros 2 ++ leBytes 4 ((d.fab.staged.map (·.gen)).getD 0))) := by
  simp [fxHbSend, hstate, hturn, hrun]

/-- A peer that is not heard is lost; without mirrors nothing else follows (R516, R523). -/
theorem fxPeerLost_lost {id : Nat} {p : PeerRec} (hpeer : tget d.fab.peers id = some p) (halive : p.alive = true) (hdue : p.heard + 3000 ≤ d.time.turn)
    (hmirrors : d.fab.mirrors = []) :
    fxPeerLost d id = assertLive (dropChans (modFab d fun x => { x with peers := tmod x.peers id fun p => { p with alive := false } }) id) 0x061 0 0xF0 id := by
  unfold fxPeerLost
  rw [hpeer]
  dsimp only
  rw [halive, decide_eq_false (Nat.not_lt.2 hdue)]
  have hfab : (assertLive (dropChans (modFab d fun x => { x with peers := tmod x.peers id fun p => { p with alive := false } }) id) 0x061 0 0xF0 id).fab.mirrors = [] :=
    (assertLive_leaves (fun d => d.fab.mirrors) (fun _ _ => rfl) ..).trans hmirrors
  generalize assertLive (dropChans (modFab d fun x => { x with peers := tmod x.peers id fun p => { p with alive := false } }) id) 0x061 0 0xF0 id = d' at *
  refine (if_neg (by simp)).trans ?_
  rw [hfab]
  exact modFab_mirrors_none hfab _

theorem fxFabricLeave_joined (h : d.fab.state ≠ .unjoined) : ∃ d', fxFabricLeave fz d c = ok d' c ∧ d'.fab.state = .unjoined ∧ d'.fab.coord = false ∧
    d'.fab.peers = [] ∧ d'.fab.leaves = 2 ∧ d'.regs = d.regs ∧ d'.world = d.world := by
  refine ⟨_, if_neg h, rfl, rfl, rfl, rfl, ?_, ?_⟩
  · exact ((clearPeers_leaves (fun d => d.regs) (fun _ _ => rfl) ..).trans (clearLive_leaves (fun d => d.regs) (fun _ _ => rfl) ..)).trans
      (fabAll_leaves (fun d => d.regs) (fun _ _ => rfl) ..)
  · exact ((clearPeers_leaves (fun d => d.world) (fun _ _ => rfl) ..).trans (clearLive_leaves (fun d => d.world) (fun _ _ => rfl) ..)).trans
      (fabAll_leaves (fun d => d.world) (fun _ _ => rfl) ..)

/-- The link of a port shows; what is sent again leaves the rest (R508, R513). -/
theorem fxFabLink_shows {port : Nat} (up : Bool) (hport : port < 4) :
    (fxFabLink d port up).fab = { d.fab with up := linkMask d.fab.up port up } ∧ (fxFabLink d port up).regs = d.regs := by
  rw [fxFabLink, if_neg (Nat.not_le.2 hport)]
  exact ⟨(repick_leaves (fun d => d.fab) (fun _ _ => rfl) ..).trans (setLive_leaves (fun d => d.fab) (fun _ _ => rfl) ..),
    (repick_leaves (fun d => d.regs) (fun _ _ => rfl) ..).trans (setLive_leaves (fun d => d.regs) (fun _ _ => rfl) ..)⟩

end

theorem fabricCommandsRun : FabricCommandsRun := by
  intro c s
  refine ⟨fun hpf hlen hcoord hzero hstate hreplay => ?_, fun hpf hlen hserial hid hzero hcoord hstate hothers hseen hassigning hfree => ?_, fun hpf hstate => ?_,
    fun hstate => ⟨?_, ?_⟩, fun peer ch hunacked => ?_, fun hstate hturn hrun => ?_, fun peer p hpeer halive hdue hmirrors => ?_, fun port up hport => ⟨_, rfl, ?_⟩⟩
  · rw [exec_fabricJoin, execFabricJoin, onDev_withDev, pfOnly_pf hpf, fxJoin_seeks hlen hcoord hzero hstate hreplay]
    rfl
  · rw [exec_fabricAssign, execFabricAssign, onFz_withDev, pfOnly_pf hpf, fxFabricAssign_self hlen hserial hid hzero hcoord hstate hothers hseen hassigning hfree]
  · rw [exec_fabricLeave, execFabricLeave, onFz_withDev, pfOnly_pf hpf]
    obtain ⟨d, hd, hleft⟩ := fxFabricLeave_joined (fz := s.fuses) (c := c) hstate
    exact ⟨d, by rw [hd], hleft⟩
  · rw [exec_helloTimer, execHelloTimer, onFz_withDev, fxHelloTimer_joined hstate]
  · rw [exec_assignTimer, execAssignTimer, onDev_withDev, fxAssignTimer_joined hstate]
  · rw [exec_dataResendTimeout, execDataResendTimeout, onDev_withDev, fxResend_counts hunacked]
  · rw [exec_fabricHeartbeatSend, execFabricHeartbeatSend, onFz_withDev, fxHbSend_sends hstate hturn hrun]
  · rw [exec_peerLost, execPeerLost, onDev_withDev, fxPeerLost_lost hpeer halive hdue hmirrors]
  · obtain ⟨hfab, hregs⟩ := fxFabLink_shows (d := s.dev) up hport
    obtain ⟨hself, hothers⟩ := bitAt_linkMask s.dev.fab.up port up
    rw [hfab]
    exact ⟨hself, fun q _ hq => hothers q hq, hregs⟩

/-! ### Frames (R509 to R517) -/

section
variable {s : State} {f : FabFrame} {t : Nat} {k : Dev → Dev}

theorem fabIn_accepts (hopen : fabOpen s.dev f = true) (hgood : fabBad s.dev f = false) : fabIn s.dev f t k = k (heardFrom (atTime s.dev t) (fabFrom f)) := by
  rw [fabIn, hopen, hgood]
  rfl

theorem fabIn_drops (hopen : fabOpen s.dev f = true) (hbad : fabBad s.dev f = true) : fabIn s.dev f t k = cnt s.dev 0x400094 := by
  rw [fabIn, hopen, hbad]
  rfl

end

/-- The DATA frame of the witness channel whose number is the one expected (R511, R525). -/
theorem execData_witness {s : State} {f : FabFrame} {t : Nat} (hopen : fabOpen s.dev f = true) (hgood : fabBad s.dev f = false)
    (hid : fld f.body 3 1 = s.dev.fab.id) (hstate : s.dev.fab.state = .assigned) (hch : bits (fld f.body 1 1) 2 0 = 1) (hfrom : fabFrom f ≤ 63)
    (hsyn : bitAt (fld f.body 14 1) 0 = false) {d1 d2 : Dev} (hd1 : d1 = takeAck (heardFrom (atTime s.dev t) (fabFrom f)) (fabFrom f) 1 (fld f.body 8 4))
    (hexpect : (chanOf d1 (fabFrom f) 1).expect = fld f.body 4 4)
    (hd2 : d2 = modChan d1 (fabFrom f) 1 fun c => { c with expect := (fld f.body 4 4 + 1) % 2 ^ 32 }) :
    exec (.data f t) s = .next (s.withDev (takeWitness s.fuses
      (fabTo d2 (fabFrom f) (fabFrame d2 4 1 (fabFrom f) 0 (chanOf d2 (fabFrom f) 1).expect false [])) (fabFrom f) (fabPayload f))) := by
  have hown : fld f.body 3 1 = (heardFrom (atTime s.dev t) (fabFrom f)).fab.id := hid
  have hjoined : (heardFrom (atTime s.dev t) (fabFrom f)).fab.state = .assigned := hstate
  have htakes : (decide (fld f.body 3 1 ≠ (heardFrom (atTime s.dev t) (fabFrom f)).fab.id) || decide ((heardFrom (atTime s.dev t) (fabFrom f)).fab.state ≠ .assigned) ||
      !((1 : Nat) == 1 || (1 : Nat) == 2) || decide (fabFrom f > 63)) = false := by
    rw [decide_eq_false (not_not_intro hown), decide_eq_false (not_not_intro hjoined), decide_eq_false (Nat.not_lt.2 hfrom)]
    rfl
  rw [exec_data, execData, onFz_withDev, fxData, fabIn_accepts hopen hgood]
  dsimp only
  rw [hch, htakes, if_neg Bool.false_ne_true, hsyn, if_neg Bool.false_ne_true, ← hd1, hexpect, beq_self_eq_true, if_pos rfl, ← hd2]
  rfl

theorem fabricFramesRun : FabricFramesRun := by
  intro f t s hopen
  refine ⟨fun hgood => ?_, fun hbad => ?_, fun hgood => ?_⟩
  · intro d
    refine ⟨?_, fun hserial hstate hid hfree => ?_, fun hid hstate => ?_, ?_, fun hid hstate hch hfrom hsyn => ?_⟩
    · rw [exec_hello, execHello, onFz_withDev, fxHello, fabIn_accepts hopen hgood]
    · have hseeking : d.fab.state = .seeking := hstate
      rw [exec_assign, execAssign, onFz_withDev, fxAssign, fabIn_accepts hopen hgood]
      simp only [d] at hseeking hfree ⊢
      simp [hserial, hseeking, Nat.not_lt.2 hid, hfree]
    · have hown : fld f.body 3 1 = d.fab.id := hid
      have hjoined : d.fab.state = .assigned := hstate
      have htakes : (decide (fld f.body 3 1 ≠ d.fab.id) || decide (d.fab.state ≠ .assigned)) = false := by
        rw [decide_eq_false (not_not_intro hown), decide_eq_false (not_not_intro hjoined)]
        rfl
      rw [exec_ack, execAck, onDev_withDev, fxFabAck, fabIn_accepts hopen hgood]
      exact congrArg (fun d => Host.Outcome.next (s.withDev d)) (if_neg (by rw [htakes]; exact Bool.false_ne_true))
    · intro d' b id hknown hother diff
      have hpeer : ((tget d'.fab.peers id).isNone || decide (fld b 0 8 = s.fuses.serial)) = false := by
        rw [decide_eq_false hother, Bool.or_false, ← Option.not_isSome, hknown]
        rfl
      rw [exec_heartbeat, execHeartbeat, onFz_withDev, fxFabHeartbeat, fabIn_accepts hopen hgood]
      exact congrArg (fun d => Host.Outcome.next (s.withDev d)) (if_neg (by rw [hpeer]; exact Bool.false_ne_true))
    · intro d1 hexpect d2
      exact execData_witness hopen hgood hid hstate hch hfrom hsyn rfl hexpect rfl
  · refine ⟨?_, ?_, ?_, ?_, ?_, ?_⟩
    · rw [exec_hello, execHello, onFz_withDev, fxHello, fabIn_drops hopen hbad]
    · rw [exec_assign, execAssign, onFz_withDev, fxAssign, fabIn_drops hopen hbad]
    · rw [exec_ack, execAck, onDev_withDev, fxFabAck, fabIn_drops hopen hbad]
    · rw [exec_heartbeat, execHeartbeat, onFz_withDev, fxFabHeartbeat, fabIn_drops hopen hbad]
    · rw [exec_data, execData, onFz_withDev, fxData, fabIn_drops hopen hbad]
    · rw [exec_leave, execLeave, onDev_withDev, fxLeave, fabIn_drops hopen hbad]
  · rw [exec_leave, execLeave, onDev_withDev, fxLeave, fabIn_accepts hopen hgood]

/-- Settles O50: the commands and timers of the fabric, and the frames that arrive. -/
theorem fabricRuns : Obligations.FabricRuns := ⟨fabricCommandsRun, fabricFramesRun⟩

end Sys2Proof.Machine

/-! PROOFS. The serial monitor (R559 to R567): what it answers at each level, the unlock, and the restricted monitor. -/
namespace Sys2Proof.Machine

/-! ### Lines and free values -/

section
variable {β : Type} (g : Dev → β) (hsend : ∀ d o, g (send d o) = g d)
include hsend

theorem uart_leaves (d : Dev) (ls : List String) : g (uart d ls) = g d := foldl_leaves g (fun _ _ => hsend ..) _ _

/-- TEMP takes free values and sends lines. -/
theorem tempLines_leaves (hfree : ∀ (d : Dev) (n : Nat), g { d with free := n } = g d) (d : Dev) (l : List Nat) :
    g (l.foldl (fun d i => let v := freeVal d; uart v.2 ["DIE " ++ decStr i ++ " " ++ decStr (v.1 / 10) ++ "." ++ decStr (v.1 % 10)]) d) = g d :=
  foldl_leaves g (fun _ _ => (uart_leaves g hsend ..).trans (hfree ..)) _ _

end

/-- Each die has a line of its own (R564). -/
theorem tempLines_length (l : List Nat) (d : Dev) :
    (l.foldl (fun d i => let v := freeVal d; uart v.2 ["DIE " ++ decStr i ++ " " ++ decStr (v.1 / 10) ++ "." ++ decStr (v.1 % 10)]) d).out.length =
      d.out.length + l.length := by
  induction l generalizing d with
  | nil => rfl
  | cons i l ih =>
    refine (ih _).trans ?_
    have hline : (uart (freeVal d).2 ["DIE " ++ decStr i ++ " " ++ decStr ((freeVal d).1 / 10) ++ "." ++ decStr ((freeVal d).1 % 10)]).out.length = d.out.length + 1 :=
      List.length_append
    rw [hline, List.length_cons, Nat.add_right_comm, Nat.add_assoc]

section
variable {d : Dev}

theorem uart_out (d : Dev) (ls : List String) : (uart d ls).out = d.out ++ ls.map .uart := by
  induction ls generalizing d with
  | nil => exact (List.append_nil _).symm
  | cons l ls ih => exact (ih _).trans (List.append_assoc ..)

theorem uart_ok_last (d : Dev) : (uart d ["OK"]).out.getLast? = some (.uart "OK") := List.getLast?_concat ..

/-! ### Levels (R561, R562) -/

theorem monAny_up (h : monUp d = true) (f : Dev → Dev) : monAny d f = f d := if_pos h

theorem monRead_full (h : monFull d) (f : Dev → Dev) : monRead d f = f d := by
  obtain ⟨hup, hrom⟩ := h
  rw [monRead, hup, hrom]
  rfl

theorem monRead_restricted (hup : monUp d = true) (hrom : monRom d = true) (f : Dev → Dev) : monRead d f = uart d ["ERR BOOT"] := by
  rw [monRead, hup, hrom]
  rfl

theorem monWrite_unlocked (h : monFull d) (hopen : d.mon.unlocked = true) (f : Dev → Dev) : monWrite d f = f d := by
  rw [monWrite, monRead_full h, if_pos hopen]

theorem monWrite_locked (h : monFull d) (hlocked : d.mon.unlocked = false) (f : Dev → Dev) : monWrite d f = uart d ["ERR LEVEL"] := by
  rw [monWrite, monRead_full h, hlocked]
  rfl

/-! ### Commands of level READ (R564, R565) -/

theorem saysOk_of_getLast {s : State} {i : Instr} {ls : List String} (h : exec i s = .next (s.withDev (uart s.dev ls))) (hne : ls ≠ [])
    (hlast : ls.getLast hne = "OK") : saysOk s i :=
  ⟨ls.dropLast, by rw [h, ← hlast, List.dropLast_append_getLast]⟩

theorem help_saysOk {s : State} (h : monUp s.dev = true) : saysOk s .help := ⟨_, by rw [exec_help, execHelp, onDev_withDev, fxHelp, monAny_up h]⟩

theorem monStage_saysOk {s : State} (h : monUp s.dev = true) : saysOk s .monStage :=
  ⟨["0x" ++ hexN 2 s.dev.pin.stage], by rw [exec_monStage, execMonStage, onDev_withDev, fxMonStage, monAny_up h]; rfl⟩

/-- VER takes a free value for the ROM's version. -/
theorem exec_ver_up {s : State} (h : monUp s.dev = true) :
    exec .ver s = .next (s.withDev (uart { s.dev with free := s.dev.free + 1 } ["KV-" ++ hexN 3 (partCode s.fuses.variant),
      "STEP " ++ String.singleton (Char.ofNat s.fuses.stepLetter) ++ decStr s.fuses.stepDigit, "ROM " ++ decStr (Config.freeNat s.dev.free),
      "FW " ++ decStr Config.fwMajor, "IMAGE " ++ hex32 (imgContent (actImg s.dev)), "OK"])) := by
  rw [exec_ver, execVer, onFz_withDev, fxVer, monAny_up h]
  rfl

/-- TEMP answers a line for each die and OK, and changes no register. -/
theorem exec_temp_up {s : State} (h : monUp s.dev = true) :
    ∃ d, exec .temp s = .next (s.withDev d) ∧ d.regs = s.dev.regs ∧ d.mon = s.dev.mon ∧ d.out.getLast? = some (.uart "OK") ∧
      d.out.length = s.dev.out.length + popDies s.fuses + 1 := by
  refine ⟨_, by rw [exec_temp, execTemp, onFz_withDev, fxTemp, monAny_up h], ?_, ?_, uart_ok_last _, ?_⟩
  · exact (uart_leaves (fun d => d.regs) (fun _ _ => rfl) ..).trans (tempLines_leaves (fun d => d.regs) (fun _ _ => rfl) (fun _ _ => rfl) ..)
  · exact (uart_leaves (fun d => d.mon) (fun _ _ => rfl) ..).trans (tempLines_leaves (fun d => d.mon) (fun _ _ => rfl) (fun _ _ => rfl) ..)
  · have hline : ∀ d : Dev, (uart d ["OK"]).out.length = d.out.length + 1 := fun d => List.length_append
    rw [hline, tempLines_length, List.length_range]

theorem stat_saysOk {s : State} (h : monFull s.dev) : saysOk s .stat :=
  saysOk_of_getLast (by rw [exec_stat, execStat, onDev_withDev, fxStat, monRead_full h]) (List.cons_ne_nil _ _) rfl

theorem monWdn_saysOk {s : State} (h : monFull s.dev) : saysOk s .monWdn := ⟨_, by rw [exec_monWdn, execMonWdn, onDev_withDev, fxMonWdn, monRead_full h]⟩

theorem fxRing_prints (h : monFull d) {n : Nat} (hmin : 1 ≤ n) (hmax : n ≤ 64) :
    fxRing d n = uart d (((d.wdn.ring.drop (d.wdn.ring.length - n)).map fun m => hexN 32 (beNat (msgBytes m))) ++ ["OK"]) := by
  have hrange : (decide (n = 0) || decide (n > 64)) = false := by simp; omega
  rw [fxRing, monRead_full h, hrange]
  rfl

theorem ring_saysOk {s : State} (h : monFull s.dev) {n : Nat} (hmin : 1 ≤ n) (hmax : n ≤ 64) : saysOk s (.ring n) :=
  ⟨_, by rw [exec_ring, execRing, onDev_withDev, fxRing_prints h hmin hmax]⟩

/-- RD of 1 to 16 words (R565). -/
theorem fxRd_prints {fz : Fuses} (h : monFull d) {addr n : Nat} (hmin : 1 ≤ n) (hmax : n ≤ 16) (haddr : ∀ i, i < n → monAddr fz (addr + 4 * i) = true) :
    fxRd fz d addr n = uart ((List.range n).foldl (fun d i => let v := peekReg fz d (addr + 4 * i);
      uart v.2 [hex32 (addr + 4 * i) ++ " = " ++ hex32 v.1]) d) ["OK"] := by
  have hrange : (decide (n = 0) || decide (n > 16)) = false := by simp; omega
  have hall : ((List.range n).all fun i => monAddr fz (addr + 4 * i)) = true := List.all_eq_true.2 fun i hi => haddr i (List.mem_range.1 hi)
  rw [fxRd, monRead_full h, hrange, hall]
  rfl

theorem fxRd_count {fz : Fuses} (h : monFull d) {addr n : Nat} (hn : n = 0 ∨ 16 < n) : fxRd fz d addr n = uart d ["ERR SYNTAX"] := by
  have hrange : (decide (n = 0) || decide (n > 16)) = true := by simpa using hn
  rw [fxRd, monRead_full h, hrange]
  rfl

/-- Only the state of an engine is shown with free values. -/
theorem showReg_keeps {fz : Fuses} {o : Nat} (h : o < 0x01000000 ∨ o % 0x01000000 < 0x100000) : (showReg fz d o).2 = d := by
  have hengine : 0x01000000 ≤ o → ¬ (0x100000 ≤ o % 0x01000000 ∧ o % 0x01000000 % 0x10000 < 0x1000 ∧ o % 0x01000000 % 0x100 = 4) := by omega
  unfold showReg
  dsimp only
  by_cases hpage : 0x40000000 ≤ o
  · rw [if_pos hpage]
  rw [if_neg hpage]
  by_cases hdie : 0x01000000 ≤ o
  · rw [if_pos hdie, if_neg (hengine hdie)]
  rw [if_neg hdie]
  split_ifs <;> rfl

/-- A word that no free value shows is read without any effect (R565). -/
theorem peekReg_shown {fz : Fuses} {addr o : Nat} (hmsix : msixAt d .monitor addr = none) (hkey : regKey fz d .monitor addr = some o)
    (ho : o < 0x01000000 ∨ o % 0x01000000 < 0x100000) : peekReg fz d addr = ((showReg fz d o).1, d) := by
  rw [peekReg, hmsix]
  dsimp only
  rw [hkey]
  exact Prod.ext rfl (showReg_keeps ho)

end

/-- Settles O39: the commands of level READ, and what a read shows. -/
theorem monitorReadsRun : Obligations.MonitorReadsRun := by
  intro addr n s hfull
  obtain ⟨hup, -⟩ := id hfull
  refine ⟨help_saysOk hup, monStage_saysOk hup, stat_saysOk hfull, monWdn_saysOk hfull, ring_saysOk hfull, ⟨_, exec_ver_up hup⟩, exec_temp_up hup,
    fun o haddr hmsix hkey ho => ?_, fun hmin hmax haddr => ?_, fun hn => ?_, ?_⟩
  · have hone : ∀ i, i < 1 → monAddr s.fuses (addr + 4 * i) = true := by
      intro i hi
      rw [Nat.lt_one_iff.1 hi]
      exact haddr
    have hword : uart ((List.range 1).foldl (fun d i => let v := peekReg s.fuses d (addr + 4 * i); uart v.2 [hex32 (addr + 4 * i) ++ " = " ++ hex32 v.1]) s.dev) ["OK"] =
        uart (uart (peekReg s.fuses s.dev addr).2 [hex32 addr ++ " = " ++ hex32 (peekReg s.fuses s.dev addr).1]) ["OK"] := rfl
    rw [exec_rd, execRd, onFz_withDev, fxRd_prints hfull le_rfl (by decide) hone, hword, peekReg_shown hmsix hkey ho]
    rfl
  · rw [exec_rd, execRd, onFz_withDev, fxRd_prints hfull hmin hmax haddr]
  · rw [exec_rd, execRd, onFz_withDev, fxRd_count hfull hn]
  · rw [exec_monLongLine, execMonLongLine, onDev_withDev, monAny_up hup]

/-! ### The unlock and what it permits (R562, R563, R566, R567) -/

section
variable {d : Dev} {fz : Fuses} {t : Nat}

theorem atTime_monFull (h : monFull d) : monFull (atTime d t) := h

/-- A wrong response counts, and the third in a row locks out. -/
theorem denied_mon (d : Dev) : (denied d).mon = { d.mon with fails := d.mon.fails + 1, lockout := d.mon.lockout || decide (3 ≤ d.mon.fails + 1) } := by
  show (uart (modMon (cnt d 0x100C) fun x => { x with fails := d.mon.fails + 1, lockout := x.lockout || decide (3 ≤ d.mon.fails + 1) }) ["ERR DENIED"]).mon = _
  rw [uart_leaves (fun d => d.mon) (fun _ _ => rfl), modMon, cnt_mon]

/-- The challenge of an unlock (R563). -/
theorem fxUnlock_challenges (h : monFull d) (hro : bitAt (rget d 0x1000) 1 = false) (hlockout : d.mon.lockout = false) {n : Nat}
    (hn : n = Config.freeNat d.free % 2 ^ 64) :
    fxUnlock fz d t = uart (modMon { atTime d t with free := d.free + 1 } fun x => { x with nonce := some (n, t), resp := [] })
      ["CHALLENGE " ++ hex64 n ++ " SERIAL " ++ hex64 fz.serial ++ " VALID 60 s", "OK"] := by
  have hro' : bitAt (rget (atTime d t) 0x1000) 1 = false := hro
  have hlockout' : (atTime d t).mon.lockout = false := hlockout
  rw [fxUnlock, monRead_full (atTime_monFull h), hro', hlockout', hn]
  rfl

theorem fxUnlock_readOnly (h : monFull d) (hro : bitAt (rget d 0x1000) 1 = true) : fxUnlock fz d t = uart (atTime d t) ["ERR LEVEL"] := by
  rw [fxUnlock, monRead_full (atTime_monFull h)]
  exact if_pos hro

/-- A line of a response before its nonce has run out (R563). -/
theorem fxResp_takes (h : monFull d) {n t0 i : Nat} {b : Bytes} (hnonce : d.mon.nonce = some (n, t0)) (htime : ¬ t > t0 + 60000000000) (hlen : b.length = 16)
    (hi : i ≤ 5) {d1 : Dev} (hd1 : d1 = modMon (atTime d t) fun x => { x with resp := tput x.resp i b }) :
    fxResp fz d i b t =
      if i ≠ 5 then uart d1 ["OK"]
      else if (d1.mon.resp.length == 6) && Config.unlockOk n fz.serial (d1.mon.resp.flatMap (·.2)) then
        uart (modMon (cnt d1 0x1008) fun x => { x with unlocked := true, fails := 0, nonce := none, resp := [] }) ["UNLOCKED", "OK"]
      else denied d1 := by
  have hline : (decide (i > 5) || decide (b.length ≠ 16)) = false := by simp [hlen, hi]
  have hnonce' : (atTime d t).mon.nonce = some (n, t0) := hnonce
  rw [fxResp, monRead_full (atTime_monFull h), hline, hnonce', hd1, if_neg Bool.false_ne_true]
  dsimp only
  rw [if_neg htime]

end

/-- A response that does not verify counts (R563). -/
theorem exec_resp_denied {s : State} {d1 : Dev} {b : Bytes} {t i : Nat} {r : Tab Bytes} (h : fxResp s.fuses s.dev i b t = denied d1)
    (hd1 : d1.mon = { s.dev.mon with resp := r }) :
    ∃ d, exec (.resp i b t) s = .next (s.withDev d) ∧ d.mon.fails = s.dev.mon.fails + 1 ∧ d.mon.unlocked = s.dev.mon.unlocked ∧
      d.mon.lockout = (s.dev.mon.lockout || decide (3 ≤ s.dev.mon.fails + 1)) := by
  refine ⟨denied d1, by rw [exec_resp, execResp, onFz_withDev, h], ?_⟩
  rw [denied_mon, hd1]
  exact ⟨rfl, rfl, rfl⟩

/-- Settles O40: the challenge, the response, and what an unlocked monitor may do. -/
theorem monitorUnlockRuns : Obligations.MonitorUnlockRuns := by
  intro t s hfull _ d0 fw
  have hfull0 : monFull d0 := hfull
  refine ⟨fun hro hlockout => ?_, fun hro => ?_, fun n t0 b hnonce htime hlen => ?_, ?_,
    fun addr v haddr hopen => ?_, fun addr v hlocked => ?_, fun src hsrc hopen => ?_, rfl, fun hlockout => ?_⟩
  · refine ⟨_, Config.freeNat s.dev.free % 2 ^ 64, by rw [exec_unlock, execUnlock, onFz_withDev, fxUnlock_challenges hfull hro hlockout rfl],
      Nat.mod_lt _ (by decide), ?_, ?_, ?_⟩
    · rw [uart_leaves (fun d => d.mon) fun _ _ => rfl]
      rfl
    · rw [uart_out]
      rfl
    · rw [uart_leaves (fun d => d.regs) fun _ _ => rfl]
      rfl
  · rw [exec_unlock, execUnlock, onFz_withDev, fxUnlock_readOnly hfull hro]
  · intro resp
    have hvalid : ¬ t > t0 + 60000000000 := Nat.not_lt.2 htime
    have hlast := fxResp_takes (fz := s.fuses) hfull hnonce hvalid hlen (i := 5) le_rfl rfl
    refine ⟨fun i hi => ?_, fun hsix => ?_, fun hsix => ?_⟩
    · rw [exec_resp, execResp, onFz_withDev, fxResp_takes hfull hnonce hvalid hlen (Nat.le_of_lt hi) rfl, if_pos (Nat.ne_of_lt hi)]
    · split_ifs with hok
      · have hverifies : ((resp.length == 6) && Config.unlockOk n fw.serial (resp.flatMap (·.2))) = true := by rw [hsix, hok]; rfl
        have hopens : fxResp s.fuses s.dev 5 b t =
            uart (modMon (cnt d0 0x1008) fun x => { x with unlocked := true, fails := 0, nonce := none, resp := [] }) ["UNLOCKED", "OK"] :=
          (hlast.trans (if_neg (not_not_intro rfl))).trans (if_pos hverifies)
        rw [exec_resp, execResp, onFz_withDev, hopens]
      · have hfails : ((resp.length == 6) && Config.unlockOk n fw.serial (resp.flatMap (·.2))) = false := by
          rw [Bool.eq_false_of_not_eq_true hok, Bool.and_false]
        exact exec_resp_denied ((hlast.trans (if_neg (not_not_intro rfl))).trans (if_neg (by rw [Bool.not_eq_true]; exact hfails))) rfl
    · have hfails : ((resp.length == 6) && Config.unlockOk n fw.serial (resp.flatMap (·.2))) = false := by
        rw [beq_false_of_ne hsix, Bool.false_and]
      exact exec_resp_denied ((hlast.trans (if_neg (not_not_intro rfl))).trans (if_neg (by rw [Bool.not_eq_true]; exact hfails))) rfl
  · rw [exec_lock, execLock, onDev_withDev, fxMonLock, monRead_full hfull]
  · have hmay : (!monAddr s.fuses addr) = false := by rw [haddr]; rfl
    rw [exec_wr, execWr, onFz_withDev, fxWr, monWrite_unlocked hfull0 hopen, hmay]
    rfl
  · rw [exec_wr, execWr, onFz_withDev, fxWr, monWrite_locked hfull0 hlocked]
  · rw [exec_monAck, execMonAck, onDev_withDev, fxMonAck, monWrite_unlocked hfull0 hopen]
    exact congrArg (fun d => Host.Outcome.next (s.withDev d)) (if_neg (Nat.not_le.2 hsrc))
  · rw [exec_monLockoutExpiry, execMonLockoutExpiry, onDev_withDev, if_pos hlockout]

/-! ### The restricted monitor (R561) -/

/-- Settles O47: what answers before the firmware runs, and what is refused. -/
theorem restrictedMonitor : Obligations.RestrictedMonitor := by
  intro addr n v t b src u s hup hrom
  have hlater : ∀ f, monRead (atTime s.dev t) f = uart (atTime s.dev t) ["ERR BOOT"] := monRead_restricted (d := atTime s.dev t) hup hrom
  obtain ⟨dt, htemp, htregs, htmon, htlast, -⟩ := exec_temp_up hup
  refine ⟨help_saysOk hup, monStage_saysOk hup, ⟨dt, htemp, htlast, htregs, htmon⟩, ⟨_, exec_ver_up hup, ?_, ?_, ?_⟩, fun i hi => ?_, fun i hi => ?_⟩
  · rw [uart_out]
    exact List.getLast?_append_cons ..
  · rw [uart_leaves (fun d => d.regs) fun _ _ => rfl]
  · rw [uart_leaves (fun d => d.mon) fun _ _ => rfl]
  · simp only [List.mem_cons, List.not_mem_nil, or_false] at hi
    obtain rfl | rfl | rfl | rfl | rfl := hi
    · rw [exec_stat, execStat, onDev_withDev, fxStat, monRead_restricted hup hrom]
    · rw [exec_rd, execRd, onFz_withDev, fxRd, monRead_restricted hup hrom]
    · rw [exec_monWdn, execMonWdn, onDev_withDev, fxMonWdn, monRead_restricted hup hrom]
    · rw [exec_ring, execRing, onDev_withDev, fxRing, monRead_restricted hup hrom]
    · rw [exec_lock, execLock, onDev_withDev, fxMonLock, monRead_restricted hup hrom]
  · simp only [List.mem_cons, List.not_mem_nil, or_false] at hi
    obtain rfl | rfl | rfl | rfl := hi
    · rw [exec_unlock, execUnlock, onFz_withDev, fxUnlock, hlater]
    · rw [exec_resp, execResp, onFz_withDev, fxResp, hlater]
    · rw [exec_wr, execWr, onFz_withDev, fxWr, monWrite, hlater]
    · rw [exec_monAck, execMonAck, onDev_withDev, fxMonAck, monWrite, hlater]

end Sys2Proof.Machine

/-! PROOFS. Registers that are not listed (R568), what reset leaves (R554), and a step with a command in front. -/
namespace Sys2Proof.Machine

/-! ### Offsets that no register has (R568) -/

theorem rowHit_below {r : RegRow} {o : Nat} (h : o < r.base) : rowHit r o = none := if_pos h

theorem rowHit_above {r : RegRow} {o : Nat} (hs : 0 < r.s1) (h : r.base + r.s1 * r.n1 ≤ o) : rowHit r o = none := by
  have hindex : r.n1 ≤ (o - r.base) / r.s1 := (Nat.le_div_iff_mul_le hs).2 (by rw [Nat.mul_comm]; omega)
  rw [rowHit, if_neg (Nat.not_lt.2 (by omega))]
  exact if_neg fun hit => absurd hit.1 (Nat.not_lt.2 hindex)

/-- The row's registers begin at MON_CTL or later, or end before the tile map does. -/
def outsideGap (r : RegRow) : Bool := Nat.ble 0x1000 r.base || (Nat.blt 0 r.s1 && Nat.ble (r.base + r.s1 * r.n1) 0x300)

/-- No row of the package range has a register between the tile map and MON_CTL. -/
theorem pkgRows_outsideGap : pkgRows.all outsideGap = true := by rfl

theorem rowHit_gap {r : RegRow} {o : Nat} (h : outsideGap r = true) (hmin : 0x300 ≤ o) (hmax : o < 0x1000) : rowHit r o = none := by
  simp only [outsideGap, Bool.or_eq_true, Bool.and_eq_true, Nat.ble_eq, Nat.blt_eq] at h
  obtain hbase | ⟨hs, hend⟩ := h
  · exact rowHit_below (hmax.trans_le hbase)
  · exact rowHit_above hs (hend.trans hmin)

theorem regHit_gap {o : Nat} (hmin : 0x300 ≤ o) (hmax : o < 0x1000) : regHit o = none := by
  rw [regHit, if_neg (by omega), if_neg (by omega), if_neg (by omega), List.findSome?_eq_none_iff]
  exact fun r hr => rowHit_gap (List.all_eq_true.1 pkgRows_outsideGap r hr) hmin hmax

/-- The physical function finds no register at an offset that is not listed. -/
theorem regKey_unlisted {fz : Fuses} {addr : Nat} (d : Dev)
    (h : regHit addr = none ∨ (0x01000000 ≤ addr ∧ addr < 0x09000000 ∧ popDies fz ≤ (addr - 0x01000000) / 0x01000000)) : regKey fz d (.host 0) addr = none := by
  have hlisted : ((regHit addr).isNone || (decide (0x01000000 ≤ addr) && decide (addr < 0x40000000) && decide (popDies fz ≤ (addr - 0x01000000) / 0x01000000))) = true := by
    obtain h | ⟨hmin, hmax, hdie⟩ := h
    · rw [h]
      rfl
    · rw [decide_eq_true hmin, decide_eq_true (hmax.trans (by decide)), decide_eq_true hdie]
      exact Bool.or_true _
  unfold regKey
  dsimp only
  rw [hlisted, if_pos rfl]
  exact ite_self _

/-- Settles O43: such an offset reads 0, and only the time follows from a write. -/
theorem unlistedRegistersReadZero : Obligations.UnlistedRegistersReadZero := by
  refine ⟨fun addr v t s hmsix h => ⟨?_, ?_⟩, fun n hmin hmax => regHit_gap (by omega) hmax⟩
  · have hread : readReg s.fuses s.dev (.host 0) addr = (0, s.dev) := by
      rw [readReg, hmsix]
      dsimp only
      rw [regKey_unlisted s.dev h]
    rw [exec_rcRead, execRcRead, onMem_fxRead Who.noConfusion, hread]
  · have hwrite : writeReg s.fuses (atTime s.dev t) (.host 0) addr v t = atTime s.dev t := by
      have hmsix' : msixAt (atTime s.dev t) (.host 0) addr = none := hmsix
      rw [writeReg, hmsix']
      dsimp only
      rw [regKey_unlisted _ h]
    rw [exec_registerWrite, execRegisterWrite, onMem_fxWrite Who.noConfusion, hwrite]

/-! ### Reset (R554) -/

theorem resetRegisters : ResetRegisters := by
  unfold ResetRegisters
  dsimp only
  exact ⟨by decide, rfl⟩

/-- Settles O60: sound memory, an empty queue, and the reset column of the register map. -/
theorem resetState : Obligations.ResetState := ⟨⟨rfl, rfl⟩, resetRegisters⟩

/-! ### The step -/

/-- Settles O1: by the definition of a step. -/
theorem stepRunsFront : Obligations.StepRunsFront := fun _ _ _ => rfl

end Sys2Proof.Machine
